-- ==== Sys2Proof/Word.lean ====
section
/-! DEFINITION. The plain words of the EH24: octets, the bounded numbers that name channels, units,
groups, consoles, codes and quality classes, and the fixed ratios of the part's time units
(spec/00_scope.md, "Units of time"). -/

namespace Sys2Proof

/-- An octet is eight bits (00_scope, "Octets"). -/
abbrev Octet := BitVec 8

/-- One of the 24 status octet positions of the unit bus uplink. -/
abbrev Chan := Fin 24

/-- One generating unit, 0..7. -/
abbrev UnitNo := Fin 8

/-- A group of channels: unit 0..7, or station group 8. -/
abbrev Group := Fin 9

/-- A shift console: the value `c` stands for the console at address `c + 1`. -/
abbrev Console := Fin 4

/-- The Code of a channel status octet, 0..15. -/
abbrev Code := Fin 16

/-- A time quality class: `q` is TQq; TQ7 is the worst of all (R19). -/
abbrev Quality := Fin 8

/-- Ticks in one second of the local timebase. -/
abbrev ticksPerSecond : Nat := 64000

/-- Ticks in one frame of the station link and of the unit bus. -/
abbrev ticksPerFrame : Nat := 16

/-- Nanoseconds in one tick (1/64,000 s). -/
abbrev nsPerTick : Nat := 15625

/-- Ticks in one minute. -/
abbrev ticksPerMinute : Nat := 3840000

/-- Bit periods of one frame (R51, chapter 11.1: 96 octet times of 8 bits). -/
abbrev bitsPerFrame : Nat := 768

end Sys2Proof
end

