-- ==== Sys2Proof/Syntax.lean ====
section
/-! DEFINITION. The commands of the EH24: one constructor of `Instr` for each row of
spec/opcode_table.json. A row's operands are what comes from outside the part with the event: the
octets of a received frame, the date of a marker inside its tick, the channel, unit, group or
reference whose timer is meant. A management request carries no operand here: its octets reach the
part through FRAME_TAKEN and stand in the request buffer (R173, R177). -/

namespace Sys2Proof

/-- The two time references: A is the station master clock, B the backup pulse line. -/
inductive Ref where
  | a
  | b
  deriving DecidableEq, Repr

/-- What of the supply or of the reset pin the part meets (R1, R65, R185): the supply comes up; the pin has been low
for a time and is still low; or the pin rises. -/
inductive ResetCause where
  | supply
  | pinLow (lowNs : Nat)
  | pinRise
  deriving DecidableEq, Repr

/-- A rising edge on the backup pulse line, with how long the line was low before it and stays high
after it (R65). -/
structure Pulse where
  lowNs : Nat
  highNs : Nat
  deriving DecidableEq, Repr

/-- Octets 0..29 of a downward station-link frame (11.1); octets 30..95 are idle fill. -/
structure DownFrame where
  sync0 : Octet
  sync1 : Octet
  flags : Octet
  time : Octet
  mgmt : Octet
  control : Octet
  commands : Vector Octet 24
  deriving DecidableEq, Repr

/-- Octets 48..74 of a unit-bus frame: the uplink (11.1). -/
structure Uplink where
  status : Vector Octet 24
  requests : Octet
  console0 : Octet
  console1 : Octet
  deriving DecidableEq, Repr

/-- The order in which the parts of one look are taken where the spec leaves it open.
`consoleFirst`: a console message completed at the look is acted on before the look's channel
changes (R149, R150 give both orders). `openingFirst`: a cascade opened by the look is handed to the
Tally Unit before the look's mode changes (R116 gives both orders). -/
structure LookOrder where
  consoleFirst : Bool
  openingFirst : Bool
  deriving DecidableEq, Repr

/-- The commands, in the order of spec/opcode_table.json. -/
inductive Instr where
  | powerOnReset (cause : ResetCause)
  | localSecondBoundary
  | stepApplication
  | huntSyncFound (pos : Nat)
  | huntSyncAbsent
  | frameTaken (fine : Fin 15625) (f : DownFrame)
  | syncAbsentFrame
  | bMarker (fine : Fin 15625) (p : Pulse)
  | markerMissingTimeout (r : Ref)
  | markerAbsentTimeout (r : Ref)
  | revertWaitExpiry
  | upwardFrameStart
  | upwardFrameEnd
  | downlinkFrameStart
  | look (u : Uplink) (o : LookOrder)
  | quietDeadline (ch : Chan)
  | cascadeClose (g : Group)
  | incidentHoldEnd
  | startTimeout (u : UnitNo)
  | dutyClaim
  | accept
  | release
  | query
  | windowExpiry
  | releaseExpiry
  | settleEnd
  | replyTimeout
  | readStatus
  | readTime
  | setTime
  | writeP
  | writeQ
  | writeStepThreshold
  | writeJitterLimit
  | writeQualifyCount
  | writeBClass
  | writeHoldoverDriftBound
  | writeReferencePolicy
  | writeRevertive
  | writeRevertHoldoff
  | writeBuildOut
  | writeSearchOnAcquire
  | writeStoreDepth
  | writeChatterWindow
  | writeCascadeWindow
  | writeTripHold
  | writeHandoverWindow
  | writeReleaseLimit
  | writeScheduleMode
  | writeLocalOffset
  | readParam
  | writeChannel
  | readChannel
  | restartChannel
  | writeUnit
  | readTally
  | presetTally
  | writeSchedule
  | readSchedule
  | readShift
  | trimSearchStart
  | trimSearchAbort
  | warmRestart
  | warmRestartActs
  | tick
  | unknownRequest
  deriving DecidableEq, Repr

end Sys2Proof
end

