-- ==== Sys2Proof/Config.lean ====
section
/-! DEFINITION. The free values of the model: constants without a body, for values the spec leaves
unstated. Nothing can be proved of them but their type. Each is named in a log entry. -/

namespace Sys2Proof

/-- R23 gives phase errors as multiples of 8 ns and does not say how the exact phase is brought to
one: whether a phase between two multiples goes to the upper one. Applied to the reference, the E of
the marker and the exact phase in ns (log entry 3). -/
opaque Config.phaseRoundsUp : Ref → Nat → Int → Bool

/-- What E becomes at the tick after its top value 2^48−1, about 139 years after reset (log entry 4). -/
opaque Config.elapsedAfterTop : Fin (2 ^ 48)

/-- The accuracy, in ns, that R18 takes when a step clears the unset flag while no reference is
active, or while the active reference's class is 7 and names no accuracy. Applied to the E of the
application (log entry 6). -/
opaque Config.unstatedAccuracy : Nat → Nat

/-- The residual that goes with two step decisions merged by R9, less 7,813 ns: R38 bounds a residual
by 7,813 ns in magnitude and R9 does not say which stands. Applied to the two residuals
(log entry 7). -/
opaque Config.mergedResidual : Int → Int → Fin 15627

end Sys2Proof
end

