-- ==== Sys2Proof/Machine/State.lean ====
section
/-! DEFINITION. The state of the EH24: every item of the state tables of spec/, block by block, as
plain data, the queue of waiting commands, and the machine right after power-on reset. -/

namespace Sys2Proof.Machine

/-! ### Enumerations (11.6) -/

/-- Timebase mode (R33). -/
inductive TbMode where
  | freeRun | acquiring | locked | holdover
  deriving DecidableEq, Repr

/-- Qualification state of a reference (R21). -/
inductive Qual where
  | absent | qualifying | qualified | faulted
  deriving DecidableEq, Repr

/-- Fault reason of a reference (R21). -/
inductive FaultReason where
  | none | missing | jitter | message | link
  deriving DecidableEq, Repr

/-- Cause of a TIMEBASE record (R45). -/
inductive TbCause where
  | qualified | fault | policy | revert | lock | searchDone | searchAborted
  deriving DecidableEq, Repr

/-- Operating mode of a generating unit (R119). -/
inductive UnitMode where
  | standstill | starting | spin | generating | pumping | condenser | stopping | unknown
  deriving DecidableEq, Repr

/-- Reason of a START_FAIL record (R131). -/
inductive FailReason where
  | timeout | standstill | cascade | source
  deriving DecidableEq, Repr

/-- Role of a channel (R66). -/
inductive Role where
  | unused | status | alarm | trip | mode
  deriving DecidableEq, Repr

/-- Presence of a channel's device (R69). -/
inductive Presence where
  | unknown | present | absent
  deriving DecidableEq, Repr

/-- Handover state (R146). -/
inductive HState where
  | noDuty | onShift | windowOpen | accepted | held | overrun | settling
  deriving DecidableEq, Repr

/-- Cause of a HANDOVER record (R156). -/
inductive HCause where
  | claim | boundary | incidentBegin | accept | windowExpiry | incidentEnd | release
  | releaseExpiry | settled | mode | schedule
  deriving DecidableEq, Repr

/-- Kind of a cut and of the shift record it closes (R154). -/
inductive CloseKind where
  | normal | late | forced | auto | unattended
  deriving DecidableEq, Repr

/-- Reason of a REFUSE to a console (R147). -/
inductive Refuse where
  | dutyTaken | notDuty | sameConsole | noWindow | alreadyAccepted | incident | busy | autoMode
  deriving DecidableEq, Repr

/-- Kind of a console message (11.4). -/
inductive ConsoleKind where
  | dutyClaim | accept | release | query
  deriving DecidableEq, Repr

/-- Reference policy (R35). -/
inductive Policy where
  | auto | forceA | forceB | forceHoldover
  deriving DecidableEq, Repr

/-- Schedule mode (R137). -/
inductive SchedMode where
  | console | auto
  deriving DecidableEq, Repr

/-- Level of a requester of an arbitrated slot (R99, R143). -/
inductive Level where
  | normal | lowered
  deriving DecidableEq, Repr

/-- Class of an event record (R90). -/
inductive RecClass where
  | a | b
  deriving DecidableEq, Repr

/-- Kind of an event record (R91). -/
inductive RecKind where
  | state | mode | chatterOn | chatterOff | channelLost | channelFound | cascade | startFail
  | refState | timebase | timeStep | timeSet | quality | slip | handover | shiftClosed
  deriving DecidableEq, Repr

/-- One of the two elastic stores (R61). -/
inductive StoreName where
  | up | down
  deriving DecidableEq, Repr

/-- Type of a slip (R63). -/
inductive SlipType where
  | dropped | repeated
  deriving DecidableEq, Repr

/-! ### Timebase (chapter 1) -/

/-- A pending step: the amount in ticks, the application tick and the residual handed with it
(R9, R38). -/
structure PendingStep where
  amount : Int
  applyAt : Nat
  residual : Int
  deriving DecidableEq, Repr

/-- A pending time setting (R14). -/
structure TimeSetting where
  seconds : Nat
  accuracy : Nat
  deriving DecidableEq, Repr

/-- The Timebase's state (R1, R2). `fraction` is the carried fraction in units of 10^−9 tick.
`lastBoundary` is the model's own: the E at which the latest local second boundary was recognised, so
that R6 recognises one at most once at a tick. -/
structure Timebase where
  e : Nat
  delta : Int
  unset : Bool
  stepCount : Nat
  trim : Int
  pendingTrim : Int
  pendingStep : Option PendingStep
  pendingSetting : Option TimeSetting
  u : Nat
  quality : Quality
  fraction : Nat
  lastBoundary : Option Nat
  deriving DecidableEq, Repr

/-- The station-time values at a tick (R69): what forms a station stamp (R8). -/
structure StationVals where
  delta : Int
  unset : Bool
  stepCount : Nat
  quality : Quality
  deriving DecidableEq, Repr

/-- An elapsed stamp with the station stamp, step count and quality class formed from it (R8). -/
structure Stamp where
  elapsed : Nat
  seconds : Nat
  tick : Nat
  stepCount : Nat
  quality : Quality
  deriving DecidableEq, Repr

/-! ### Reference Monitor and Discipline Loop (chapter 2) -/

/-- The items that the RM holds for each reference (R21). -/
structure RefState where
  qual : Qual
  count : Nat
  lastMarker : Option Nat
  lastErr : Option Int
  prevBad : Bool
  fault : FaultReason
  holdoffEnd : Option Nat
  qualifiedSince : Option Nat
  buildOut : Int
  deriving DecidableEq, Repr

/-- A completed time message of reference A (R25). -/
structure TimeMessage where
  seconds : Nat
  cls : Nat
  correct : Bool
  deriving DecidableEq, Repr

/-- The Reference Monitor's state (R21). `assembly` holds the octets of the message under assembly,
empty for none. `w` and `agree` are the seconds agreement. -/
structure RefMonitor where
  a : RefState
  b : RefState
  assembly : List Octet
  message : Option TimeMessage
  aClass : Nat
  w : Int
  agree : Nat
  deriving DecidableEq, Repr

/-- A running trim search (R47, R48). `armed` says that the interval's trim has taken effect;
`start` is the interval's start phase and the good seconds counted since. -/
structure Search where
  ref : Ref
  stepSize : Nat
  trim : Int
  armed : Bool
  start : Option (Int × Nat)
  savedI : Int
  savedT : Int
  deferred : Option (Int × Int)
  deriving DecidableEq, Repr

/-- What the timebase mode and the active reference were before their first change at tick `at`
(the model's own): R17 takes the mode at the end of the second that a boundary closes. -/
structure ModeBefore where
  tick : Nat
  mode : TbMode
  active : Option Ref
  deriving DecidableEq, Repr

/-- The Discipline Loop's state (R33). `p` and `q` are the values in force. -/
structure Loop where
  mode : TbMode
  active : Option Ref
  integral : Int
  everLocked : Bool
  history : List (Int × Int)
  confirmed : Option (Int × Int)
  search : Option Search
  p : Nat
  q : Nat
  before : Option ModeBefore
  deriving DecidableEq, Repr

/-! ### Station link, unit bus and elastic stores (chapter 3) -/

/-- Frame alignment state (R50). -/
inductive Alignment where
  | lof | inFrame
  deriving DecidableEq, Repr

/-- Hunt phase (R50). -/
inductive Hunt where
  | searching
  | confirming (good : Nat)
  deriving DecidableEq, Repr

/-- Timing of the upward frames (R50, R56). -/
inductive UpTiming where
  | loop | elapsed
  deriving DecidableEq, Repr

/-- What the report slot of an upward frame carries (R100, R104). -/
inductive SlotUse where
  | record | abandoned | idle
  deriving DecidableEq, Repr

/-- The contents of an upward station-link frame, octet by octet in the places of 11.1: the frame sync in octets 0 and 1,
the idle fill in octets 32 to 95. -/
structure UpFrame where
  sync : Vector Octet 2
  status : Octet
  report0 : Octet
  report1 : Octet
  recordStart : Octet
  mgmt : Octet
  control : Octet
  passthrough : Vector Octet 24
  fill : Vector Octet 64
  deriving DecidableEq, Repr

/-- The upward frame in progress: its start, the source of its timing, what its report slot carries
and its contents, fixed at its start tick (R50, R57). While there is none the line carries idle fill (R56). -/
structure UpInProgress where
  start : Nat
  source : UpTiming
  slot : SlotUse
  frame : UpFrame
  deriving DecidableEq, Repr

/-- The Station Link Interface's state (R50). `searchFrom` is the received bit position from which the
search examines (R51); `upDue` is the E at which the upward frame of the latest taken frame starts
(R56): both implied by the rules. -/
structure StationLink where
  alignment : Alignment
  hunt : Hunt
  expected : Option Nat
  searchFrom : Nat
  missing : Nat
  syncErrors : Nat
  upTiming : UpTiming
  upDue : Option Nat
  up : Option UpInProgress
  deriving DecidableEq, Repr

/-- The downlink of one unit-bus frame, octet by octet in the places of 11.1, with its start E. -/
structure DownlinkFrame where
  start : Nat
  sync : Vector Octet 2
  flags : Octet
  time : Octet
  console0 : Octet
  console1 : Octet
  grant : Octet
  commands : Vector Octet 24
  deriving DecidableEq, Repr

/-- The Unit Bus Interface's state (R58, R60): the frame in progress, the latest look taken, and the
time distribution message under transmission, of 8 octets. -/
structure UnitBus where
  frame : Option DownlinkFrame
  lastLook : Option Nat
  distribution : List Octet
  deriving DecidableEq, Repr

/-- One elastic store (R61); its fill level is the length of `frames`. -/
structure Elastic where
  frames : List (Vector Octet 24)
  last : Vector Octet 24
  slips : Nat
  recordMade : Bool
  deriving DecidableEq, Repr

/-! ### Event records, the Event Queue and the Report Arbiter (chapter 5) -/

/-- An event record (R90), with the elapsed stamp that the EQ orders by (R89) and the collapsed count
of R87, which are not sent as such. `source`, `old`, `new` are the numbers of 11.3 and 11.6. -/
structure EventRecord where
  kind : RecKind
  cls : RecClass
  initial : Bool
  overflowBefore : Bool
  source : Nat
  old : Nat
  new : Nat
  stamp : Stamp
  seq : Nat
  aux : Int
  collapsed : Nat
  deriving DecidableEq, Repr

/-- The Event Queue's state (R89); the fill is the length of `records`. -/
structure EventQueue where
  records : List EventRecord
  seq : Nat
  lostA : Nat
  lostB : Nat
  lossPending : Bool
  deriving DecidableEq, Repr

/-- The record in transmission with the number of its frames started, 1..8 (R99). -/
structure Sending where
  record : EventRecord
  frames : Nat
  deriving DecidableEq, Repr

/-- The Report Arbiter's state (R99). -/
structure Arbiter where
  levelA : Level
  levelB : Level
  idle : Nat
  lastSender : Option RecClass
  sending : Option Sending
  abandoned : Nat
  deriving DecidableEq, Repr

/-! ### Channel Monitor (chapter 4) -/

/-- A channel table entry (R66). -/
structure ChannelEntry where
  enabled : Bool
  role : Role
  group : Group
  tripSet : BitVec 16
  latency : Nat
  chatterLimit : Nat
  deriving DecidableEq, Repr

/-- A candidate (R71). -/
structure Candidate where
  code : Code
  age : Nat
  frame : Nat
  vals : StationVals
  deriving DecidableEq, Repr

/-- The first look of a no-device run (R76). -/
structure RunStart where
  frame : Nat
  vals : StationVals
  deriving DecidableEq, Repr

/-- The items of chatter state CHATTER (R79). -/
structure Chatter where
  codeAtEntry : Code
  deadline : Nat
  lastStamp : Nat
  lastVals : StationVals
  deriving DecidableEq, Repr

/-- One channel: its table entry (R66) and its runtime (R69). The look state is CANDIDATE when
`candidate` is present and STABLE otherwise; the chatter state is CHATTER when `chatter` is present. -/
structure Channel where
  entry : ChannelEntry
  presence : Presence
  valid : Option Code
  candidate : Option Candidate
  runCount : Nat
  runStart : Option RunStart
  rawLast : Option Octet
  recent : List Nat
  chatter : Option Chatter
  suppressed : Nat
  store : List EventRecord
  unstable : Nat
  floor : Nat
  deriving DecidableEq, Repr

/-! ### Cascade Tracker (chapter 6) -/

/-- A member of a cascade (R106). -/
structure Member where
  channel : Chan
  stamp : Nat
  vals : StationVals
  deriving DecidableEq, Repr

/-- An open cascade (R106); the first-out is the member that `firstOut` names (R110). -/
structure Cascade where
  close : Nat
  members : List Member
  deriving DecidableEq, Repr

/-- The Cascade Tracker's state (R106); a slot is IDLE when it holds no cascade. -/
structure Cascades where
  slots : Vector (Option Cascade) 9
  holdEnd : Option Nat
  incident : Bool
  deriving DecidableEq, Repr

/-! ### Tally Unit (chapter 7) -/

/-- An open start attempt (R120). -/
structure Attempt where
  start : Nat
  expiry : Nat
  deriving DecidableEq, Repr

/-- A shift set of the TU (R120, R160); `start` is none while no shift is open. -/
structure ShiftSet where
  start : Option Nat
  durations : Vector Nat 8
  starts : Nat
  successes : Nat
  failures : Nat
  deriving DecidableEq, Repr

/-- One unit: its table entry (R119) and its runtime (R120). Buckets and durations stand in the mode
order of 11.6; the mode map in the order of the codes. -/
structure GenUnit where
  enabled : Bool
  modeMap : Vector UnitMode 16
  timeout : Nat
  mode : UnitMode
  entry : Nat
  history : List (UnitMode × Nat)
  buckets : Vector Nat 8
  base : Nat
  baseStamp : Nat
  starts : Nat
  successes : Nat
  failures : Nat
  trips : Nat
  loadTrips : Nat
  attempt : Option Attempt
  cur : ShiftSet
  next : Option ShiftSet
  deriving DecidableEq, Repr

/-! ### Handover Controller (chapter 8) -/

/-- A boundary of the schedule: (day, index) (R139). -/
abbrev BoundaryId := Nat × Nat

/-- The grant in progress (R143): the console, the number of the frame at whose look the grant was
decided, and the first half of the message once taken. -/
structure Grant where
  console : Console
  frame : Nat
  half : Option (Octet × Octet)
  deriving DecidableEq, Repr

/-- A well-formed console message taken at E `arrival`, on which the handover has still to act
(R144): the look hands it to the DUTY_CLAIM, ACCEPT, RELEASE or QUERY command. -/
structure ConsoleMsg where
  kind : ConsoleKind
  console : Console
  tag : Octet
  arrival : Nat
  deriving DecidableEq, Repr

/-- Which console downlink message (R145). -/
inductive DownKind where
  | confirm | refuse (r : Refuse) | notice
  deriving DecidableEq, Repr

/-- A console downlink message (R145); `answered` is the console message it answers. -/
structure DownMsg where
  kind : DownKind
  answered : Option (Console × ConsoleKind × Octet)
  state : HState
  duty : Option Console
  deriving DecidableEq, Repr

/-- The console message in transmission is the head of the queue: how many of its two frames have
started and the start E of the latest. -/
structure ConsoleTx where
  frames : Nat
  start : Nat
  deriving DecidableEq, Repr

/-- The running timer of the handover (R146). -/
inductive HTimer where
  | none
  | window (expiry : Nat)
  | release (expiry : Nat)
  deriving DecidableEq, Repr

/-- The resume item of HELD (R146). -/
inductive Resume where
  | none
  | windowOpen (remaining : Nat)
  | accepted (remaining : Nat)
  | overrun
  | cutUnattended
  | cutAuto
  deriving DecidableEq, Repr

/-- The Handover Controller's state (R137, R140, R143, R145, R146). `gap` says that the next downlink
frame carries all-ones console octets, after a message abandoned at a warm restart (R145). -/
structure Handover where
  schedule : List Nat
  lastReached : Option BoundaryId
  reachMark : Option BoundaryId
  missed : Nat
  levels : Vector Level 4
  grant : Option Grant
  arrived : Option ConsoleMsg
  queue : List DownMsg
  tx : Option ConsoleTx
  gap : Bool
  state : HState
  shiftOpen : Bool
  duty : Option Console
  incoming : Option Console
  overrun : Bool
  timer : HTimer
  resume : Resume
  heldSince : Option Nat
  heldTicks : Nat
  boundary : Option BoundaryId
  deferred : Option BoundaryId
  settleEnd : Option Nat
  deriving DecidableEq, Repr

/-! ### Shift History (chapter 9) -/

/-- The per-unit items of a header set (R159). -/
structure HeaderUnit where
  trips : Nat
  loadTrips : Nat
  firstOut : Option Chan
  openAtStart : Bool
  deriving DecidableEq, Repr

/-- A header set (R159). -/
structure Header where
  start : Stamp
  worst : Quality
  admittedA : Nat
  admittedB : Nat
  lostA : Nat
  lostB : Nat
  cascades : Nat
  units : Vector HeaderUnit 8
  deriving DecidableEq, Repr

/-- The cut noted (R161): the cut E with its stamp, the kind and the HC's hand-over values. -/
structure CutNoted where
  stamp : Stamp
  kind : CloseKind
  outgoing : Option Console
  incoming : Option Console
  boundary : Option BoundaryId
  missed : Nat
  heldTicks : Nat
  deriving DecidableEq, Repr

/-- A unit's part of a shift record (R167). -/
structure ShiftUnit where
  durations : Vector Nat 8
  starts : Nat
  successes : Nat
  failures : Nat
  trips : Nat
  loadTrips : Nat
  firstOut : Option Chan
  openAtStart : Bool
  openAtEnd : Bool
  deriving DecidableEq, Repr

/-- A shift record (R167). -/
structure ShiftRecord where
  number : Nat
  kind : CloseKind
  start : Stamp
  stop : Stamp
  worst : Quality
  boundary : Option BoundaryId
  missed : Nat
  outgoing : Option Console
  incoming : Option Console
  heldTicks : Nat
  admittedA : Nat
  admittedB : Nat
  lostA : Nat
  lostB : Nat
  cascades : Nat
  units : Vector ShiftUnit 8
  deriving DecidableEq, Repr

/-- The Shift History's state (R159). `openingMissed` is the missed count kept at the opening cut for
the first shift's record (R160, R166). -/
structure ShiftHistory where
  ring : List ShiftRecord
  number : Nat
  current : Option Header
  closing : Option Header
  cut : Option CutNoted
  openingMissed : Nat
  deriving DecidableEq, Repr

/-! ### Management Link (chapter 10) -/

/-- The downward management field of the last frame read (R171). `readable` is false for a frame
handed over with an absent sync, whose Echo and Stop are not read (R172). -/
structure MgmtField where
  octet : Octet
  valid : Bool
  turn : Bool
  first : Bool
  last : Bool
  echo : Bool
  stop : Bool
  readable : Bool
  deriving DecidableEq, Repr

/-- Receive state (R171). -/
inductive RxState where
  | idle
  | receiving (taken : Nat)
  | stopping (frames : Nat)
  deriving DecidableEq, Repr

/-- Request buffer (R171). -/
inductive RequestBuffer where
  | empty
  | partialRequest (octets : List Octet)
  | complete (octets : List Octet)
  | executed (octets : List Octet)
  deriving DecidableEq, Repr

/-- Transmit state (R171). -/
inductive TxState where
  | idle
  | sending (index : Nat) (turn : Bool) (shown : Nat)
  | abandoning (frames : Nat)
  deriving DecidableEq, Repr

/-- The twenty parameters of R180, at the value written. For P and Q the value in force is the
Discipline Loop's. -/
structure Params where
  p : Nat
  q : Nat
  stepThreshold : Nat
  jitterLimit : Nat
  qualifyCount : Nat
  bClass : Nat
  driftBound : Nat
  policy : Policy
  revertive : Bool
  revertHoldoff : Nat
  buildOut : Bool
  searchOnAcquire : Bool
  storeDepth : Nat
  chatterWindow : Nat
  cascadeWindow : Nat
  tripHold : Nat
  handoverWindow : Nat
  releaseLimit : Nat
  scheduleMode : SchedMode
  localOffset : Int
  deriving DecidableEq, Repr

/-- The Management Link's state (R171). `executedAt` is the model's own: the E of the last execution of a request, E_x
(R177). -/
structure MgmtLink where
  rx : RxState
  lastTurn : Option Bool
  echoSent : Bool
  previous : Option MgmtField
  request : RequestBuffer
  tx : TxState
  reply : List Octet
  executedAt : Option Nat
  lastEcho : Option Bool
  abandonedReplies : Nat
  params : Params
  deriving DecidableEq, Repr

/-! ### The whole part -/

/-- The state of the part, and the commands that wait, first in first out. `inReset` says that the reset pin holds the
part in reset (R1, R65). -/
structure State where
  inReset : Bool
  tb : Timebase
  rm : RefMonitor
  dl : Loop
  sli : StationLink
  ubi : UnitBus
  up : Elastic
  down : Elastic
  cm : Vector Channel 24
  eq : EventQueue
  ra : Arbiter
  ct : Cascades
  tu : Vector GenUnit 8
  hc : Handover
  sh : ShiftHistory
  ml : MgmtLink
  pending : List Instr
  deriving DecidableEq, Repr

/-- Why a command stops the machine: nothing does. The spec gives every command of the table its
effect, so no meaning faults. -/
inductive Fault where
  deriving DecidableEq, Repr

/-- Why a command is refused. -/
inductive Refusal where
  /-- Raised by the dispatcher for a command without a meaning; no command is left without one.
  Safe: the machine stops where the hardware goes on. -/
  | notModelled (mnemonic : String)
  deriving DecidableEq, Repr

/-! ### Power-on reset values -/

/-- Parameter defaults (R180). -/
def Params.default : Params :=
  { p := 3, q := 8, stepThreshold := 20000, jitterLimit := 2000, qualifyCount := 8, bClass := 3,
    driftBound := 100, policy := .auto, revertive := true, revertHoldoff := 60, buildOut := true,
    searchOnAcquire := false, storeDepth := 8, chatterWindow := 10, cascadeWindow := 200,
    tripHold := 10, handoverWindow := 30, releaseLimit := 5, scheduleMode := .console,
    localOffset := 0 }

/-- A frame of 24 all-ones octets (R61). -/
def onesFrame : Vector Octet 24 := Vector.replicate 24 0xFF#8

/-- The frame sync of the frames that the part sends (11.1). -/
def frameSync : Vector Octet 2 := #v[0x1B#8, 0xA7#8]

/-- The idle fill of an upward frame: octets 32 to 95, all-ones (R186, 11.1). -/
def idleFill : Vector Octet 64 := Vector.replicate 64 0xFF#8

/-- Power-on values of a reference (R21). -/
def RefState.reset : RefState :=
  { qual := .absent, count := 0, lastMarker := none, lastErr := none, prevBad := false,
    fault := .none, holdoffEnd := none, qualifiedSince := none, buildOut := 0 }

/-- Power-on values of an elastic store: recentred to floor(8/2) frames (R61, R62). -/
def Elastic.reset : Elastic :=
  { frames := List.replicate 4 onesFrame, last := onesFrame, slips := 0, recordMade := false }

/-- Power-on values of a channel (R66, R69). -/
def Channel.reset : Channel :=
  { entry := { enabled := false, role := .unused, group := 0, tripSet := 0, latency := 0,
               chatterLimit := 8 },
    presence := .unknown, valid := none, candidate := none, runCount := 0, runStart := none,
    rawLast := none, recent := [], chatter := none, suppressed := 0, store := [], unstable := 0,
    floor := 0 }

/-- A shift set of zeros with the given start (R120, R160). -/
def ShiftSet.zero (start : Option Nat) : ShiftSet :=
  { start := start, durations := Vector.replicate 8 0, starts := 0, successes := 0, failures := 0 }

/-- Power-on values of a unit (R119, R120). -/
def GenUnit.reset : GenUnit :=
  { enabled := false, modeMap := Vector.replicate 16 .unknown, timeout := 300, mode := .unknown,
    entry := 0, history := [(.unknown, 0)], buckets := Vector.replicate 8 0, base := 0,
    baseStamp := 0, starts := 0, successes := 0, failures := 0, trips := 0, loadTrips := 0,
    attempt := none, cur := ShiftSet.zero none, next := none }

/-- Power-on values of the handover items (R137, R140, R143, R145, R146). -/
def Handover.reset : Handover :=
  { schedule := [], lastReached := none, reachMark := none, missed := 0,
    levels := Vector.replicate 4 .normal, grant := none, arrived := none, queue := [], tx := none,
    gap := false, state := .noDuty, shiftOpen := false, duty := none, incoming := none,
    overrun := false, timer := .none, resume := .none, heldSince := none, heldTicks := 0,
    boundary := none, deferred := none, settleEnd := none }

/-- The machine right after power-on reset: every item at its Power-on value (R185), at the first tick,
whose E is 0 (R3), out of reset, with no command waiting. -/
def State.reset : State :=
  { inReset := false,
    tb := { e := 0, delta := 0, unset := true, stepCount := 0, trim := 0, pendingTrim := 0,
            pendingStep := none, pendingSetting := none, u := 4000000000, quality := 7,
            fraction := 0, lastBoundary := none },
    rm := { a := RefState.reset, b := RefState.reset, assembly := [], message := none, aClass := 7,
            w := 0, agree := 0 },
    dl := { mode := .freeRun, active := none, integral := 0, everLocked := false, history := [],
            confirmed := none, search := none, p := 3, q := 8, before := none },
    sli := { alignment := .lof, hunt := .searching, expected := none, searchFrom := 0, missing := 0,
             syncErrors := 0, upTiming := .elapsed, upDue := none, up := none },
    ubi := { frame := none, lastLook := none, distribution := [] },
    up := Elastic.reset,
    down := Elastic.reset,
    cm := Vector.replicate 24 Channel.reset,
    eq := { records := [], seq := 0, lostA := 0, lostB := 0, lossPending := false },
    ra := { levelA := .normal, levelB := .normal, idle := 0, lastSender := none, sending := none,
            abandoned := 0 },
    ct := { slots := Vector.replicate 9 none, holdEnd := none, incident := false },
    tu := Vector.replicate 8 GenUnit.reset,
    hc := Handover.reset,
    sh := { ring := [], number := 1, current := none, closing := none, cut := none,
            openingMissed := 0 },
    ml := { rx := .idle, lastTurn := none, echoSent := false, previous := none, request := .empty,
            tx := .idle, reply := [], executedAt := none, lastEcho := none, abandonedReplies := 0,
            params := Params.default },
    pending := [] }

end Sys2Proof.Machine
end

