-- ==== Sys2Proof/Machine/Ops.lean ====
section
/-! DEFINITION. Operations shared by the blocks: arithmetic on counters and phases, station time and
stamps, the numbers of the enumerations, and the making and offering of event records. -/

namespace Sys2Proof.Machine

/-! ### Numbers -/

/-- A saturating counter raised by `k` (00_scope, "Counters"). -/
def satAdd (top n k : Nat) : Nat := min (n + k) top

/-- The top of a saturating 16-bit counter. -/
abbrev top16 : Nat := 65535

/-- The top of a saturating 32-bit counter. -/
abbrev top32 : Nat := 4294967295

/-- A whole number brought to the nearest limit of a range (R179). -/
def clampInt (lo hi x : Int) : Int := max lo (min hi x)

/-- A difference of two phase values, reduced modulo 1,000,000,000 into −500,000,000..+499,999,999
(R23). -/
def wrapPhase (x : Int) : Int := (x + 500000000) % 1000000000 - 500000000

/-- The phase in whole ticks, rounded half away from zero (R38). -/
def roundTicks (err : Int) : Int :=
  if 0 ≤ err then (2 * err + 15625) / 31250 else -((-2 * err + 15625) / 31250)

/-- Position `i` of a vector changed by `f`. -/
def modifyAt {α : Type} {n : Nat} (v : Vector α n) (i : Fin n) (f : α → α) : Vector α n :=
  v.set i.val (f v[i]) i.isLt

/-- All channels, lowest first. -/
def allChannels : List Chan :=
  [0, 1, 2, 3, 4, 5, 6, 7, 8, 9, 10, 11, 12, 13, 14, 15, 16, 17, 18, 19, 20, 21, 22, 23]

/-- All units, lowest first. -/
def allUnits : List UnitNo := [0, 1, 2, 3, 4, 5, 6, 7]

/-- All groups, lowest first. -/
def allGroups : List Group := [0, 1, 2, 3, 4, 5, 6, 7, 8]

/-- All consoles, lowest address first. -/
def allConsoles : List Console := [0, 1, 2, 3]

/-- The unit that a group names: none for station group 8. -/
def groupUnit (g : Group) : Option UnitNo :=
  if h : g.val < 8 then some ⟨g.val, h⟩ else none

/-- The group of a unit. -/
def groupOf (u : UnitNo) : Group := ⟨u.val, by omega⟩

/-! ### Station time and stamps (R7, R8, R16) -/

/-- Station time restarts at 0 after 2^40 seconds (R7). -/
abbrev secondsTop : Nat := 1099511627776

/-- The top value of station time, in ticks (R7). -/
abbrev stationTop : Int := 70368744177663999

/-- The station seconds of the number E + Δ: by floor division, and 0 for a stamp before station second 0, the nearest
value that the field carries (R7, R8, R187). -/
def stationSeconds (x : Int) : Nat := (x / 64000).toNat % secondsTop

/-- The tick of second of the number E + Δ (R7). -/
def tickOfSecond (x : Int) : Nat := (x % 64000).toNat

/-- The number E + Δ. -/
def Timebase.station (t : Timebase) : Int := (t.e : Int) + t.delta

/-- The station-time values in force (R69). -/
def Timebase.vals (t : Timebase) : StationVals :=
  { delta := t.delta, unset := t.unset, stepCount := t.stepCount, quality := t.quality }

/-- The station stamp of an elapsed stamp under given station-time values (R8, R16). -/
def stampOf (v : StationVals) (elapsed : Nat) : Stamp :=
  if v.unset then
    { elapsed := elapsed, seconds := 0, tick := elapsed % 64000, stepCount := v.stepCount, quality := 7 }
  else
    { elapsed := elapsed, seconds := stationSeconds ((elapsed : Int) + v.delta),
      tick := tickOfSecond ((elapsed : Int) + v.delta), stepCount := v.stepCount,
      quality := v.quality }

/-- The stamp of an event at the current tick. -/
def Timebase.now (t : Timebase) : Stamp := stampOf t.vals t.e

/-- Station seconds as reported: 0 while time is unset (R7, R16). -/
def Timebase.reportedSeconds (t : Timebase) : Nat :=
  if t.unset then 0 else stationSeconds t.station

/-- Tick of second as reported (R7, R16). -/
def Timebase.reportedTick (t : Timebase) : Nat :=
  if t.unset then t.e % 64000 else tickOfSecond t.station

/-! ### Numbers of the enumerations (11.6) -/

/-- Timebase mode. -/
def tbModeCode : TbMode → Nat
  | .freeRun => 0 | .acquiring => 1 | .locked => 2 | .holdover => 3

/-- Reference, or NONE. -/
def refCode : Option Ref → Nat
  | none => 0 | some .a => 1 | some .b => 2

/-- Qualification state. -/
def qualCode : Qual → Nat
  | .absent => 0 | .qualifying => 1 | .qualified => 2 | .faulted => 3

/-- Fault reason. -/
def faultCode : FaultReason → Nat
  | .none => 0 | .missing => 1 | .jitter => 2 | .message => 3 | .link => 4

/-- TIMEBASE cause. -/
def tbCauseCode : TbCause → Nat
  | .qualified => 0 | .fault => 1 | .policy => 2 | .revert => 3 | .lock => 4 | .searchDone => 5
  | .searchAborted => 6

/-- The place of an operating mode in the mode order. -/
def modeIdx : UnitMode → Fin 8
  | .standstill => 0 | .starting => 1 | .spin => 2 | .generating => 3 | .pumping => 4
  | .condenser => 5 | .stopping => 6 | .unknown => 7

/-- The operating mode of a number, if it names one. -/
def modeOfNat : Nat → Option UnitMode
  | 0 => some .standstill | 1 => some .starting | 2 => some .spin | 3 => some .generating
  | 4 => some .pumping | 5 => some .condenser | 6 => some .stopping | 7 => some .unknown
  | _ => none

/-- START_FAIL reason. -/
def failCode : FailReason → Nat
  | .timeout => 0 | .standstill => 1 | .cascade => 2 | .source => 3

/-- Store. -/
def storeCode : StoreName → Nat
  | .up => 0 | .down => 1

/-- Slip type. -/
def slipCode : SlipType → Nat
  | .dropped => 0 | .repeated => 1

/-- Role. -/
def roleCode : Role → Nat
  | .unused => 0 | .status => 1 | .alarm => 2 | .trip => 3 | .mode => 4

/-- The role of a number, if it names one. -/
def roleOfNat : Nat → Option Role
  | 0 => some .unused | 1 => some .status | 2 => some .alarm | 3 => some .trip | 4 => some .mode
  | _ => none

/-- Presence. -/
def presenceCode : Presence → Nat
  | .unknown => 0 | .present => 1 | .absent => 2

/-- Alignment state. -/
def alignmentCode : Alignment → Nat
  | .lof => 0 | .inFrame => 1

/-- Handover state. -/
def hStateCode : HState → Nat
  | .noDuty => 0 | .onShift => 1 | .windowOpen => 2 | .accepted => 3 | .held => 4 | .overrun => 5
  | .settling => 6

/-- HANDOVER cause. -/
def hCauseCode : HCause → Nat
  | .claim => 0 | .boundary => 1 | .incidentBegin => 2 | .accept => 3 | .windowExpiry => 4
  | .incidentEnd => 5 | .release => 6 | .releaseExpiry => 7 | .settled => 8 | .mode => 9
  | .schedule => 10

/-- Close kind. -/
def closeCode : CloseKind → Nat
  | .normal => 0 | .late => 1 | .forced => 2 | .auto => 3 | .unattended => 4

/-- Refusal reason. -/
def refuseCode : Refuse → Nat
  | .dutyTaken => 1 | .notDuty => 2 | .sameConsole => 3 | .noWindow => 4 | .alreadyAccepted => 5
  | .incident => 6 | .busy => 7 | .autoMode => 8

/-- Resume item. -/
def resumeCode : Resume → Nat
  | .none => 0 | .windowOpen _ => 2 | .accepted _ => 3 | .overrun => 5 | .cutUnattended => 8
  | .cutAuto => 9

/-- Kind of a console message (11.4). -/
def consoleKindCode : ConsoleKind → Nat
  | .dutyClaim => 1 | .accept => 2 | .release => 3 | .query => 4

/-- Reference policy. -/
def policyCode : Policy → Nat
  | .auto => 0 | .forceA => 1 | .forceB => 2 | .forceHoldover => 3

/-- Schedule mode. -/
def schedModeCode : SchedMode → Nat
  | .console => 0 | .auto => 1

/-- A flag. -/
def boolCode : Bool → Nat
  | false => 0 | true => 1

/-- A console address, or 0 for none. -/
def consoleCode : Option Console → Nat
  | none => 0 | some c => c.val + 1

/-- A code of a channel, or none (R187). -/
def codeOrNone : Option Code → Nat
  | none => 255 | some c => c.val

/-- Kind of an event record (11.3). -/
def recKindCode : RecKind → Nat
  | .state => 0 | .mode => 1 | .chatterOn => 2 | .chatterOff => 3 | .channelLost => 4
  | .channelFound => 5 | .cascade => 6 | .startFail => 7 | .refState => 8 | .timebase => 9
  | .timeStep => 10 | .timeSet => 11 | .quality => 12 | .slip => 13 | .handover => 14
  | .shiftClosed => 15

/-- The six channel kinds (R85, R91). -/
def isChannelKind : RecKind → Bool
  | .state | .mode | .chatterOn | .chatterOff | .channelLost | .channelFound => true
  | .cascade | .startFail | .refState | .timebase | .timeStep | .timeSet | .quality | .slip
  | .handover | .shiftClosed => false

/-! ### What the Shift History counts (R165) -/

/-- A report to the current header set; discarded while it is absent. -/
def State.countCurrent (f : Header → Header) (s : State) : State :=
  { s with sh := { s.sh with current := s.sh.current.map f } }

/-- An admission of a class. -/
def Header.countAdmission (c : RecClass) (h : Header) : Header :=
  match c with
  | .a => { h with admittedA := satAdd top32 h.admittedA 1 }
  | .b => { h with admittedB := satAdd top32 h.admittedB 1 }

/-- `n` losses of a class. -/
def Header.countLoss (c : RecClass) (n : Nat) (h : Header) : Header :=
  match c with
  | .a => { h with lostA := satAdd top32 h.lostA n }
  | .b => { h with lostB := satAdd top32 h.lostB n }

/-! ### Offering records to the Event Queue (R92 to R95) -/

/-- Whether the EQ takes a record of a class at its present fill (R92). -/
def EventQueue.takes (q : EventQueue) : RecClass → Bool
  | .a => q.records.length < 512
  | .b => q.records.length < 480

/-- The record as it stands in the EQ: Seq and the Overflow-before flag filled in (R93). -/
def EventQueue.sealRecord (q : EventQueue) (r : EventRecord) : EventRecord :=
  { r with seq := q.seq, overflowBefore := q.lossPending }

/-- Admission (R93). -/
def State.enqueue (r : EventRecord) (s : State) : State :=
  State.countCurrent (Header.countAdmission r.cls)
    { s with eq := { s.eq with records := s.eq.records ++ [s.eq.sealRecord r],
                               seq := (s.eq.seq + 1) % 65536, lossPending := false } }

/-- `n` records of a class lost (R94, R83, R95). -/
def State.lose (c : RecClass) (n : Nat) (s : State) : State :=
  State.countCurrent (Header.countLoss c n)
    { s with eq := match c with
      | .a => { s.eq with lostA := satAdd top16 s.eq.lostA n, lossPending := true }
      | .b => { s.eq with lostB := satAdd top16 s.eq.lostB n, lossPending := true } }

/-- A non-channel record is admitted, or dropped and counted (R92, R94). -/
def State.offer (r : EventRecord) (s : State) : State :=
  if s.eq.takes r.cls then s.enqueue r else s.lose r.cls 1

/-- A record as its block makes it: Seq and Overflow-before are the EQ's to fill (R90). -/
def mkRecord (kind : RecKind) (cls : RecClass) (source old new : Nat) (aux : Int) (st : Stamp) :
    EventRecord :=
  { kind := kind, cls := cls, initial := false, overflowBefore := false, source := source, old := old,
    new := new, stamp := st, seq := 0, aux := aux, collapsed := 0 }

/-- An amount in ticks as Aux can hold it (R13, R187). -/
def auxAmount (k : Int) : Int := clampInt (-32768) 32767 k

/-! ### Mode sources (R68) -/

/-- A channel that meets the three conditions for being unit `u`'s mode source. -/
def ChannelEntry.claims (e : ChannelEntry) (u : UnitNo) : Bool :=
  e.enabled && e.role == .mode && e.group == groupOf u

/-- The mode source of a unit: the lowest-numbered claimant (R68). -/
def modeSource (cm : Vector Channel 24) (u : UnitNo) : Option Chan :=
  allChannels.find? fun ch => cm[ch].entry.claims u

/-- The unit whose mode source the channel is, if any. -/
def sourceUnit (cm : Vector Channel 24) (ch : Chan) : Option UnitNo :=
  match groupUnit cm[ch].entry.group with
  | none => none
  | some u => if modeSource cm u = some ch then some u else none

/-- A channel that meets the conditions and is not the source is shadowed (R68). -/
def shadowed (cm : Vector Channel 24) (ch : Chan) : Bool :=
  cm[ch].entry.enabled && cm[ch].entry.role == .mode && (sourceUnit cm ch).isNone

/-- A channel is monitored when enabled with a role (R67). -/
def ChannelEntry.monitored (e : ChannelEntry) : Bool := e.enabled && e.role != .unused

/-- One channel changed. -/
def State.onChannel (ch : Chan) (f : Channel → Channel) (s : State) : State :=
  { s with cm := modifyAt s.cm ch f }

/-- One unit changed. -/
def State.onUnit (u : UnitNo) (f : GenUnit → GenUnit) (s : State) : State :=
  { s with tu := modifyAt s.tu u f }

end Sys2Proof.Machine
end

