-- ==== Sys2Proof/Machine/Flags.lean ====
section
/-! DEFINITION. The values the part computes for its flags, classes and check octets: the quality
class (R19), the QUALITY record, the upward status octet (R57), the check octet (R186) and the flag
octets of the frames (11.1, 11.5). -/

namespace Sys2Proof.Machine

/-- The class of an uncertainty (R19). -/
def qualityOf (unset : Bool) (u : Nat) : Quality :=
  if unset then 7
  else if u ≤ 1000 then 0
  else if u ≤ 10000 then 1
  else if u ≤ 100000 then 2
  else if u ≤ 1000000 then 3
  else if u ≤ 10000000 then 4
  else if u ≤ 100000000 then 5
  else 6

/-- The class that an evaluation gives now (R19). -/
def Timebase.classNow (t : Timebase) : Quality := qualityOf t.unset t.u

/-- The evaluated class takes effect at this tick, and the SH takes the worse class (R19, R165). -/
def State.takeClass (s : State) : State :=
  if s.tb.classNow = s.tb.quality then s
  else
    State.countCurrent (fun h => { h with worst := max h.worst s.tb.classNow })
      { s with tb := { s.tb with quality := s.tb.classNow } }

/-- The QUALITY record of a change of class from `old` (R19). -/
def State.reportClass (old : Quality) (s : State) : State :=
  if s.tb.quality = old then s
  else s.offer (mkRecord .quality .a 0 old.val s.tb.quality.val 0 s.tb.now)

/-- An octet of a number, modulo 256. -/
def octetOf (n : Nat) : Octet := BitVec.ofNat 8 n

/-- A flag at a bit position of an octet. -/
def bitAt (n : Nat) (b : Bool) : Nat := if b then 2 ^ n else 0

/-- The check octet: the sum modulo 256 of the octets before it (R186). -/
def checkOctet (l : List Octet) : Octet := octetOf ((l.map BitVec.toNat).sum)

/-- The status octet of an upward frame (R57, 11.1). -/
def statusOctet (quality : Quality) (mode : TbMode) (upstreamFault queueHigh : Bool) : Octet :=
  octetOf (quality.val * 32 + tbModeCode mode * 8 + bitAt 2 upstreamFault + bitAt 1 queueHigh)

/-- The status octet under the class, the mode and the EQ fill in force, for a frame whose start found LOF or not (R57). -/
def State.statusNow (upstreamFault : Bool) (s : State) : Octet :=
  statusOctet s.tb.quality s.dl.mode upstreamFault (480 ≤ s.eq.records.length)

/-- An upward frame that started at this tick with its status octet brought to the values in force, which R57 includes
whatever the order of the tick's events; its upstream-fault flag stays that of its start. Any other frame stays. -/
def State.bringStatus (s : State) (u : UpInProgress) : UpInProgress :=
  if u.start = s.tb.e then { u with frame := { u.frame with status := s.statusNow (u.frame.status.getLsbD 2) } } else u

/-- The upward management control octet (11.5). -/
def controlOctet (valid turn first last echo stop : Bool) : Octet :=
  octetOf (bitAt 7 valid + bitAt 6 (valid && turn) + bitAt 5 (valid && first) + bitAt 4 (valid && last)
    + bitAt 3 echo + bitAt 2 stop)

end Sys2Proof.Machine
end

