-- ==== Sys2Proof/Machine/Operands.lean ====
section
/-! DEFINITION. Operand forms: reading the fields of received frames, messages and requests, and
writing numbers, records and messages as octets (chapter 11). -/

namespace Sys2Proof.Machine

/-! ### Numbers in octets, most significant first (chapter 11) -/

/-- The number that octets spell. -/
def natOf (l : List Octet) : Nat := l.foldl (fun n o => n * 256 + o.toNat) 0

/-- The unsigned number of `n` octets from octet `i`. -/
def fieldAt (l : List Octet) (i n : Nat) : Nat := natOf ((l.drop i).take n)

/-- The signed 32-bit number of the four octets from octet `i` (R187). -/
def signedAt (l : List Octet) (i : Nat) : Int :=
  let n := fieldAt l i 4
  if n < 2147483648 then (n : Int) else (n : Int) - 4294967296

/-- `n` modulo 256^k in `k` octets. -/
def wordOctets : Nat → Nat → List Octet
  | 0, _ => []
  | k + 1, n => octetOf (n / 256 ^ k) :: wordOctets k n

/-- An unsigned number in `k` octets, at the nearest value that they carry (R187). -/
def natOctets (k n : Nat) : List Octet := wordOctets k (min n (256 ^ k - 1))

/-- A signed number in two's complement of `k` octets, at the nearest value that they carry (R187). -/
def intOctets (k : Nat) (x : Int) : List Octet :=
  let half : Int := (256 ^ k / 2 : Nat)
  wordOctets k ((clampInt (-half) (half - 1) x) % (256 ^ k : Nat)).toNat

/-! ### The downward station-link frame (11.1, 11.5) -/

/-- Bit 7 of octet 2: the second-marker flag (R186). -/
def markerFlag (f : DownFrame) : Bool := f.flags.toNat.testBit 7

/-- The management field as read from a delivered frame (R172, 11.5). -/
def mgmtFieldOf (f : DownFrame) : MgmtField :=
  let c := f.control.toNat
  { octet := f.mgmt, valid := c.testBit 7, turn := c.testBit 6, first := c.testBit 5,
    last := c.testBit 4, echo := c.testBit 3, stop := c.testBit 2, readable := true }

/-- The field of a frame handed over with an absent sync: Valid inactive, and neither Echo nor Stop is
read (R53, R172). -/
def brokenField : MgmtField :=
  { octet := 0xFF#8, valid := false, turn := false, first := false, last := false, echo := false,
    stop := false, readable := false }

/-- Two consecutive frames show the same octet with the same four flags, Valid set (R172). -/
def sameOctet (p f : MgmtField) : Bool :=
  p.valid && f.valid && p.octet == f.octet && p.turn == f.turn && p.first == f.first
    && p.last == f.last

/-- Two consecutive frames show the same Echo (R172). -/
def sameEcho (p f : MgmtField) : Bool := p.readable && f.readable && p.echo == f.echo

/-- Two consecutive frames show Stop (R172). -/
def bothStop (p f : MgmtField) : Bool := p.readable && f.readable && p.stop && f.stop

/-! ### The uplink (11.1, 11.4) -/

/-- Code of a status octet: bits 7–4. -/
def codeOf (o : Octet) : Code := ⟨o.toNat / 16, by have := o.isLt; omega⟩

/-- Age of a status octet: bits 3–0. -/
def ageOf (o : Octet) : Nat := o.toNat % 16

/-- The no-device pattern, Code 15 with Age 15 (R59, R70). -/
def noDevice (o : Octet) : Bool := o == 0xFF#8

/-- The request flag of a console: low-active, bit c − 1 of octet 72 (11.1). -/
def requestedBy (u : Uplink) (c : Console) : Bool := !u.requests.toNat.testBit c.val

/-- The kind of a console message from its octet 0 (11.4). -/
def consoleKindOf (o : Octet) : Option ConsoleKind :=
  match o.toNat with
  | 1 => some .dutyClaim | 2 => some .accept | 3 => some .release | 4 => some .query
  | _ => none

/-- The message of a console, from its four octets, when it is well formed (R144, R186). -/
def consoleMessage (c : Console) (o0 o1 o2 o3 : Octet) (arrival : Nat) : Option ConsoleMsg :=
  match consoleKindOf o0 with
  | none => none
  | some k =>
    if o1.toNat = c.val + 1 ∧ o3 = checkOctet [o0, o1, o2] then
      some { kind := k, console := c, tag := o2, arrival := arrival }
    else none

/-! ### Time messages (R25, 11.2) -/

/-- The start octet of A's time message. -/
def startOctet : Octet := 0xC5#8

/-- A's time message from its eight octets. -/
def timeMessageOf (l : List Octet) : TimeMessage :=
  { seconds := fieldAt l 1 5, cls := fieldAt l 6 1 % 8,
    correct := decide (fieldAt l 7 1 = (checkOctet (l.take 7)).toNat) }

/-! ### Records and console messages as octets (11.3, 11.4) -/

/-- The 16 octets of an event record (11.3). -/
def EventRecord.octets (r : EventRecord) : List Octet :=
  let clsBit := match r.cls with | .a => false | .b => true
  [octetOf (recKindCode r.kind * 16 + bitAt 3 clsBit + bitAt 2 r.initial + bitAt 1 r.overflowBefore),
   octetOf (r.stamp.quality.val * 32 + r.source % 32), octetOf r.old, octetOf r.new]
    ++ natOctets 5 r.stamp.seconds ++ natOctets 2 r.stamp.tick ++ natOctets 1 r.stamp.stepCount
    ++ natOctets 2 r.seq ++ wordOctets 2 (r.aux % 65536).toNat

/-- The four octets of a console downlink message (11.4). -/
def DownMsg.octets (m : DownMsg) : List Octet :=
  let kindNo := match m.kind with | .confirm => 1 | .refuse _ => 2 | .notice => 3
  let reason := match m.kind with | .confirm => 0 | .refuse r => refuseCode r | .notice => 0
  let (address, answered, tag) := match m.answered with
    | some (c, k, t) => (c.val + 1, consoleKindCode k, t)
    | none => (0, 0, 0#8)
  [octetOf (kindNo * 64 + address * 8 + answered), tag, octetOf (reason * 16 + consoleCode m.duty),
   octetOf (hStateCode m.state)]

/-! ### Management requests (11.5) -/

/-- Result of a reply (11.5). -/
inductive Result where
  | ok | unknownRequest | badLength | badIndex | refusedState | busy
  deriving DecidableEq, Repr

/-- The result octet. -/
def resultCode : Result → Nat
  | .ok => 0 | .unknownRequest => 1 | .badLength => 2 | .badIndex => 3 | .refusedState => 4
  | .busy => 5

/-- The kind octets that name a request kind (11.5). -/
def requestKinds : List Nat :=
  [0x01, 0x02, 0x03, 0x10, 0x11, 0x20, 0x21, 0x22, 0x30, 0x31, 0x32, 0x40, 0x41, 0x42, 0x50, 0x60]

/-- The kind octet of a request. -/
def kindOf (req : List Octet) : Nat := fieldAt req 0 1

/-- A WRITE_PARAM request that a WRITE command for parameter `n` executes: one that names `n`, or one
that names no parameter at all, which every such command answers alike (log entry 24). -/
def namesParam (n : Nat) (req : List Octet) : Bool :=
  kindOf req == 0x10 && (req.length < 2 || fieldAt req 1 1 == n || 19 < fieldAt req 1 1)

/-- A TRIM_SEARCH request that the command for `action` executes: one with that action, or one with
neither action (log entry 24). -/
def namesSearch (action : Nat) (req : List Octet) : Bool :=
  kindOf req == 0x50
    && (req.length < 2 || fieldAt req 1 1 == action || (fieldAt req 1 1 != 1 && fieldAt req 1 1 != 2))

/-- The channels that a channel set names: bit n for channel n (11.5). -/
def channelsOf (set : Nat) : List Chan := allChannels.filter fun ch => set.testBit ch.val

/-- A channel set that R84 takes: not empty, and no channel above 23. -/
def channelSetOk (set : Nat) : Bool := set != 0 && set < 16777216

/-- An Enabled value, if it is no or yes. -/
def flagOfNat : Nat → Option Bool
  | 0 => some false | 1 => some true | _ => none

/-- The channel entry of a WRITE_CHANNEL request, its eight octets from octet `i`, with latency and
chatter limit clamped; none where R84 refuses it (R84, R179). -/
def entryOf (l : List Octet) (i : Nat) : Option ChannelEntry :=
  match flagOfNat (fieldAt l i 1), roleOfNat (fieldAt l (i + 1) 1) with
  | some en, some role =>
    if h : fieldAt l (i + 2) 1 < 9 then
      if role = .mode ∧ fieldAt l (i + 2) 1 = 8 then none
      else some { enabled := en, role := role, group := ⟨fieldAt l (i + 2) 1, h⟩,
                  tripSet := BitVec.ofNat 16 (fieldAt l (i + 3) 2),
                  latency := min (fieldAt l (i + 5) 2) 255,
                  chatterLimit := max 2 (min (fieldAt l (i + 7) 1) 15) }
    else none
  | _, _ => none

/-- The octets of a channel entry (11.5). -/
def ChannelEntry.octets (e : ChannelEntry) : List Octet :=
  natOctets 1 (boolCode e.enabled) ++ natOctets 1 (roleCode e.role) ++ natOctets 1 e.group.val
    ++ natOctets 2 e.tripSet.toNat ++ natOctets 2 e.latency ++ natOctets 1 e.chatterLimit

/-- The mode map of a WRITE_UNIT request, its 16 octets from octet `i`; none where an entry names no
mode (R119). -/
def modeMapOf (l : List Octet) (i : Nat) : Option (Vector UnitMode 16) :=
  if (List.range 16).all fun k => (modeOfNat (fieldAt l (i + k) 1)).isSome then
    some (Vector.ofFn fun k => (modeOfNat (fieldAt l (i + k.val) 1)).getD .unknown)
  else none

/-- The unit that a number names. -/
def unitOfNat (n : Nat) : Option UnitNo := if h : n < 8 then some ⟨n, h⟩ else none

/-- The channel that a number names. -/
def chanOfNat (n : Nat) : Option Chan := if h : n < 24 then some ⟨n, h⟩ else none

/-- The minutes of a WRITE_SCHEDULE request, two octets each after the kind octet. -/
def minutesOf (l : List Octet) : List Nat :=
  (List.range ((l.length - 1) / 2)).map fun k => fieldAt l (1 + 2 * k) 2

/-- The minutes rise strictly. -/
def rising : List Nat → Bool
  | a :: b :: r => a < b && rising (b :: r)
  | _ => true

/-- Lists of minutes that R138 takes for structure. -/
def minutesOk (l : List Nat) : Bool := l.all (· ≤ 1439) && rising l

end Sys2Proof.Machine
end

