-- ==== Sys2Proof/Machine/Tally.lean ====
section
/-! DEFINITION. The Tally Unit (chapter 7): deriving a unit's mode, crediting it, the start attempt and
its counts, and the command START_TIMEOUT. -/

namespace Sys2Proof.Machine

/-- GENERATING, PUMPING and CONDENSER are the load modes (R119). -/
def isLoad : UnitMode → Bool
  | .generating | .pumping | .condenser => true
  | .standstill | .starting | .spin | .stopping | .unknown => false

/-- The mode that a unit's table entry and a given mode source derive (R121). -/
def modeUnder (x : GenUnit) (cm : Vector Channel 24) (source : Option Chan) : UnitMode :=
  if x.enabled then
    match source with
    | none => .unknown
    | some ch =>
      match cm[ch].presence, cm[ch].valid with
      | .present, some c => x.modeMap[c]
      | _, _ => .unknown
  else .unknown

/-- The derived mode of a unit (R121). -/
def derivedMode (s : State) (u : UnitNo) : UnitMode :=
  modeUnder s.tu[u] s.cm (modeSource s.cm u)

/-! ### Credits (R122, R160, R162) -/

/-- Time added to one mode's duration of a shift set. -/
def ShiftSet.credit (m : UnitMode) (n : Nat) (d : ShiftSet) : ShiftSet :=
  { d with durations := modifyAt d.durations (modeIdx m) (· + n) }

/-- The shift share of the interval from the entry stamp to `b`: nothing while no shift is open, the
part at or after the set's start otherwise, divided at the start of the next set while there is one
(R160, R162). -/
def GenUnit.creditShift (b : Nat) (x : GenUnit) : GenUnit :=
  match x.cur.start with
  | none => x
  | some start =>
    let a := max x.entry start
    match x.next with
    | none => { x with cur := x.cur.credit x.mode (b - a) }
    | some n =>
      let cut := n.start.getD start
      { x with cur := x.cur.credit x.mode (min b cut - a),
               next := some (n.credit x.mode (b - max a cut)) }

/-- A change of mode with stamp `b`: steps 1 to 4 of R122. -/
def GenUnit.enter (m : UnitMode) (b : Nat) (x : GenUnit) : GenUnit :=
  let y := x.creditShift b
  { y with buckets := modifyAt x.buckets (modeIdx x.mode) (· + (b - x.entry)), mode := m, entry := b,
           history := (m, b) :: x.history.take 3 }

/-! ### Start counts (R126, R163) -/

/-- Which start count. -/
inductive StartCount where
  | opened | succeeded | failed
  deriving DecidableEq, Repr

/-- A start count of a shift set raised. -/
def ShiftSet.count (k : StartCount) (d : ShiftSet) : ShiftSet :=
  match k with
  | .opened => { d with starts := d.starts + 1 }
  | .succeeded => { d with successes := d.successes + 1 }
  | .failed => { d with failures := d.failures + 1 }

/-- The shift set that a count with the given stamp goes to raised: the next set at or after its start,
the current set otherwise, none while no shift is open (R160, R163). -/
def GenUnit.countShift (k : StartCount) (stamp : Nat) (x : GenUnit) : GenUnit :=
  match x.cur.start, x.next with
  | none, _ => x
  | some _, none => { x with cur := x.cur.count k }
  | some _, some n =>
    if stamp < n.start.getD 0 then { x with cur := x.cur.count k }
    else { x with next := some (n.count k) }

/-- A start count raised in the unit's counters, wrapping, and in the shift set (R126). -/
def GenUnit.count (k : StartCount) (stamp : Nat) (x : GenUnit) : GenUnit :=
  let y := x.countShift k stamp
  match k with
  | .opened => { y with starts := (x.starts + 1) % 4294967296 }
  | .succeeded => { y with successes := (x.successes + 1) % 4294967296 }
  | .failed => { y with failures := (x.failures + 1) % 4294967296 }

/-- The attempt opens at stamp `st` (R129). -/
def GenUnit.openAttempt (st : Nat) (x : GenUnit) : GenUnit :=
  { x.count .opened st with attempt := some { start := st, expiry := st + x.timeout * 64000 } }

/-- The attempt closes as successful (R130). -/
def GenUnit.succeed (st : Nat) (x : GenUnit) : GenUnit :=
  { x.count .succeeded st with attempt := none }

/-- The attempt closes as failed (R131). -/
def GenUnit.fail (st : Nat) (x : GenUnit) : GenUnit :=
  { x.count .failed st with attempt := none }

/-- The START_FAIL record (R131). -/
def startFailRecord (u : UnitNo) (reason : FailReason) (old new : UnitMode) (st : Stamp) : EventRecord :=
  mkRecord .startFail .a u.val (modeIdx old).val (modeIdx new).val (failCode reason) st

/-- An open attempt of unit `u` closes as failed, with its record; nothing without one (R131). -/
def State.failAttempt (u : UnitNo) (reason : FailReason) (old new : UnitMode) (st : Stamp)
    (s : State) : State :=
  match s.tu[u].attempt with
  | none => s
  | some _ =>
    (s.onUnit u (GenUnit.fail st.elapsed)).offer (startFailRecord u reason old new st)

/-! ### Changes of mode -/

/-- What a validated change does to the start attempt, with `st` the raised stamp (R129 to R131). -/
def State.settleAttempt (u : UnitNo) (old new : UnitMode) (st : Nat) (v : StationVals) (s : State) :
    State :=
  match s.tu[u].attempt with
  | some _ =>
    if isLoad new then s.onUnit u (GenUnit.succeed st)
    else if new = .standstill then s.failAttempt u .standstill old new (stampOf v st)
    else if new = .unknown then s.failAttempt u .source old new (stampOf v st)
    else s
  | none =>
    if old = .standstill ∧ new ≠ .standstill ∧ new ≠ .unknown then
      let t := s.onUnit u (GenUnit.openAttempt st)
      if isLoad new then t.onUnit u (GenUnit.succeed st) else t
    else s

/-- A validated change of unit `u`'s mode source with elapsed stamp `stamp` (R121, R122). -/
def State.sourceChange (u : UnitNo) (stamp : Nat) (v : StationVals) (s : State) : State :=
  let old := s.tu[u].mode
  let new := derivedMode s u
  if new = old then s
  else
    let st := max stamp s.tu[u].entry
    (s.onUnit u (GenUnit.enter new st)).settleAttempt u old new st v

/-- Any other event that derives mode `new` for unit `u` (R123). -/
def State.eventChange (u : UnitNo) (new : UnitMode) (s : State) : State :=
  let old := s.tu[u].mode
  if new = old then s
  else
    (s.onUnit u (GenUnit.enter new s.tb.e)).failAttempt u .source old new s.tb.now

/-- A unit's mode derived again at an event that is no validated change (R121, R123). -/
def State.rederive (u : UnitNo) (s : State) : State := s.eventChange u (derivedMode s u)

/-- A cascade opens for unit `u`: an open attempt fails with reason CASCADE (R116, R131). -/
def State.cascadeOpened (u : UnitNo) (s : State) : State :=
  s.failAttempt u .cascade s.tu[u].mode s.tu[u].mode s.tb.now

/-- A cascade of unit `u` closes (R114). -/
def GenUnit.countTrip (fromLoad : Bool) (x : GenUnit) : GenUnit :=
  { x with trips := (x.trips + 1) % 4294967296,
           loadTrips := if fromLoad then (x.loadTrips + 1) % 4294967296 else x.loadTrips }

/-- The mode of the newest pair whose stamp is no later than `stamp`; UNKNOWN when none is that old
(R113, R124). -/
def modeAt (history : List (UnitMode × Nat)) (stamp : Nat) : UnitMode :=
  match history.find? fun p => p.2 ≤ stamp with
  | some p => p.1
  | none => .unknown

/-- The buckets as READ_TALLY reports them, with the open interval added (R127). -/
def GenUnit.bucketsAt (e : Nat) (x : GenUnit) : Vector Nat 8 :=
  modifyAt x.buckets (modeIdx x.mode) (· + (e - x.entry))

/-! ### START_TIMEOUT (R131) -/

/-- E has reached the expiry of unit `u`'s open attempt: it fails with reason TIMEOUT, stamped at the
expiry with the station-time values in force. -/
def State.startTimeout (u : UnitNo) (s : State) : State :=
  match s.tu[u].attempt with
  | none => s
  | some a =>
    if a.expiry ≤ s.tb.e then
      s.failAttempt u .timeout s.tu[u].mode s.tu[u].mode (stampOf s.tb.vals a.expiry)
    else s

/-- START_TIMEOUT. -/
def execStartTimeout (u : UnitNo) (s : State) : Host.Outcome State Fault Refusal :=
  .next (s.startTimeout u)

end Sys2Proof.Machine
end

