-- ==== Sys2Proof/Machine/History.lean ====
section
/-! DEFINITION. The Shift History (chapter 9): the opening cut, the cut, the attribution of cascade
closes and the close of a shift. -/

namespace Sys2Proof.Machine

/-- A new header set starting at a stamp (R160, R161); `openAtStart` per unit. -/
def Header.fresh (st : Stamp) (openAtStart : UnitNo → Bool) : Header :=
  { start := st, worst := st.quality, admittedA := 0, admittedB := 0, lostA := 0, lostB := 0,
    cascades := 0,
    units := Vector.ofFn fun u =>
      { trips := 0, loadTrips := 0, firstOut := none, openAtStart := openAtStart u } }

/-- The opening cut at the stamp `st`: the first shift's header set and shift sets begin, and the missed
count is kept (R160). -/
def State.openingCut (st : Stamp) (s : State) : State :=
  { s with
    sh := { s.sh with current := some (Header.fresh st fun u => s.tu[u].attempt.isSome),
                      openingMissed := s.hc.missed }
    tu := Vector.ofFn fun u => { s.tu[u] with cur := ShiftSet.zero (some st.elapsed) } }

/-- The SH notes a cut and begins the next shift's sets (R161). R161 gives no attempt open at start for the new current
header set, which the settle end sets (R166 step 6): until then it is no (DESIGN CHOICE, log entry 51). -/
def State.noteCut (kind : CloseKind) (st : Stamp) (s : State) : State :=
  { s with
    sh := { s.sh with
      cut := some { stamp := st, kind := kind, outgoing := s.hc.duty, incoming := s.hc.incoming,
                    boundary := s.hc.boundary, missed := s.hc.missed, heldTicks := s.hc.heldTicks },
      closing := s.sh.current,
      current := some (Header.fresh st fun _ => false) }
    tu := Vector.ofFn fun u => { s.tu[u] with next := some (ShiftSet.zero (some st.elapsed)) } }

/-- A cascade close counted in a header set (R164). -/
def Header.countCascade (g : Group) (firstOut : Chan) (fromLoad : Bool) (h : Header) : Header :=
  let h := { h with cascades := satAdd top32 h.cascades 1 }
  match groupUnit g with
  | none => h
  | some u =>
    { h with units := modifyAt h.units u fun x =>
        { x with trips := satAdd top32 x.trips 1,
                 loadTrips := if fromLoad then satAdd top32 x.loadTrips 1 else x.loadTrips,
                 firstOut := x.firstOut.or (some firstOut) } }

/-- A cascade close handed over by the CT: to the closing header set when its first-out lies before the
cut of a settling in progress, to the current one otherwise (R164). -/
def State.attributeCascade (g : Group) (firstOut : Chan) (stamp : Nat) (fromLoad : Bool) (s : State) :
    State :=
  match s.sh.cut with
  | some c =>
    if stamp < c.stamp.elapsed then
      { s with sh := { s.sh with closing := s.sh.closing.map (Header.countCascade g firstOut fromLoad) } }
    else s.countCurrent (Header.countCascade g firstOut fromLoad)
  | none => s.countCurrent (Header.countCascade g firstOut fromLoad)

/-! ### The settle end (R166) -/

/-- Step 1 of R166: the open interval up to the cut goes to the current set. -/
def GenUnit.closeInterval (cut : Nat) (x : GenUnit) : GenUnit :=
  match x.cur.start with
  | none => x
  | some start => { x with cur := x.cur.credit x.mode (cut - max x.entry start) }

/-- Step 2 of R166: whether an attempt is open at the end of the shift. -/
def openAtEnd (d : ShiftSet) (openAtStart : Bool) : Bool :=
  d.successes + d.failures < d.starts + boolCode openAtStart

/-- A unit's part of the shift record (R167). -/
def shiftUnitOf (x : GenUnit) (h : HeaderUnit) : ShiftUnit :=
  { durations := x.cur.durations, starts := x.cur.starts, successes := x.cur.successes,
    failures := x.cur.failures, trips := h.trips, loadTrips := h.loadTrips, firstOut := h.firstOut,
    openAtStart := h.openAtStart, openAtEnd := openAtEnd x.cur h.openAtStart }

/-- The shift record, from the noted cut, the closing header set and the units after step 1 (R166,
R167). -/
def shiftRecordOf (number openingMissed : Nat) (c : CutNoted) (h : Header) (tu : Vector GenUnit 8) :
    ShiftRecord :=
  { number := number, kind := c.kind, start := h.start, stop := c.stamp, worst := h.worst,
    boundary := c.boundary, missed := satAdd top16 c.missed openingMissed, outgoing := c.outgoing,
    incoming := c.incoming, heldTicks := c.heldTicks, admittedA := h.admittedA,
    admittedB := h.admittedB, lostA := h.lostA, lostB := h.lostB, cascades := h.cascades,
    units := Vector.ofFn fun u => shiftUnitOf tu[u] h.units[u] }

/-- The SHIFT_CLOSED record, which dates the cut (R169). -/
def shiftClosedRecord (c : CutNoted) : EventRecord :=
  mkRecord .shiftClosed .b 0 (consoleCode c.outgoing) (consoleCode c.incoming) (closeCode c.kind)
    c.stamp

/-- The open shift number after a close: it wraps from 2^32−1 to 1 (R168). -/
def nextShiftNumber (n : Nat) : Nat := if n = top32 then 1 else n + 1

/-- Step 6 of R166: the next set becomes the current set. -/
def GenUnit.promote (cut : Nat) (x : GenUnit) : GenUnit :=
  { x with cur := x.next.getD (ShiftSet.zero (some cut)), next := none }

/-- The settle end in the SH, before the HC leaves SETTLING (R166, R168, R169). -/
def State.closeShift (s : State) : State :=
  match s.sh.cut, s.sh.closing with
  | some c, some h =>
    let tu := Vector.ofFn fun u => s.tu[u].closeInterval c.stamp.elapsed
    let r := shiftRecordOf s.sh.number s.sh.openingMissed c h tu
    let s1 := { s with sh := { s.sh with ring := (r :: s.sh.ring).take 16 } }
    let s2 := s1.offer (shiftClosedRecord c)
    { s2 with
      sh := { s2.sh with
        number := nextShiftNumber s2.sh.number,
        current := s2.sh.current.map fun n =>
          { n with units := Vector.ofFn fun u =>
              { n.units[u] with openAtStart := r.units[u].openAtEnd } },
        closing := none, cut := none, openingMissed := 0 }
      tu := Vector.ofFn fun u => tu[u].promote c.stamp.elapsed }
  | _, _ => s

end Sys2Proof.Machine
end

