-- ==== Sys2Proof/Machine/Handover.lean ====
section
/-! DEFINITION. The Handover Controller (chapter 8): local time and boundaries, the console downlink
queue, the handover states, the incident hold, cuts and SETTLING, and the commands DUTY_CLAIM, ACCEPT,
RELEASE, QUERY, WINDOW_EXPIRY, RELEASE_EXPIRY and SETTLE_END. -/

namespace Sys2Proof.Machine

/-- The HC's items changed. -/
def State.onHc (f : Handover → Handover) (s : State) : State := { s with hc := f s.hc }

/-! ### The console downlink queue (R145) -/

/-- A message whose second frame has ended leaves the queue (R145). -/
def Handover.flush (e : Nat) (h : Handover) : Handover :=
  match h.tx with
  | some t =>
    if 2 ≤ t.frames ∧ t.start + 16 ≤ e then { h with queue := h.queue.tail, tx := none } else h
  | none => h

/-- The message is a NOTICE. -/
def DownMsg.isNotice (m : DownMsg) : Bool := m.kind == .notice

/-- The oldest NOTICE taken out of a list; none when it holds no NOTICE. -/
def dropNotice : List DownMsg → Option (List DownMsg)
  | [] => none
  | m :: r => if m.isNotice then some r else (dropNotice r).map (m :: ·)

/-- A message joins the queue: appended below 4, else in place of the oldest NOTICE that is not in
transmission, else discarded (R145). -/
def Handover.enqueue (e : Nat) (m : DownMsg) (h0 : Handover) : Handover :=
  let h := h0.flush e
  if h.queue.length < 4 then { h with queue := h.queue ++ [m] }
  else
    let sending := if h.tx.isSome then 1 else 0
    match dropNotice (h.queue.drop sending) with
    | some r => { h with queue := h.queue.take sending ++ r ++ [m] }
    | none => h

/-- A CONFIRM or REFUSE to the console answered, with the state and duty as they stand (R145). -/
def State.answer (kind : DownKind) (m : ConsoleMsg) (s : State) : State :=
  s.onHc fun h =>
    h.enqueue s.tb.e
      { kind := kind, answered := some (m.console, m.kind, m.tag), state := h.state, duty := h.duty }

/-- A NOTICE to all consoles (R145, R156). -/
def State.notice (s : State) : State :=
  s.onHc fun h =>
    h.enqueue s.tb.e { kind := .notice, answered := none, state := h.state, duty := h.duty }

/-- A change of handover state or of duty console, already made, from state `old`: its HANDOVER record
is offered and its NOTICE queued (R156). -/
def State.announce (old : HState) (cause : HCause) (cls : RecClass) (source : Nat) (s : State) : State :=
  (s.offer (mkRecord .handover cls source (hStateCode old) (hStateCode s.hc.state) (hCauseCode cause)
    s.tb.now)).notice

/-! ### Local time and boundaries (R139 to R141) -/

/-- Local seconds from station seconds and a local offset in minutes, no less than 0 (R139). -/
def localSeconds (station : Nat) (offset : Int) : Nat := ((station : Int) + offset * 60).toNat

/-- Local seconds now (R139). -/
def State.localNow (s : State) : Nat :=
  localSeconds (stationSeconds s.tb.station) s.ml.params.localOffset

/-- The latest boundary of a schedule at or before a local second (R139, R141). -/
def latestBoundary (schedule : List Nat) (secs : Nat) : Option BoundaryId :=
  let day := secs / 86400
  let today := schedule.countP fun m => m * 60 ≤ secs % 86400
  if 0 < today then some (day, today - 1)
  else if 0 < day ∧ schedule ≠ [] then some (day - 1, schedule.length - 1)
  else none

/-- How many boundaries of a schedule of `n` minutes lie at or before a pair (R139: day first, index
second). -/
def boundariesThrough (n : Nat) : Option BoundaryId → Nat
  | none => 0
  | some (d, i) => d * n + min (i + 1) n

/-- The number of passed boundaries: after both marks, and at or before the latest (R140). -/
def passedCount (n : Nat) (latest lastReached reachMark : Option BoundaryId) : Nat :=
  boundariesThrough n latest - max (boundariesThrough n lastReached) (boundariesThrough n reachMark)

/-! ### Cuts (R154) -/

/-- What a cut does to the HC's items (R154). -/
def Handover.cut (ec : Nat) (h : Handover) : Handover :=
  { h with duty := none, timer := .none, overrun := false, boundary := none, missed := 0, heldTicks := 0,
           state := .settling, settleEnd := some (ec + 320) }

/-- A cut of a kind at E `ec`: handed to the SH, and SETTLING entered (R154, R161). Its record is
`announceCut`'s. -/
def State.makeCut (kind : CloseKind) (ec : Nat) (s : State) : State :=
  (s.noteCut kind (stampOf s.tb.vals ec)).onHc (Handover.cut ec)

/-- Class of the HANDOVER record of a cut (R156). -/
def cutClass : CloseKind → RecClass
  | .normal | .late | .auto => .b
  | .forced | .unattended => .a

/-- A cut with its record and notice; the Source is the outgoing console for a handed-over cut and 0
otherwise (R154, R156). -/
def State.takeCut (kind : CloseKind) (cause : HCause) (ec : Nat) (s : State) : State :=
  let source := match kind with
    | .unattended | .auto => 0
    | .normal | .late | .forced => consoleCode s.hc.duty
  (s.makeCut kind ec).announce s.hc.state cause (cutClass kind) source

/-- The opening cut at the tick `e` (R154, R160). -/
def State.takeOpeningCut (e : Nat) (s : State) : State :=
  (s.openingCut (stampOf s.tb.vals e)).onHc fun h => { h with missed := 0, shiftOpen := true }

/-! ### A boundary reached (R148, R155) -/

/-- The handover enters HELD at a boundary (R148). -/
def State.holdAtBoundary (resume : Resume) (r : Nat) (s : State) : State :=
  (s.onHc fun h => { h with state := .held, resume := resume, heldSince := some r }).announce
    s.hc.state .boundary .a (consoleCode s.hc.duty)

/-- The window opens at a boundary, or is held by an active incident (R148). -/
def State.openWindow (r : Nat) (s : State) : State :=
  let window := s.ml.params.handoverWindow * ticksPerMinute
  if s.ct.incident then s.holdAtBoundary (.windowOpen window) r
  else
    (s.onHc fun h => { h with state := .windowOpen, timer := .window (r + window) }).announce
      s.hc.state .boundary .b (consoleCode s.hc.duty)

/-- A boundary cuts the shift, or the cut is held by an active incident (R148). -/
def State.cutAtBoundary (kind : CloseKind) (resume : Resume) (r : Nat) (s : State) : State :=
  if s.ct.incident then s.holdAtBoundary resume r else s.takeCut kind .boundary r

/-- A boundary counted as missed (R148). -/
def Handover.miss (n : Nat) (h : Handover) : Handover := { h with missed := satAdd top16 h.missed n }

/-- The boundary of the shift becomes the pair reached. -/
def Handover.noteBoundary (b : BoundaryId) (h : Handover) : Handover := { h with boundary := some b }

/-- A reached boundary acts on the handover by state and mode, with reach E `r` (R148, R155). -/
def State.actBoundary (b : BoundaryId) (r : Nat) (s : State) : State :=
  match s.hc.state, s.ml.params.scheduleMode with
  | .noDuty, .console =>
    if s.hc.shiftOpen then (s.onHc (Handover.noteBoundary b)).cutAtBoundary .unattended .cutUnattended r
    else s
  | .noDuty, .auto => s
  | .onShift, .console => (s.onHc (Handover.noteBoundary b)).openWindow r
  | .onShift, .auto => (s.onHc (Handover.noteBoundary b)).cutAtBoundary .auto .cutAuto r
  | .windowOpen, _ => s.onHc fun h => (h.noteBoundary b).miss 1
  | .accepted, _ => s.onHc fun h => (h.noteBoundary b).miss 1
  | .held, _ => s.onHc fun h => (h.noteBoundary b).miss 1
  | .overrun, .console => (s.onHc (Handover.noteBoundary b)).openWindow r
  | .overrun, .auto => s.onHc (Handover.noteBoundary b)
  | .settling, _ =>
    s.onHc fun h =>
      { (if h.deferred.isSome then h.miss 1 else h).noteBoundary b with deferred := some b }

/-! ### Evaluating local time (R140 to R142) -/

/-- An evaluation that is no re-seat: the latest passed boundary is reached, the others count as missed
(R140). -/
def State.evaluate (s : State) : State :=
  let latest := latestBoundary s.hc.schedule s.localNow
  let passed := passedCount s.hc.schedule.length latest s.hc.lastReached s.hc.reachMark
  match latest with
  | none => s
  | some b =>
    if passed = 0 then s
    else
      (s.onHc fun h =>
        { h.miss (passed - 1) with lastReached := some b, reachMark := some b }).actBoundary b s.tb.e

/-- A re-seat (R141). -/
def State.reseat (s : State) : State :=
  s.onHc fun h => { h with lastReached := latestBoundary h.schedule s.localNow }

/-- The HC's part in a tick at which local time is evaluated: nothing while time is unset, a re-seat when
time first becomes set there, an evaluation otherwise (R140, R141). -/
def State.onLocalTime (firstSet : Bool) (s : State) : State :=
  if s.tb.unset then s else if firstSet then s.reseat else s.evaluate

/-! ### The incident hold (R150, R151) -/

/-- The remainder of a running timer at a tick (R150). -/
def HTimer.remaining (e : Nat) : HTimer → Nat
  | .none => 0
  | .window x => x - e
  | .release x => x - e

/-- The handover enters HELD at the begin of an incident. -/
def State.holdAtIncident (resume : Resume) (s : State) : State :=
  (s.onHc fun h =>
    { h with state := .held, resume := resume, timer := .none, heldSince := some s.tb.e }).announce
      s.hc.state .incidentBegin .a (consoleCode s.hc.duty)

/-- The CT tells the HC that an incident has begun (R150). -/
def State.incidentBegins (s : State) : State :=
  match s.hc.state with
  | .windowOpen => s.holdAtIncident (.windowOpen (s.hc.timer.remaining s.tb.e))
  | .accepted => s.holdAtIncident (.accepted (s.hc.timer.remaining s.tb.e))
  | .overrun => s.holdAtIncident .overrun
  | .noDuty | .onShift | .held | .settling => s

/-- HELD ends and a state resumes at the incident end (R151). -/
def State.resumeTo (state : HState) (timer : HTimer) (s : State) : State :=
  (s.onHc fun h => { h with state := state, timer := timer, resume := .none }).announce
    s.hc.state .incidentEnd .b (consoleCode s.hc.duty)

/-- The CT tells the HC that an incident has ended (R151). -/
def State.incidentEnds (s : State) : State :=
  match s.hc.state with
  | .held =>
    let t := s.onHc fun h =>
      { h with heldTicks := h.heldTicks + (s.tb.e - h.heldSince.getD s.tb.e), heldSince := none }
    match s.hc.resume with
    | .windowOpen rem => t.resumeTo .windowOpen (.window (s.tb.e + rem))
    | .accepted rem => t.resumeTo .accepted (.release (s.tb.e + rem))
    | .overrun => t.resumeTo .overrun .none
    | .cutUnattended =>
      (t.onHc fun h => { h with resume := .none }).takeCut .unattended .incidentEnd s.tb.e
    | .cutAuto => (t.onHc fun h => { h with resume := .none }).takeCut .auto .incidentEnd s.tb.e
    | .none => t
  | .noDuty | .onShift | .windowOpen | .accepted | .overrun | .settling => s

/-! ### Console messages (R147) -/

/-- A refusal: nothing but the REFUSE (R147). -/
def State.refuseMsg (r : Refuse) (m : ConsoleMsg) (s : State) : State := s.answer (.refuse r) m

/-- In AUTO mode every console message is refused: BUSY in SETTLING, AUTO_MODE otherwise (R147). -/
def State.refuseAuto (m : ConsoleMsg) (s : State) : State :=
  if s.hc.state = .settling then s.refuseMsg .busy m else s.refuseMsg .autoMode m

/-- A DUTY_CLAIM taken (R147). -/
def State.takeClaim (m : ConsoleMsg) (s : State) : State :=
  match s.ml.params.scheduleMode with
  | .auto => s.refuseAuto m
  | .console =>
    match s.hc.state with
    | .noDuty =>
      let t := if s.hc.shiftOpen then s else s.takeOpeningCut m.arrival
      ((t.onHc fun h => { h with duty := some m.console, state := .onShift }).answer .confirm m).announce
        .noDuty .claim .b (m.console.val + 1)
    | .onShift | .windowOpen | .accepted | .overrun => s.refuseMsg .dutyTaken m
    | .held => s.refuseMsg (if s.hc.duty.isSome then .dutyTaken else .incident) m
    | .settling => s.refuseMsg .busy m

/-- An ACCEPT that is taken: its sender becomes the incoming console (R147). -/
def State.acceptFrom (m : ConsoleMsg) (s : State) : State :=
  ((s.onHc fun h =>
    { h with incoming := some m.console, state := .accepted,
             timer := .release (m.arrival + s.ml.params.releaseLimit * ticksPerMinute) }).answer
      .confirm m).announce s.hc.state .accept .b (m.console.val + 1)

/-- An ACCEPT taken (R147). -/
def State.takeAccept (m : ConsoleMsg) (s : State) : State :=
  match s.ml.params.scheduleMode with
  | .auto => s.refuseAuto m
  | .console =>
    match s.hc.state with
    | .noDuty | .onShift => s.refuseMsg .noWindow m
    | .windowOpen | .overrun =>
      if s.hc.duty = some m.console then s.refuseMsg .sameConsole m else s.acceptFrom m
    | .accepted =>
      if s.hc.incoming = some m.console then s.answer .confirm m
      else if s.hc.duty = some m.console then s.refuseMsg .sameConsole m
      else s.refuseMsg .alreadyAccepted m
    | .held => s.refuseMsg .incident m
    | .settling => s.refuseMsg .busy m

/-- The release that hands the shift over: a NORMAL or LATE cut at the look's E_f (R147, R154). -/
def State.releaseCut (m : ConsoleMsg) (s : State) : State :=
  ((s.makeCut (if s.hc.overrun then .late else .normal) m.arrival).answer .confirm m).announce
    s.hc.state .release .b (consoleCode s.hc.duty)

/-- A RELEASE taken (R147). -/
def State.takeRelease (m : ConsoleMsg) (s : State) : State :=
  match s.ml.params.scheduleMode with
  | .auto => s.refuseAuto m
  | .console =>
    match s.hc.state with
    | .noDuty => s.refuseMsg .notDuty m
    | .onShift | .windowOpen | .overrun =>
      if s.hc.duty = some m.console then s.refuseMsg .noWindow m else s.refuseMsg .notDuty m
    | .accepted =>
      if s.hc.duty = some m.console then s.releaseCut m else s.refuseMsg .notDuty m
    | .held => s.refuseMsg .incident m
    | .settling => s.refuseMsg .busy m

/-- A QUERY taken (R147). -/
def State.takeQuery (m : ConsoleMsg) (s : State) : State :=
  match s.ml.params.scheduleMode with
  | .auto => s.refuseAuto m
  | .console => if s.hc.state = .settling then s.refuseMsg .busy m else s.answer .confirm m

/-- A console message acted on, by its kind. -/
def State.takeMessage (m : ConsoleMsg) (s : State) : State :=
  match m.kind with
  | .dutyClaim => s.takeClaim m
  | .accept => s.takeAccept m
  | .release => s.takeRelease m
  | .query => s.takeQuery m

/-- The arrived message of a kind is acted on and is then no longer held (R144). -/
def State.takeArrived (k : ConsoleKind) (s : State) : State :=
  match s.hc.arrived with
  | none => s
  | some m => if m.kind = k then (s.onHc fun h => { h with arrived := none }).takeMessage m else s

/-- DUTY_CLAIM. -/
def execDutyClaim (s : State) : Host.Outcome State Fault Refusal := .next (s.takeArrived .dutyClaim)

/-- ACCEPT. -/
def execAccept (s : State) : Host.Outcome State Fault Refusal := .next (s.takeArrived .accept)

/-- RELEASE. -/
def execRelease (s : State) : Host.Outcome State Fault Refusal := .next (s.takeArrived .release)

/-- QUERY. -/
def execQuery (s : State) : Host.Outcome State Fault Refusal := .next (s.takeArrived .query)

/-! ### Timers (R149) -/

/-- The window timer expires in WINDOW_OPEN (R149). -/
def State.windowExpires (s : State) : State :=
  match s.hc.state, s.hc.timer with
  | .windowOpen, .window x =>
    if x ≤ s.tb.e then
      (s.onHc fun h => { h with state := .overrun, timer := .none, overrun := true }).announce
        .windowOpen .windowExpiry .a (consoleCode s.hc.duty)
    else s
  | _, _ => s

/-- WINDOW_EXPIRY. -/
def execWindowExpiry (s : State) : Host.Outcome State Fault Refusal := .next s.windowExpires

/-- The release timer expires in ACCEPTED: a FORCED cut with the expiry as its cut E (R149). -/
def State.releaseExpires (s : State) : State :=
  match s.hc.state, s.hc.timer with
  | .accepted, .release x => if x ≤ s.tb.e then s.takeCut .forced .releaseExpiry x else s
  | _, _ => s

/-- RELEASE_EXPIRY. -/
def execReleaseExpiry (s : State) : Host.Outcome State Fault Refusal := .next s.releaseExpires

/-! ### The end of SETTLING (R155) -/

/-- The state and duty console entered when SETTLING ends after a cut of a kind (R155). -/
def afterSettling (kind : CloseKind) (incoming : Option Console) : HState × Option Console :=
  match kind with
  | .normal | .late | .forced => (.onShift, incoming)
  | .unattended => (.noDuty, none)
  | .auto => (.onShift, none)

/-- The HC leaves SETTLING after a cut of a kind, and acts on a deferred boundary (R155). -/
def State.leaveSettling (kind : CloseKind) (x : Nat) (s : State) : State :=
  let (st, duty) := afterSettling kind s.hc.incoming
  let t := (s.onHc fun h =>
    { h with state := st, duty := duty, incoming := none, settleEnd := none }).announce
      .settling .settled .b (consoleCode duty)
  match s.hc.deferred with
  | none => t
  | some b => (t.onHc fun h => { h with deferred := none }).actBoundary b x

/-- E has reached the settle end: the SH closes the shift, then the HC leaves SETTLING (R155, R166). -/
def State.settleEnds (s : State) : State :=
  match s.hc.state, s.hc.settleEnd, s.sh.cut with
  | .settling, some x, some c => if x ≤ s.tb.e then s.closeShift.leaveSettling c.kind x else s
  | _, _, _ => s

/-- SETTLE_END. -/
def execSettleEnd (s : State) : Host.Outcome State Fault Refusal := .next s.settleEnds

end Sys2Proof.Machine
end

