-- ==== Sys2Proof/Machine/Cascades.lean ====
section
/-! DEFINITION. The Cascade Tracker (chapter 6): trips, opening, joining and closing cascades, the
incident, and the commands CASCADE_CLOSE and INCIDENT_HOLD_END. -/

namespace Sys2Proof.Machine

/-- A validated change as the Channel Monitor hands it on (R75). -/
structure Change where
  channel : Chan
  old : Option Code
  new : Code
  stamp : Nat
  vals : StationVals
  deriving DecidableEq, Repr

/-- A trip: from a code outside the trip set to a code in it (R107). -/
def isTrip (tripSet : BitVec 16) (old : Option Code) (new : Code) : Bool :=
  match old with
  | none => false
  | some c => !tripSet.getLsbD c.val && tripSet.getLsbD new.val

/-- The member with the smallest stamp, and of equal ones the lower-numbered channel (R110). -/
def earlier (x y : Member) : Member :=
  if y.stamp < x.stamp ∨ (y.stamp = x.stamp ∧ y.channel < x.channel) then y else x

/-- The first-out of a list of members (R110). -/
def firstOutOf : List Member → Option Member
  | [] => none
  | m :: r => some (r.foldl earlier m)

/-- The first-out of a cascade (R110). -/
def Cascade.firstOut (c : Cascade) : Option Member := firstOutOf c.members

/-- A trip joins the members unless its channel is one already (R109). -/
def joinMember (ms : List Member) (m : Member) : List Member :=
  if ms.any (·.channel == m.channel) then ms else ms ++ [m]

/-- Some cascade is open. -/
def Cascades.anyOpen (c : Cascades) : Bool := c.slots.toList.any Option.isSome

/-- The incident is active while a cascade is open or E is before the hold end (R115). -/
def Cascades.activeAt (e : Nat) (c : Cascades) : Bool :=
  c.anyOpen || (match c.holdEnd with | some h => decide (e < h) | none => false)

/-- The CT's items changed. -/
def State.onCt (f : Cascades → Cascades) (s : State) : State := { s with ct := f s.ct }

/-- An evaluation of the incident (R115). -/
def State.evalIncident (s : State) : State :=
  match s.ct.activeAt s.tb.e, s.ct.incident with
  | true, false => (s.onCt fun c => { c with incident := true }).incidentBegins
  | false, true => (s.onCt fun c => { c with incident := false, holdEnd := none }).incidentEnds
  | true, true => s
  | false, false => s

/-! ### Opening and joining (R108, R109) -/

/-- The members that the trips of one look bring. -/
def membersOf (trips : List Change) : List Member :=
  trips.map fun t => { channel := t.channel, stamp := t.stamp, vals := t.vals }

/-- The smallest elapsed stamp of the opening trips: s₀ of R108. -/
def earliestStamp (trips : List Change) : Nat :=
  match firstOutOf (membersOf trips) with
  | some m => m.stamp
  | none => 0

/-- A cascade opened by trips of one look (R108): close time s₀ + 64 × w + 320. -/
def openedCascade (window : Nat) (trips : List Change) : Cascade :=
  { close := earliestStamp trips + 64 * window + 320, members := membersOf trips }

/-- A slot's contents replaced. -/
def Cascades.put (g : Group) (x : Option Cascade) (c : Cascades) : Cascades :=
  { c with slots := c.slots.set g.val x g.isLt }

/-- The trips of one group that one look brings (R108, R109). -/
def State.takeTrips (g : Group) (trips : List Change) (s : State) : State :=
  if trips.isEmpty then s
  else
    match s.ct.slots[g] with
    | some c =>
      s.onCt (Cascades.put g (some { c with members := (membersOf trips).foldl joinMember c.members }))
    | none =>
      let t := (s.onCt (Cascades.put g (some (openedCascade s.ml.params.cascadeWindow trips)))).evalIncident
      match groupUnit g with
      | some u => t.cascadeOpened u
      | none => t

/-- All trips of one look, group by group (R108). `groupOfChange` names a change's group. -/
def State.takeAllTrips (trips : List Change) (s : State) : State :=
  allGroups.foldl (fun t g => t.takeTrips g (trips.filter fun c => s.cm[c.channel].entry.group == g)) s

/-! ### Closing (R111 to R115) -/

/-- The mode at the first-out (R113). -/
def State.modeAtFirstOut (g : Group) (stamp : Nat) (s : State) : UnitMode :=
  match groupUnit g with
  | some u => modeAt s.tu[u].history stamp
  | none => .unknown

/-- The CASCADE record (R112). -/
def cascadeRecord (g : Group) (mode : UnitMode) (m : Member) (count : Nat) : EventRecord :=
  mkRecord .cascade .a g.val (modeIdx mode).val m.channel.val count (stampOf m.vals m.stamp)

/-- The hold end after a close at E `e` with a trip hold in minutes (R115). -/
def laterHold (old : Option Nat) (e hold : Nat) : Option Nat :=
  some (max (old.getD 0) (e + hold * ticksPerMinute))

/-- The trip counted in the Tally Unit; a close of group 8 counts in no unit (R114). -/
def State.countTrip (g : Group) (fromLoad : Bool) (s : State) : State :=
  match groupUnit g with
  | some u => s.onUnit u (GenUnit.countTrip fromLoad)
  | none => s

/-- The close of an open cascade with first-out `m` (R111). -/
def State.closeCascade (g : Group) (c : Cascade) (m : Member) (s : State) : State :=
  let mode := s.modeAtFirstOut g m.stamp
  let t := s.offer (cascadeRecord g mode m c.members.length)
  let t := (t.countTrip g (isLoad mode)).attributeCascade g m.channel m.stamp (isLoad mode)
  (t.onCt fun x => { x.put g none with holdEnd := laterHold x.holdEnd s.tb.e s.ml.params.tripHold }).evalIncident

/-- E has reached the close time of group `g`'s open cascade (R111). -/
def State.cascadeCloses (g : Group) (s : State) : State :=
  match s.ct.slots[g] with
  | none => s
  | some c =>
    match c.firstOut with
    | none => s
    | some m => if c.close ≤ s.tb.e then s.closeCascade g c m else s

/-- CASCADE_CLOSE. -/
def execCascadeClose (g : Group) (s : State) : Host.Outcome State Fault Refusal :=
  .next (s.cascadeCloses g)

/-- E has reached the incident hold end (R115). -/
def State.holdEnds (s : State) : State :=
  match s.ct.holdEnd with
  | none => s
  | some h => if h ≤ s.tb.e then s.evalIncident else s

/-- INCIDENT_HOLD_END. -/
def execIncidentHoldEnd (s : State) : Host.Outcome State Fault Refusal := .next s.holdEnds

end Sys2Proof.Machine
end

