-- ==== Sys2Proof/Machine/Stores.lean ====
section
/-! DEFINITION. The elastic stores (R61 to R64): writing, reading, slips and recentring. -/

namespace Sys2Proof.Machine

/-- A store of the part. -/
def State.store (n : StoreName) (s : State) : Elastic :=
  match n with
  | .up => s.up
  | .down => s.down

/-- A store replaced. -/
def State.setStore (n : StoreName) (x : Elastic) (s : State) : State :=
  match n with
  | .up => { s with up := x }
  | .down => { s with down := x }

/-- Recentring: floor(D/2) copies of the last frame read (R62). -/
def Elastic.recentre (depth : Nat) (x : Elastic) : Elastic :=
  { x with frames := List.replicate (depth / 2) x.last }

/-- The SLIP record (R64). -/
def slipRecord (n : StoreName) (t : SlipType) (before after : Nat) (st : Stamp) : EventRecord :=
  mkRecord .slip .b (storeCode n) before after (slipCode t) st

/-- A slip of a store: its counter rises, and the first in a local second makes a record (R63, R64). -/
def State.slip (n : StoreName) (t : SlipType) (s : State) : State :=
  let x := s.store n
  let after := satAdd top16 x.slips 1
  let s1 := s.setStore n { x with slips := after, recordMade := true }
  if x.recordMade then s1 else s1.offer (slipRecord n t x.slips after s.tb.now)

/-- A write: the frame is appended, and a full store drops its oldest first (R63). -/
def State.writeStore (n : StoreName) (f : Vector Octet 24) (s : State) : State :=
  let x := s.store n
  if x.frames.length < s.ml.params.storeDepth then
    s.setStore n { x with frames := x.frames ++ [f] }
  else
    (s.setStore n { x with frames := x.frames.tail ++ [f] }).slip n .dropped

/-- A read: the oldest frame becomes the last frame read, and an empty store repeats it (R63). -/
def State.readStore (n : StoreName) (s : State) : State :=
  let x := s.store n
  match x.frames with
  | f :: r => s.setStore n { x with frames := r, last := f }
  | [] => s.slip n .repeated

/-- Both stores recentred at the depth in force. -/
def State.recentreBoth (s : State) : State :=
  { s with up := s.up.recentre s.ml.params.storeDepth, down := s.down.recentre s.ml.params.storeDepth }

end Sys2Proof.Machine
end

