-- ==== Sys2Proof/Machine/Channels.lean ====
section
/-! DEFINITION. The Channel Monitor (chapter 4): making and offering channel records, validation, dating,
presence, chatter, channel restart, and the command QUIET_DEADLINE. -/

namespace Sys2Proof.Machine

/-! ### Classes of a channel's records (R67) -/

/-- Kind of a channel's change records (R67): MODE for a mode source, STATE otherwise. -/
def changeKind (cm : Vector Channel 24) (ch : Chan) : RecKind :=
  if cm[ch].entry.role == .mode && !shadowed cm ch then .mode else .state

/-- Class of a channel's change and chatter records (R67). -/
def changeClass (cm : Vector Channel 24) (ch : Chan) : RecClass :=
  match cm[ch].entry.role with
  | .alarm | .trip => .a
  | .unused | .status | .mode => .b

/-- Class of a channel's CHANNEL_LOST and CHANNEL_FOUND records (R67). -/
def presenceClass (cm : Vector Channel 24) (ch : Chan) : RecClass :=
  match cm[ch].entry.role with
  | .alarm | .trip => .a
  | .mode => if shadowed cm ch then .b else .a
  | .unused | .status => .b

/-! ### The route of a channel record into the EQ (R86, R87) -/

/-- A record of channel `ch` with the class other than `c` is in the EQ (R86). -/
def otherClassHeld (q : EventQueue) (ch : Chan) (c : RecClass) : Bool :=
  q.records.any fun r => isChannelKind r.kind && r.source == ch.val && r.cls != c

/-- A record collapses another that it replaces (R87): the collapsed count goes to Aux, added to the
suppressed count of a CHATTER_OFF. -/
def EventRecord.collapse (old r : EventRecord) : EventRecord :=
  let n := satAdd top16 old.collapsed 1
  { r with collapsed := n,
           aux := if r.kind = .chatterOff then min (r.aux + n) 65535 else n }

/-- A record goes to the pending store: appended below two entries, in place of the second at two
(R87). -/
def storeRecord (l : List EventRecord) (r : EventRecord) : List EventRecord :=
  match l with
  | [] => [r]
  | [x] => [x, r]
  | x :: y :: _ => [x, y.collapse r]

/-- A channel record enters the EQ at once, or goes to the channel's pending store (R86). -/
def State.offerChannel (ch : Chan) (r : EventRecord) (s : State) : State :=
  if s.cm[ch].store.isEmpty && s.eq.takes r.cls && !otherClassHeld s.eq ch r.cls then s.enqueue r
  else s.onChannel ch fun x => { x with store := storeRecord x.store r }

/-- A channel's record, as R76 to R81 give it: its elapsed stamp is raised to the stamp floor, which it
then sets (R73, R85). -/
def State.channelRecord (ch : Chan) (kind : RecKind) (cls : RecClass) (initial : Bool)
    (old new : Option Code) (aux : Nat) (stamp : Nat) (v : StationVals) (s : State) : State :=
  let st := max stamp s.cm[ch].floor
  (s.onChannel ch fun x => { x with floor := st }).offerChannel ch
    { mkRecord kind cls ch.val (codeOrNone old) (codeOrNone new) aux (stampOf v st) with
      initial := initial }

/-! ### Chatter (R79 to R81) -/

/-- Ticks of the chatter window (R66). -/
def Params.chatterTicks (p : Params) : Nat := p.chatterWindow * 64000

/-- Chatter ends with its CHATTER_OFF record, whose New is `new` (R81). -/
def State.endChatter (ch : Chan) (c : Chatter) (new : Option Code) (s : State) : State :=
  (s.channelRecord ch .chatterOff (changeClass s.cm ch) false (some c.codeAtEntry) new
    s.cm[ch].suppressed c.lastStamp c.lastVals).onChannel ch fun x =>
      { x with chatter := none, suppressed := 0, recent := [] }

/-- The n-th change within the window enters CHATTER (R79). -/
def entersChatter (x : Channel) (window stamp : Nat) : Bool :=
  match x.recent with
  | [] => false
  | oldest :: _ => x.entry.chatterLimit - 1 ≤ x.recent.length && stamp - oldest ≤ window

/-- The recent-change list with a stamp appended, at most n − 1 of them (R79). -/
def appendRecent (limit : Nat) (l : List Nat) (stamp : Nat) : List Nat :=
  (if limit - 1 ≤ l.length then l.tail else l) ++ [stamp]

/-- A change of a PRESENT channel meets chatter handling and record making (R79, R80). -/
def State.recordChange (ch : Chan) (c : Change) (s : State) : State :=
  let x := s.cm[ch]
  let window := s.ml.params.chatterTicks
  match x.chatter with
  | some k =>
    s.onChannel ch fun y =>
      { y with suppressed := satAdd top16 y.suppressed 1,
               chatter := some { k with deadline := c.stamp + window, lastStamp := c.stamp,
                                        lastVals := c.vals } }
  | none =>
    if entersChatter x window c.stamp then
      (s.channelRecord ch .chatterOn (changeClass s.cm ch) false c.old (some c.new) 0 c.stamp
        c.vals).onChannel ch fun y =>
          { y with suppressed := 0,
                   chatter := some { codeAtEntry := c.new, deadline := c.stamp + window,
                                     lastStamp := c.stamp, lastVals := c.vals } }
    else
      (s.channelRecord ch (changeKind s.cm ch) (changeClass s.cm ch) false c.old (some c.new) 0 c.stamp
        c.vals).onChannel ch fun y =>
          { y with recent := appendRecent y.entry.chatterLimit y.recent c.stamp }

/-- E has reached the channel's quiet deadline (R81). -/
def State.quietDeadline (ch : Chan) (s : State) : State :=
  match s.cm[ch].chatter with
  | none => s
  | some c => if c.deadline ≤ s.tb.e then s.endChatter ch c s.cm[ch].valid else s

/-- QUIET_DEADLINE. -/
def execQuietDeadline (ch : Chan) (s : State) : Host.Outcome State Fault Refusal :=
  .next (s.quietDeadline ch)

/-! ### Looks (R70 to R78) -/

/-- The elapsed stamp of a candidate's change: E_f − Age − L, no less than 0, raised to the stamp floor
(R73). -/
def changeStamp (x : Channel) (c : Candidate) : Nat := max (c.frame - c.age - x.entry.latency) x.floor

/-- What a look hands on from a channel to the other blocks (R75, R76). -/
inductive HandOn where
  | change (c : Change)
  | lost (ch : Chan)
  deriving DecidableEq, Repr

/-- A candidate is validated: the channel's record by its presence, and the change handed on (R72, R75,
R77, R78). -/
def State.validate (ch : Chan) (k : Candidate) (s : State) : State × List HandOn :=
  let x := s.cm[ch]
  let c : Change := { channel := ch, old := x.valid, new := k.code, stamp := changeStamp x k, vals := k.vals }
  let t := s.onChannel ch fun y =>
    { y with valid := some k.code, candidate := none, presence := .present }
  let t := match x.presence with
    | .unknown =>
      t.channelRecord ch (changeKind s.cm ch) (changeClass s.cm ch) true none (some k.code) 0 c.stamp k.vals
    | .absent =>
      t.channelRecord ch .channelFound (presenceClass s.cm ch) false none (some k.code) 0 c.stamp k.vals
    | .present => t.recordChange ch c
  (t, [.change c])

/-- The channel becomes ABSENT (R76), after its chatter, if any, has ended (R81). -/
def State.loseChannel (ch : Chan) (r : RunStart) (s : State) : State × List HandOn :=
  let old := s.cm[ch].valid
  let t := match s.cm[ch].chatter with
    | some c => s.endChatter ch c old
    | none => s
  let t := t.onChannel ch fun x => { x with valid := none, presence := .absent }
  (t.channelRecord ch .channelLost (presenceClass s.cm ch) false old none 0
    (r.frame - s.cm[ch].entry.latency) r.vals, [.lost ch])

/-- A no-device look of a monitored channel at tick `e` (R70, R76). -/
def State.noDeviceLook (ch : Chan) (s : State) : State × List HandOn :=
  let x := s.cm[ch]
  let start := if x.runCount = 0 then { frame := s.tb.e, vals := s.tb.vals }
    else x.runStart.getD { frame := s.tb.e, vals := s.tb.vals }
  let t := s.onChannel ch fun y =>
    { y with candidate := none, runCount := min (y.runCount + 1) 2, runStart := some start }
  if 1 ≤ x.runCount ∧ x.presence ≠ .absent then t.loseChannel ch start else (t, [])

/-- Any other look of a monitored channel (R70 to R72). -/
def State.codeLook (ch : Chan) (o : Octet) (s : State) : State × List HandOn :=
  let code := codeOf o
  let fresh : Candidate := { code := code, age := ageOf o, frame := s.tb.e, vals := s.tb.vals }
  let t := s.onChannel ch fun y => { y with runCount := 0, runStart := none }
  match s.cm[ch].candidate with
  | none =>
    if s.cm[ch].valid = some code then (t, [])
    else (t.onChannel ch fun y => { y with candidate := some fresh }, [])
  | some k =>
    if code = k.code then t.validate ch k
    else
      (t.onChannel ch fun y =>
        { y with unstable := satAdd top16 y.unstable 1,
                 candidate := if s.cm[ch].valid = some code then none else some fresh }, [])

/-- One channel's look: the raw last look, and for a monitored channel the presence test or validation
(R67, R70). -/
def State.channelLook (ch : Chan) (o : Octet) (s : State) : State × List HandOn :=
  let t := s.onChannel ch fun y => { y with rawLast := some o }
  if s.cm[ch].entry.monitored then
    if noDevice o then t.noDeviceLook ch else t.codeLook ch o
  else (t, [])

/-- The look of all channels, lowest first: the state, and what is handed on. -/
def State.allLooks (status : Vector Octet 24) (s : State) : State × List HandOn :=
  allChannels.foldl
    (fun (p : State × List HandOn) ch =>
      let q := p.1.channelLook ch status[ch]
      (q.1, p.2 ++ q.2)) (s, [])

/-- What a look hands to the Tally Unit: a validated change of a mode source, or the loss of one (R75,
R76, R121). -/
def State.handToTally (h : HandOn) (s : State) : State :=
  match h with
  | .change c =>
    match sourceUnit s.cm c.channel with
    | some u => s.sourceChange u c.stamp c.vals
    | none => s
  | .lost ch =>
    match sourceUnit s.cm ch with
    | some u => s.rederive u
    | none => s

/-- The trips among what a look hands on (R75, R107). -/
def tripsOf (cm : Vector Channel 24) (hs : List HandOn) : List Change :=
  hs.filterMap fun h =>
    match h with
    | .change c =>
      if cm[c.channel].entry.role = .trip ∧ isTrip cm[c.channel].entry.tripSet c.old c.new then some c
      else none
    | .lost _ => none

/-- What a look hands on is taken, the openings before or after the mode changes (R108, R116). -/
def State.takeHandOns (openingFirst : Bool) (hs : List HandOn) (s : State) : State :=
  let tally := fun (t : State) => hs.foldl (fun x h => x.handToTally h) t
  let trips := fun (t : State) => t.takeAllTrips (tripsOf s.cm hs)
  if openingFirst then tally (trips s) else trips (tally s)

/-! ### Restart of a channel (R82, R83) -/

/-- The runtime after a channel restart (R69): raw last look, unstable-look counter and stamp floor are
kept. -/
def Channel.restart (x : Channel) : Channel :=
  { x with presence := .unknown, valid := none, candidate := none, runCount := 0, runStart := none,
           recent := [], chatter := none, suppressed := 0, store := [] }

/-- The runtime after warm restart (R69): the unstable-look counter is cleared too. -/
def Channel.warmRestart (x : Channel) : Channel := { x.restart with unstable := 0 }

/-- A discarded pending entry counts 1 and the records collapsed into it as lost (R83). -/
def State.discardEntry (s : State) (r : EventRecord) : State := s.lose r.cls (satAdd top16 r.collapsed 1)

/-- A channel restart; `source` is the unit whose mode source the channel is, which then enters UNKNOWN
(R82, R83, R121, R123). -/
def State.restartChannel (ch : Chan) (source : Option UnitNo) (s : State) : State :=
  let t := (s.cm[ch].store.foldl State.discardEntry s).onChannel ch Channel.restart
  match source with
  | some u => t.eventChange u .unknown
  | none => t

/-- Several channels restarted under the mode sources of the table `cm`. R84 gives one instant and no order: the channels
restart in the order of the list, lowest first, and so offer their units' START_FAIL records (DESIGN CHOICE, log entry
48). -/
def State.restartChannels (cm : Vector Channel 24) (chs : List Chan) (s : State) : State :=
  chs.foldl (fun t ch => t.restartChannel ch (sourceUnit cm ch)) s

/-- The mode sources are determined again after a table write, and each unit whose source changed derives
its mode (R68, R123). R68 and R134 leave the order of the units open: they derive from unit 0 to unit 7, and so offer
their START_FAIL records (DESIGN CHOICE, log entry 48). -/
def State.redetermine (before : Vector Channel 24) (s : State) : State :=
  allUnits.foldl
    (fun t u => if modeSource before u = modeSource s.cm u then t else t.rederive u) s

/-- A table entry written to a set of channels, and their restart (R68, R84). -/
def State.writeEntries (chs : List Chan) (e : ChannelEntry) (s : State) : State :=
  let t := chs.foldl (fun t ch => t.onChannel ch fun x => { x with entry := e }) s
  (t.restartChannels s.cm chs).redetermine s.cm

/-! ### The release round (R88, R97) -/

/-- The first entry of a channel's pending store, if the EQ can take it now (R97). -/
def releasable (s : State) (ch : Chan) : Option EventRecord :=
  match s.cm[ch].store with
  | [] => none
  | r :: _ => if s.eq.takes r.cls && !otherClassHeld s.eq ch r.cls then some r else none

/-- The better of two release choices: the earlier elapsed stamp, the first on equal ones (R97). -/
def betterRelease (x y : Option (Chan × EventRecord)) : Option (Chan × EventRecord) :=
  match x, y with
  | none, _ => y
  | some _, none => x
  | some a, some b => if b.2.stamp.elapsed < a.2.stamp.elapsed then y else x

/-- The choice of one turn of a release round (R97). -/
def releaseChoice (s : State) : Option (Chan × EventRecord) :=
  allChannels.foldl (fun best ch => betterRelease best ((releasable s ch).map fun r => (ch, r))) none

/-- One turn of a release round: the chosen entry is admitted, and its channel's second entry becomes the first; none
where no entry is a candidate (R97). -/
def State.releaseTurn (s : State) : Option State :=
  (releaseChoice s).map fun p => (s.enqueue p.2).onChannel p.1 fun x => { x with store := x.store.tail }

/-- The state after a turn: itself where no entry is a candidate. -/
def State.afterTurn (s : State) : State := s.releaseTurn.getD s

/-- A release round of at most `n` turns (R97). -/
def releaseTurns (n : Nat) (s : State) : State := Nat.iterate State.afterTurn n s

/-- How many records are held in pending stores. -/
def heldCount (s : State) : Nat := allChannels.foldl (fun n ch => n + s.cm[ch].store.length) 0

/-- A release round: turns until one finds no candidate (R97); every turn takes one held entry. -/
def State.releaseRound (s : State) : State := releaseTurns (heldCount s) s

end Sys2Proof.Machine
end

