-- ==== Sys2Proof/Machine/Loop.lean ====
section
/-! DEFINITION. The Discipline Loop (chapter 2): the choice of the active reference, the loop second, step
confirmation, the trim search and its records, and the command REVERT_WAIT_EXPIRY. -/

namespace Sys2Proof.Machine

/-! ### Items of a reference -/

/-- A reference's items. -/
def RefMonitor.get (m : RefMonitor) (r : Ref) : RefState :=
  match r with
  | .a => m.a
  | .b => m.b

/-- A reference's items replaced. -/
def RefMonitor.put (m : RefMonitor) (r : Ref) (x : RefState) : RefMonitor :=
  match r with
  | .a => { m with a := x }
  | .b => { m with b := x }

/-- A reference's items changed. -/
def State.onRef (r : Ref) (f : RefState → RefState) (s : State) : State :=
  { s with rm := s.rm.put r (f (s.rm.get r)) }

/-- The DL's items changed. -/
def State.onDl (f : Loop → Loop) (s : State) : State := { s with dl := f s.dl }

/-- The pending trim written (R4, R37). -/
def State.writeTrim (t : Int) (s : State) : State := { s with tb := { s.tb with pendingTrim := t } }

/-- The range of I and of every trim (R37). -/
def clampTrim (x : Int) : Int := clampInt (-200000) 200000 x

/-! ### Records and changes of mode (R45) -/

/-- The TIMEBASE record (R45). -/
def timebaseRecord (active : Option Ref) (old new : TbMode) (cause : TbCause) (st : Stamp) : EventRecord :=
  mkRecord .timebase .a (refCode active) (tbModeCode old) (tbModeCode new) (tbCauseCode cause) st

/-- ACQUIRING or LOCKED: a reference is followed. -/
def isFollowing : TbMode → Bool
  | .acquiring | .locked => true
  | .freeRun | .holdover => false

/-- A local second boundary falls at this tick and has not been taken yet (R6). -/
def Timebase.boundaryDue (t : Timebase) : Bool :=
  t.station % 64000 == 0 && t.lastBoundary != some t.e

/-- What the mode and the active reference were before their first change at this tick (R17). -/
def State.noteBefore (s : State) : Option ModeBefore :=
  match s.dl.before with
  | some b => if b.tick = s.tb.e then some b else some { tick := s.tb.e, mode := s.dl.mode, active := s.dl.active }
  | none => some { tick := s.tb.e, mode := s.dl.mode, active := s.dl.active }

/-- A pending time setting is discarded when the mode becomes ACQUIRING or LOCKED before its boundary;
a change at the tick of a boundary not yet taken belongs to the second that begins there (R14). -/
def State.dropSetting (new : TbMode) (s : State) : State :=
  if !isFollowing s.dl.mode && isFollowing new && !s.tb.boundaryDue then
    { s with tb := { s.tb with pendingSetting := none } }
  else s

/-- The mode and the active reference become what is given: a confirmed step is dropped when the reference
changes or the mode leaves ACQUIRING and LOCKED (R38), a pending time setting when R14 says so, and a
change makes its TIMEBASE record (R45). -/
def State.setMode (mode : TbMode) (active : Option Ref) (cause : TbCause) (s : State) : State :=
  if mode = s.dl.mode ∧ active = s.dl.active then s
  else
    let t := (s.dropSetting mode).onDl fun d =>
      { d with mode := mode, active := active, before := s.noteBefore,
               everLocked := d.everLocked || mode == .locked,
               confirmed := if active = d.active ∧ isFollowing mode then d.confirmed else none }
    t.offer (timebaseRecord active s.dl.mode mode cause s.tb.now)

/-! ### Trim search: start, completion, abort (R47, R49) -/

/-- A trim search starts on a reference (R47). -/
def State.startSearch (r : Ref) (s : State) : State :=
  (s.onDl fun d =>
    { d with search := some { ref := r, stepSize := 102400, trim := 0, armed := false, start := none,
                              savedI := d.integral, savedT := s.tb.trim, deferred := none } }).writeTrim 0

/-- A running trim search is aborted, with its record; nothing without one (R49). -/
def State.abortSearch (s : State) : State :=
  match s.dl.search with
  | none => s
  | some x =>
    ((s.onDl fun d => { d with search := none, integral := x.savedI, history := [] }).writeTrim
      x.savedT).offer
        (timebaseRecord s.dl.active s.dl.mode s.dl.mode .searchAborted s.tb.now)

/-! ### Choosing the reference (R35, R40 to R43) -/

/-- The policy allows a reference (R35). -/
def Policy.allows (p : Policy) (r : Ref) : Bool :=
  match p, r with
  | .auto, _ => true
  | .forceA, .a => true
  | .forceB, .b => true
  | .forceA, .b | .forceB, .a | .forceHoldover, _ => false

/-- An allowed reference that is QUALIFIED is usable (R35). -/
def State.usable (s : State) (r : Ref) : Bool :=
  s.ml.params.policy.allows r && (s.rm.get r).qual == .qualified

/-- The usable reference, A first (R35). -/
def State.usableRef (s : State) : Option Ref :=
  if s.usable .a then some .a else if s.usable .b then some .b else none

/-- The other reference. -/
def otherRef : Ref → Ref
  | .a => .b
  | .b => .a

/-- A reference becomes the active one in the given mode, with the given build-out and an empty
step-confirmation history (R35, R40 to R43). -/
def State.follow (r : Ref) (mode : TbMode) (buildOut : Int) (cause : TbCause) (s : State) : State :=
  ((s.onRef r fun x => { x with buildOut := buildOut }).onDl fun d =>
    { d with history := [] }).setMode mode (some r) cause

/-- The return from B to A when all conditions of R42 hold. -/
def State.testRevert (s : State) : State :=
  match s.rm.a.qualifiedSince with
  | some q =>
    if s.ml.params.policy = .auto ∧ s.ml.params.revertive ∧ isFollowing s.dl.mode
        ∧ s.dl.active = some .b ∧ s.dl.search = none ∧ s.rm.a.qual = .qualified
        ∧ q + s.ml.params.revertHoldoff * 64000 ≤ s.tb.e then
      s.follow .a s.dl.mode 0 .revert
    else s
  | none => s

/-- A running search ends by an abort, and a return to A that it held back is made (R42, R49); nothing without one. -/
def State.endSearch (s : State) : State := if s.dl.search.isSome then s.abortSearch.testRevert else s

/-- In FREE_RUN or HOLDOVER the DL starts to acquire a usable reference (R35). -/
def State.acquire (cause : TbCause) (s : State) : State :=
  if isFollowing s.dl.mode then s
  else
    match s.usableRef with
    | none => s
    | some r =>
      let t := s.follow r .acquiring 0 cause
      let t := if s.ml.params.searchOnAcquire ∧ s.dl.mode = .freeRun then t.startSearch r else t
      t.testRevert

/-- No reference is followed any longer (R40, R41, R43). -/
def State.followNone (cause : TbCause) (s : State) : State :=
  (s.setMode (if s.dl.everLocked then .holdover else .freeRun) none cause).writeTrim s.dl.integral

/-- B's build-out at a switch from A in LOCKED (R41). -/
def switchBuildOut (s : State) : Int :=
  if s.ml.params.buildOut then
    wrapPhase (s.rm.b.lastErr.getD 0 - wrapPhase (s.rm.a.lastErr.getD 0 - s.rm.a.buildOut))
  else 0

/-- The switch to a usable reference from the active one, in ACQUIRING or LOCKED (R40, R41, R43). -/
def State.switchTo (r : Ref) (cause : TbCause) (s : State) : State :=
  let b := if s.dl.mode = .locked ∧ r = .b then switchBuildOut s else 0
  s.follow r s.dl.mode b cause

/-- The active reference has left QUALIFIED: any search is aborted, then the other reference is taken or
none (R40, R41). -/
def State.activeLost (r : Ref) (s : State) : State :=
  let t := s.abortSearch
  if t.usable (otherRef r) then t.switchTo (otherRef r) .fault else t.followNone .fault

/-- A changed reference policy, already written, is acted on (R43). -/
def State.policyChanged (s : State) : State :=
  let t := s.abortSearch
  if isFollowing t.dl.mode then
    match t.dl.active with
    | none => t.followNone .policy
    | some r =>
      if t.ml.params.policy.allows r then t.testRevert
      else if t.usable (otherRef r) then (t.switchTo (otherRef r) .policy).testRevert
      else t.followNone .policy
  else
    match t.usableRef with
    | some _ => t.acquire .policy
    | none => t.followNone .policy

/-- REVERT_WAIT_EXPIRY: the DL tests for the return to A (R42). -/
def execRevertWaitExpiry (s : State) : Host.Outcome State Fault Refusal := .next s.testRevert

/-! ### Step confirmation (R38) -/

/-- A second agrees with the newest entry of the history (R38). -/
def agreesWith (history : List (Int × Int)) (jitter : Nat) (w err : Int) : Bool :=
  match history.getLast? with
  | some (w0, e0) => w == w0 && (wrapPhase (err - e0)).natAbs ≤ jitter
  | none => false

/-- The history after a second that needs a step (R38). -/
def extendHistory (history : List (Int × Int)) (jitter : Nat) (w err : Int) : List (Int × Int) :=
  if agreesWith history jitter w err then history ++ [(w, err)] else [(w, err)]

/-- The amount in ticks of a step (R38). -/
def stepAmount (w err : Int) : Int := w * 64000 + roundTicks err

/-- The residual that a step leaves to the loop (R38). -/
def stepResidual (err : Int) : Int := err - roundTicks err * 15625

/-- A second of the active reference that needs a step goes to step confirmation; during a search a
confirmed step is deferred (R38, R49). -/
def State.confirmStep (r : Ref) (w err : Int) (s : State) : State :=
  let h := extendHistory s.dl.history s.ml.params.jitterLimit w err
  if h.length < 3 then s.onDl fun d => { d with history := h }
  else
    let step := (stepAmount w err, stepResidual err)
    (s.onRef r fun x => { x with buildOut := 0 }).onDl fun d =>
      match d.search with
      | some x => { d with history := [], search := some { x with deferred := some step } }
      | none => { d with history := [], confirmed := some step }

/-! ### The trim search's intervals (R48, R49) -/

/-- The search completes with the trim found (R49). -/
def State.completeSearch (found : Int) (x : Search) (s : State) : State :=
  (((s.onDl fun d =>
    { d with search := none, integral := found, confirmed := x.deferred.or d.confirmed }).writeTrim
      found).offer
        (timebaseRecord s.dl.active s.dl.mode s.dl.mode .searchDone s.tb.now)).testRevert

/-- The trim that a finished interval with phase difference `d` produces (R48). -/
def searchTrim (x : Search) (d : Int) : Int :=
  clampTrim (if 0 < d then x.trim + x.stepSize else if d < 0 then x.trim - x.stepSize else x.trim)

/-- A finished interval (R48). -/
def State.endInterval (x : Search) (d : Int) (s : State) : State :=
  if d = 0 ∨ x.stepSize ≤ 25 then s.completeSearch (searchTrim x d) x
  else
    (s.onDl fun l =>
      { l with search := some { x with trim := searchTrim x d, stepSize := x.stepSize / 2,
                                       armed := false, start := none } }).writeTrim (searchTrim x d)

/-- A good second of the search's reference (R48). -/
def State.searchSecond (err : Int) (s : State) : State :=
  match s.dl.search with
  | none => s
  | some x =>
    if x.armed then
      match x.start with
      | none => s.onDl fun d => { d with search := some { x with start := some (err, 0) } }
      | some (e0, n) =>
        if n < 2 then s.onDl fun d => { d with search := some { x with start := some (e0, n + 1) } }
        else s.endInterval x (wrapPhase (err - e0))
    else s

/-! ### The loop second (R36, R37, R40) -/

/-- The new integral of a loop computation (R37). -/
def newIntegral (i err : Int) (q : Nat) : Int := clampTrim (i + err / (2 ^ q : Nat))

/-- The new trim of a loop computation (R37). -/
def newTrim (i err : Int) (p : Nat) : Int := clampTrim (i + err / (2 ^ p : Nat))

/-- A loop computation, which in ACQUIRING also ends acquisition (R37, R40). -/
def State.runLoop (input : Int) (s : State) : State :=
  let i := newIntegral s.dl.integral input s.dl.q
  let t := (s.onDl fun d => { d with integral := i, history := [] }).writeTrim (newTrim i input s.dl.p)
  if s.dl.mode = .acquiring then (t.setMode .locked s.dl.active .lock).testRevert else t

/-- A second that is bad for the loop: the history is emptied, and a search interval starts again (R36,
R48). -/
def State.badSecond (s : State) : State :=
  s.onDl fun d =>
    { d with history := [], search := d.search.map fun x => { x with start := none } }

/-- The loop input of a second (R36). -/
def loopInput (s : State) (r : Ref) (err : Int) : Int := wrapPhase (err - (s.rm.get r).buildOut)

/-- The whole-seconds part of a reference's disagreement; 0 for B (R38). -/
def wholeSeconds (s : State) (r : Ref) : Int :=
  match r with
  | .a => s.rm.w
  | .b => 0

/-- A second needs a step (R36). -/
def needsStep (s : State) (r : Ref) (err : Int) : Bool :=
  s.ml.params.stepThreshold < (loopInput s r err).natAbs || wholeSeconds s r != 0

/-- The DL's part in a judged second of the active reference (R36, R39). -/
def State.loopSecond (r : Ref) (good : Bool) (err : Int) (s : State) : State :=
  if !good || s.tb.pendingStep.isSome then s.badSecond
  else
    match s.dl.search with
    | some _ =>
      let t := if needsStep s r err then s.confirmStep r (wholeSeconds s r) err
        else s.onDl fun d => { d with history := [] }
      t.searchSecond err
    | none =>
      if needsStep s r err then s.confirmStep r (wholeSeconds s r) err
      else s.runLoop (loopInput s r err)

end Sys2Proof.Machine
end

