-- ==== Sys2Proof/Machine/Reference.lean ====
section
/-! DEFINITION. The Reference Monitor (chapter 2): measuring and judging markers, qualification, A's time
message, and the commands B_MARKER, MARKER_MISSING_TIMEOUT and MARKER_ABSENT_TIMEOUT. -/

namespace Sys2Proof.Machine

/-! ### Measurement (R23) -/

/-- A measured phase: the error in ns and the station seconds of its boundary (R23). -/
structure Phase where
  err : Int
  seconds : Nat
  deriving DecidableEq, Repr

/-- The exact phase, in ns: the nearest local second boundary less the marker, the earlier boundary at the
halfway point (R23). `fine` is the marker's ns within its tick. -/
def exactPhase (t : Timebase) (fine : Fin 15625) : Int :=
  let after : Int := (tickOfSecond t.station : Int) * 15625 + fine.val
  if after ≤ 500000000 then -after else 1000000000 - after

/-- The exact phase brought to a multiple of 8 in −500,000,000..+499,999,992 (R23): a phase between two
multiples goes to one of them, and the spec does not say which. -/
def quantise (r : Ref) (e : Nat) (exact : Int) : Int :=
  let low := exact / 8 * 8
  if low = exact then low
  else if Config.phaseRoundsUp r e exact then min (low + 8) 499999992
  else low

/-- The measurement of a marker (R23). -/
def measure (r : Ref) (fine : Fin 15625) (t : Timebase) : Phase :=
  let exact := exactPhase t fine
  { err := quantise r t.e exact,
    seconds := if exact ≤ 0 then stationSeconds t.station else stationSeconds (t.station + 64000) }

/-! ### Classes (R26) -/

/-- The accuracy of a class in ns; class 7 gives none (R26). -/
def accuracyNs : Nat → Option Nat
  | 0 => some 100 | 1 => some 250 | 2 => some 1000 | 3 => some 10000 | 4 => some 100000
  | 5 => some 1000000 | 6 => some 10000000 | _ => none

/-- The class of a reference (R26). -/
def State.refClass (s : State) (r : Ref) : Nat :=
  match r with
  | .a => s.rm.aClass
  | .b => s.ml.params.bClass

/-! ### Judging a second (R27) -/

/-- The message conditions of R27: for A a message of the current second with a correct check and a class
other than 7, for B a class other than 7. -/
def State.messageGood (s : State) (r : Ref) : Bool :=
  match r with
  | .a =>
    match s.rm.message with
    | some m => m.correct && m.cls != 7
    | none => false
  | .b => s.ml.params.bClass != 7

/-- The timing conditions of R27, for a second from the last marker `last` with previous error `prev`. -/
def State.phaseGood (s : State) (last : Nat) (prev : Option Int) (err : Int) : Bool :=
  decide (s.tb.e ≤ last + 96000)
    && (match prev with
        | some p => decide ((wrapPhase (err - p)).natAbs ≤ s.ml.params.jitterLimit)
        | none => true)

/-- The reason of a bad second (R27). -/
def State.badReason (s : State) (r : Ref) : FaultReason :=
  if s.messageGood r then .jitter else .message

/-! ### Changes of qualification state (R28 to R32) -/

/-- The REF_STATE record (R32). -/
def refStateRecord (r : Ref) (old new : Qual) (reason : FaultReason) (cls : RecClass) (st : Stamp) :
    EventRecord :=
  mkRecord .refState cls (refCode (some r)) (qualCode old) (qualCode new) (faultCode reason) st

/-- A reference changes to qualification state `new`, with further changes `f` of its items, and its
record is offered: class A when the active reference leaves QUALIFIED (R32). -/
def State.changeQual (r : Ref) (new : Qual) (reason : FaultReason) (f : RefState → RefState) (s : State) :
    State :=
  let old := (s.rm.get r).qual
  let cls := if s.dl.active = some r ∧ old = .qualified then RecClass.a else .b
  (s.onRef r fun x => { f x with qual := new }).offer (refStateRecord r old new reason cls s.tb.now)

/-- A QUALIFIED reference faults: holdoff, record, and the DL's reaction when it was active (R29, R41). -/
def State.faultRef (r : Ref) (reason : FaultReason) (s : State) : State :=
  let t := s.changeQual r .faulted reason fun x =>
    { x with fault := reason, holdoffEnd := some (s.tb.e + 128000), count := 0, qualifiedSince := none }
  if s.dl.active = some r then t.activeLost r else t

/-- A good second brings the count to the qualify count (R28): the DL acquires, or tests for a revert
(R35, R42). -/
def State.qualifyRef (r : Ref) (s : State) : State :=
  let t := s.changeQual r .qualified .none fun x => { x with qualifiedSince := some s.tb.e }
  if isFollowing t.dl.mode then t.testRevert else t.acquire .qualified

/-- The qualification step of a judged second (R28 to R30); `prevBad` is the second before it. -/
def State.qualStep (r : Ref) (good prevBad : Bool) (s : State) : State :=
  let x := s.rm.get r
  match x.qual with
  | .absent => s
  | .qualifying =>
    if good then
      let t := s.onRef r fun y => { y with count := y.count + 1 }
      if s.ml.params.qualifyCount ≤ x.count + 1 then t.qualifyRef r else t
    else s.onRef r fun y => { y with count := 0 }
  | .qualified => if !good && prevBad then s.faultRef r (s.badReason r) else s
  | .faulted =>
    if good ∧ x.holdoffEnd.getD 0 ≤ s.tb.e then
      s.changeQual r .qualifying .none fun y => { y with count := 1, fault := .none }
    else s

/-! ### Markers (R22 to R28) -/

/-- The marker becomes the last marker and its error the last phase error (R23, R27). -/
def State.noteMarker (r : Ref) (err : Int) (s : State) : State :=
  s.onRef r fun x => { x with lastMarker := some s.tb.e, lastErr := some err }

/-- A's message of the current second is cleared once its marker has been evaluated (R25). -/
def State.clearMessage (r : Ref) (s : State) : State :=
  match r with
  | .a => { s with rm := { s.rm with message := none } }
  | .b => s

/-- The seconds agreement that a good second of A sets (R27). -/
def State.agreeSeconds (r : Ref) (good : Bool) (boundarySeconds : Nat) (s : State) : State :=
  match r, good, s.rm.message with
  | .a, true, some m =>
    let w : Int := (m.seconds : Int) - boundarySeconds
    { s with rm := { s.rm with w := w, agree := if w = 0 then satAdd 255 s.rm.agree 1 else 0 } }
  | _, _, _ => s

/-- A marker in ABSENT opens the reference's first second (R28). -/
def State.openRef (r : Ref) (err : Int) (s : State) : State :=
  ((s.changeQual r .qualifying .none fun x => { x with count := 0, fault := .none }).noteMarker r
    err).clearMessage r

/-- The DL acts on the second of a reference that it followed at the marker and follows still (R36). -/
def State.followSecond (r : Ref) (followed good : Bool) (err : Int) (s : State) : State :=
  if followed ∧ s.dl.active = some r ∧ isFollowing s.dl.mode then s.loopSecond r good err else s

/-- A marker that closes a second from the last marker `last` (R27). -/
def State.judgeMarker (r : Ref) (last : Nat) (p : Phase) (s : State) : State :=
  let x := s.rm.get r
  let good := s.messageGood r && s.phaseGood last x.lastErr p.err
  let followed := s.dl.active = some r && isFollowing s.dl.mode
  let t := (s.noteMarker r p.err).onRef r fun y => { y with prevBad := !good }
  let t := (t.agreeSeconds r good p.seconds).qualStep r good x.prevBad
  (t.clearMessage r).followSecond r followed good p.err

/-- A marker of a reference at `fine` ns within the current tick (R22, R23, R27, R28). -/
def State.takeMarker (r : Ref) (fine : Fin 15625) (s : State) : State :=
  let p := measure r fine s.tb
  match (s.rm.get r).qual, (s.rm.get r).lastMarker with
  | .absent, _ => s.openRef r p.err
  | _, none => (s.noteMarker r p.err).clearMessage r
  | _, some last => s.judgeMarker r last p

/-- An edge on the backup pulse line is a marker of B when the line was low for at least 1 µs before it
and stays high for at least 1 µs after it (R65); in reset there is none (R1, R21). -/
def State.takePulse (fine : Fin 15625) (p : Pulse) (s : State) : State :=
  if s.inReset = false ∧ 1000 ≤ p.lowNs ∧ 1000 ≤ p.highNs then s.takeMarker .b fine else s

/-- B_MARKER. -/
def execBMarker (fine : Fin 15625) (p : Pulse) (s : State) : Host.Outcome State Fault Refusal :=
  .next (s.takePulse fine p)

/-! ### A's time message (R25) -/

/-- The assembly of A's time message is discarded (R25). -/
def State.dropAssembly (s : State) : State := { s with rm := { s.rm with assembly := [] } }

/-- A completed message becomes the message of the current second, and a correct one with a class other than
7 sets the accuracy class of A (R25, R26). -/
def State.completeMessage (m : TimeMessage) (s : State) : State :=
  { s with rm := { s.rm with assembly := [], message := some m,
                             aClass := if m.correct && m.cls != 7 then m.cls else s.rm.aClass } }

/-- A time octet is taken (R25). -/
def State.takeTimeOctet (o : Octet) (s : State) : State :=
  let l := s.rm.assembly
  if l = [] then
    if o = startOctet then { s with rm := { s.rm with assembly := [o] } } else s
  else if l.length < 7 then { s with rm := { s.rm with assembly := l ++ [o] } }
  else s.completeMessage (timeMessageOf (l ++ [o]))

/-! ### Timeouts (R28 to R30) and link loss (R31) -/

/-- 1.5 s without a marker fault a QUALIFIED reference (R29). -/
def State.markerMissing (r : Ref) (s : State) : State :=
  match (s.rm.get r).qual, (s.rm.get r).lastMarker with
  | .qualified, some m => if m + 96000 ≤ s.tb.e then s.faultRef r .missing else s
  | _, _ => s

/-- MARKER_MISSING_TIMEOUT. -/
def execMarkerMissingTimeout (r : Ref) (s : State) : Host.Outcome State Fault Refusal :=
  .next (s.markerMissing r)

/-- A reference becomes ABSENT: its last marker and last error become none (R28, R30). -/
def State.loseRef (r : Ref) (s : State) : State :=
  s.changeQual r .absent .none fun x => { x with lastMarker := none, lastErr := none }

/-- 3 s without a marker make a QUALIFYING or FAULTED reference ABSENT (R28, R30). -/
def State.markerAbsent (r : Ref) (s : State) : State :=
  match (s.rm.get r).qual, (s.rm.get r).lastMarker with
  | .qualifying, some m => if m + 192000 ≤ s.tb.e then s.loseRef r else s
  | .faulted, some m => if m + 192000 ≤ s.tb.e then s.loseRef r else s
  | _, _ => s

/-- MARKER_ABSENT_TIMEOUT. -/
def execMarkerAbsentTimeout (r : Ref) (s : State) : Host.Outcome State Fault Refusal :=
  .next (s.markerAbsent r)

/-- Reference A at the entry to LOF (R31). -/
def State.linkLossA (s : State) : State :=
  let t := { s with rm := { s.rm with assembly := [], message := none } }
  match s.rm.a.qual with
  | .qualified => t.faultRef .a .link
  | .qualifying =>
    t.changeQual .a .absent .none fun x => { x with count := 0, lastMarker := none, lastErr := none }
  | .absent | .faulted => t

end Sys2Proof.Machine
end

