-- ==== Sys2Proof/Machine/Timebase.lean ====
section
/-! DEFINITION. The Timebase (chapter 1): how E moves, the local second boundary, the application of steps and
time settings, and the commands LOCAL_SECOND_BOUNDARY and STEP_APPLICATION. -/

namespace Sys2Proof.Machine

/-- The TB's items changed. -/
def State.onTb (f : Timebase → Timebase) (s : State) : State := { s with tb := f s.tb }

/-! ### The tick (R2, R3) -/

/-- One tick in units of the carried fraction. -/
abbrev fractionUnit : Nat := 1000000000

/-- How many nominal ticks of the oscillator one tick takes under trim `t` with a carried fraction: none when
a whole tick is carried, two when one does not suffice, one otherwise (R2). -/
def tickIntervals (fraction : Nat) (t : Int) : Nat :=
  if fractionUnit ≤ fraction then 0 else if 0 ≤ (fraction : Int) + t then 1 else 2

/-- The carried fraction after one tick: each nominal tick of the oscillator brings 1 + t × 10^−9 ticks and the
tick made takes 1 (R2). -/
def carry (fraction : Nat) (t : Int) : Nat :=
  ((fraction : Int) + tickIntervals fraction t * ((fractionUnit : Int) + t) - fractionUnit).toNat

/-- E one tick later (R3); what it becomes after the top of its range is not stated. -/
def nextElapsed (e : Nat) : Nat := if e + 1 < 281474976710656 then e + 1 else Config.elapsedAfterTop.val

/-- One tick (R2, R3). -/
def Timebase.advance (t : Timebase) : Timebase :=
  { t with e := nextElapsed t.e, fraction := carry t.fraction t.trim }

/-! ### A change of Δ (R11, R16, R24) -/

/-- The last phase error of a reference as if measured after Δ changed by `c` ticks (R24). -/
def RefState.shift (c : Int) (x : RefState) : RefState :=
  { x with lastErr := x.lastErr.map fun err => wrapPhase (err - c * 15625) }

/-- The new offset: the step count rises, the unset flag clears and the last phase errors move (R10, R11,
R15, R24). -/
def State.setOffset (delta : Int) (s : State) : State :=
  let c := delta - s.tb.delta
  { s with
    tb := { s.tb with delta := delta, stepCount := (s.tb.stepCount + 1) % 256, unset := false }
    rm := { s.rm with a := s.rm.a.shift c, b := s.rm.b.shift c } }

/-! ### The uncertainty (R17, R18) -/

/-- The top of U. -/
abbrev uTop : Nat := 4000000000

/-- U replaced, saturating at its top. -/
def State.setU (u : Nat) (s : State) : State := s.onTb fun t => { t with u := min u uTop }

/-- The timebase mode and active reference at the end of the second that a boundary at this tick closes
(R17): a change at the boundary tick belongs to the second that begins there. -/
def State.closingMode (s : State) : TbMode × Option Ref :=
  match s.dl.before with
  | some b => if b.tick = s.tb.e then (b.mode, b.active) else (s.dl.mode, s.dl.active)
  | none => (s.dl.mode, s.dl.active)

/-- The recomputed U of LOCKED with an active reference (R17): its accuracy plus |e|, or growth where the
class gives no accuracy or A's seconds disagree. -/
def State.lockedU (s : State) (r : Ref) : Nat :=
  match accuracyNs (s.refClass r), (s.rm.get r).lastErr with
  | some acc, some err =>
    if r = .a ∧ s.rm.agree = 0 then s.tb.u + s.ml.params.driftBound else acc + err.natAbs
  | _, _ => s.tb.u + s.ml.params.driftBound

/-- The recomputed U before saturation (R17). -/
def State.grownU (s : State) : Nat :=
  match s.closingMode with
  | (.freeRun, _) => s.tb.u + 50000
  | (.acquiring, _) => s.tb.u + s.ml.params.driftBound
  | (.holdover, _) => s.tb.u + s.ml.params.driftBound
  | (.locked, some r) => s.lockedU r
  | (.locked, none) => s.tb.u + s.ml.params.driftBound

/-- U recomputed at a local second boundary; held at its top while time is unset (R17). -/
def State.recomputeU (s : State) : State :=
  if s.tb.unset then s.setU uTop else s.setU s.grownU

/-- The accuracy of the active reference at a step that sets time (R18); not stated without one. -/
def State.activeAccuracy (s : State) : Nat :=
  match s.dl.active with
  | none => Config.unstatedAccuracy s.tb.e
  | some r =>
    match accuracyNs (s.refClass r) with
    | some acc => acc
    | none => Config.unstatedAccuracy s.tb.e

/-! ### Steps (R9, R10, R13, R46) -/

/-- The residual of two merged step decisions; not stated (R9, R38). -/
def mergedResidual (x y : Int) : Int := (Config.mergedResidual x y).val - 7813

/-- A step decision taken at the boundary `e` becomes the pending step, or is merged into it (R9). -/
def mergeStep (pending : Option PendingStep) (e : Nat) (amount residual : Int) : PendingStep :=
  match pending with
  | none => { amount := amount, applyAt := 16 * (e / 16 + 1), residual := residual }
  | some p => { p with amount := p.amount + amount, residual := mergedResidual p.residual residual }

/-- A confirmed step is handed to the TB at the boundary (R38). -/
def State.handStep (s : State) : State :=
  match s.dl.confirmed with
  | none => s
  | some (amount, residual) =>
    (s.onTb fun t => { t with pendingStep := some (mergeStep t.pendingStep t.e amount residual) }).onDl
      fun d => { d with confirmed := none }

/-- The offset after a step of `k` ticks applied at E `e`, clamped so that station time stays within 0 and
its top value (R10). -/
def steppedOffset (e : Nat) (delta k : Int) : Int :=
  if (e : Int) + delta + k < 0 then -(e : Int)
  else if stationTop < (e : Int) + delta + k then stationTop - e
  else delta + k

/-- The TIME_STEP record (R13, R46), made after the step. -/
def timeStepRecord (active : Option Ref) (before after : Nat) (applied : Int) (st : Stamp) : EventRecord :=
  mkRecord .timeStep .a (refCode active) before after (auxAmount applied) st

/-- A change of Δ in force: the class is evaluated, the record of the change is offered before any QUALITY
record, and the HC evaluates local time last (R13, R15, R19, R140). `old` and `wasUnset` are the class and
the unset flag before the change. -/
def State.reportOffset (old : Quality) (wasUnset : Bool) (record : Stamp → EventRecord) (s : State) :
    State :=
  let t := s.takeClass
  let t := t.offer (record t.tb.now)
  (t.reportClass old).onLocalTime wasUnset

/-- The pending step is applied (R10, R11, R13, R18, R24, R46). Where the DL has switched to the other reference since the
step was decided, both clauses of R46 fit: the Source is then the reference that is active at the application (DESIGN
CHOICE, log entry 50). -/
def State.applyStep (p : PendingStep) (s : State) : State :=
  let delta := steppedOffset s.tb.e s.tb.delta p.amount
  let t := (s.setOffset delta).onTb fun x => { x with pendingStep := none }
  let t := if s.tb.unset then t.setU (s.activeAccuracy + p.residual.natAbs) else t
  t.reportOffset s.tb.quality s.tb.unset
    (timeStepRecord s.dl.active s.tb.stepCount t.tb.stepCount (delta - s.tb.delta))

/-- E has reached the application tick of the pending step (R10). -/
def State.stepApplies (s : State) : State :=
  match s.tb.pendingStep with
  | none => s
  | some p => if p.applyAt ≤ s.tb.e then s.applyStep p else s

/-- STEP_APPLICATION. -/
def execStepApplication (s : State) : Host.Outcome State Fault Refusal := .next s.stepApplies

/-! ### The local second boundary (R4, R6, R12, R15, R17, R34, R64) -/

/-- The TIME_SET record (R15), made after the setting. -/
def timeSetRecord (before after : Nat) (change : Int) (st : Stamp) : EventRecord :=
  mkRecord .timeSet .a 0 before after (auxAmount change) st

/-- The pending time setting is applied at the boundary (R15). -/
def State.applySetting (x : TimeSetting) (s : State) : State :=
  let delta : Int := (x.seconds : Int) * 64000 - s.tb.e
  let t := ((s.setOffset delta).onTb fun y => { y with pendingSetting := none }).setU x.accuracy
  t.reportOffset s.tb.quality s.tb.unset
    (timeSetRecord s.tb.stepCount t.tb.stepCount (delta - s.tb.delta))

/-- U is recomputed and the class evaluated, and the HC evaluates local time (R17, R19, R140). -/
def State.plainSecond (s : State) : State :=
  (s.recomputeU.takeClass.reportClass s.tb.quality).onLocalTime false

/-- What every boundary latches: the trim, P and Q, the slip flags, and the trim of a search interval (R4,
R34, R48, R64). -/
def State.latchSecond (s : State) : State :=
  { s with
    tb := { s.tb with trim := s.tb.pendingTrim, lastBoundary := some s.tb.e }
    dl := { s.dl with p := s.ml.params.p, q := s.ml.params.q,
                      search := s.dl.search.map fun x => { x with armed := true } }
    up := { s.up with recordMade := false }
    down := { s.down with recordMade := false } }

/-- A local second boundary (R6). -/
def State.takeBoundary (s : State) : State :=
  let t := s.latchSecond.handStep
  match s.tb.pendingSetting with
  | some x => t.applySetting x
  | none => t.plainSecond

/-- The boundary is recognised at a tick whose tick of second is 0, once, and not in reset (R1, R6). -/
def State.secondBoundary (s : State) : State :=
  if !s.inReset && s.tb.boundaryDue then s.takeBoundary else s

/-- LOCAL_SECOND_BOUNDARY. -/
def execLocalSecondBoundary (s : State) : Host.Outcome State Fault Refusal := .next s.secondBoundary

end Sys2Proof.Machine
end

