-- ==== Sys2Proof/WellFormed.lean ====
section
/-! DEFINITION. Which commands are well formed. The operand types carry their own bounds (channels,
units, groups, the ns of a tick), so one check is left: a frame taken has its sync (R52, 11.1). -/

namespace Sys2Proof

/-- The frame sync 0x1B, 0xA7 stands in octets 0 and 1 (11.1). -/
def DownFrame.hasSync (f : DownFrame) : Bool :=
  f.sync0 == 0x1B#8 && f.sync1 == 0xA7#8

/-- A command is well formed unless it is FRAME_TAKEN with a frame whose sync is absent. -/
def Instr.wellFormed : Instr → Bool
  | .frameTaken _ f => f.hasSync
  | .powerOnReset _ | .localSecondBoundary | .stepApplication | .huntSyncFound _ | .huntSyncAbsent
  | .syncAbsentFrame | .bMarker _ _ | .markerMissingTimeout _ | .markerAbsentTimeout _
  | .revertWaitExpiry | .upwardFrameStart | .upwardFrameEnd | .downlinkFrameStart | .look _ _
  | .quietDeadline _ | .cascadeClose _ | .incidentHoldEnd | .startTimeout _ | .dutyClaim | .accept
  | .release | .query | .windowExpiry | .releaseExpiry | .settleEnd | .replyTimeout | .readStatus
  | .readTime | .setTime | .writeP | .writeQ | .writeStepThreshold | .writeJitterLimit
  | .writeQualifyCount | .writeBClass | .writeHoldoverDriftBound | .writeReferencePolicy
  | .writeRevertive | .writeRevertHoldoff | .writeBuildOut | .writeSearchOnAcquire
  | .writeStoreDepth | .writeChatterWindow | .writeCascadeWindow | .writeTripHold
  | .writeHandoverWindow | .writeReleaseLimit | .writeScheduleMode | .writeLocalOffset | .readParam
  | .writeChannel | .readChannel | .restartChannel | .writeUnit | .readTally | .presetTally
  | .writeSchedule | .readSchedule | .readShift | .trimSearchStart | .trimSearchAbort | .warmRestart
  | .warmRestartActs | .tick | .unknownRequest => true

end Sys2Proof
end

