-- ==== Sys2Proof/Machine/Link.lean ====
section
/-! DEFINITION. The Station Link Interface (chapter 3) with the link layer of the Management Link (chapter
10) and the Report Arbiter (chapter 5): the commands HUNT_SYNC_FOUND, HUNT_SYNC_ABSENT, FRAME_TAKEN,
SYNC_ABSENT_FRAME, UPWARD_FRAME_START, UPWARD_FRAME_END and REPLY_TIMEOUT. -/

namespace Sys2Proof.Machine

/-- The SLI's items changed. -/
def State.onSli (f : StationLink → StationLink) (s : State) : State := { s with sli := f s.sli }

/-- The ML's items changed. -/
def State.onMl (f : MgmtLink → MgmtLink) (s : State) : State := { s with ml := f s.ml }

/-- The RA's items changed. -/
def State.onRa (f : Arbiter → Arbiter) (s : State) : State := { s with ra := f s.ra }

/-! ### The end of a reply (R175, R176, R183) -/

/-- The request is a WARM_RESTART that was taken: its kind octet alone (R183, 11.5). -/
def isWarmRestart (req : List Octet) : Bool := req == [0x60#8]

/-- The request buffer after the reply has ended: empty, except for a WARM_RESTART (R175, R176, R183). -/
def RequestBuffer.afterReply : RequestBuffer → RequestBuffer
  | .executed req => if isWarmRestart req then .executed req else .empty
  | b => b

/-- The reply has ended at the acknowledgement of its Last octet (R175). -/
def MgmtLink.endReply (m : MgmtLink) : MgmtLink :=
  { m with reply := [], tx := .idle, request := m.request.afterReply }

/-- The reply is abandoned (R176). -/
def MgmtLink.abandonReply (m : MgmtLink) : MgmtLink :=
  { m with reply := [], tx := .abandoning 2, request := m.request.afterReply,
           abandonedReplies := satAdd top16 m.abandonedReplies 1 }

/-- The octet being shown has been shown in 80 upward frames without being acknowledged (R176). -/
def MgmtLink.timeout (m : MgmtLink) : MgmtLink :=
  match m.tx with
  | .sending _ _ shown => if 80 ≤ shown then m.abandonReply else m
  | .idle | .abandoning _ => m

/-- REPLY_TIMEOUT. -/
def execReplyTimeout (s : State) : Host.Outcome State Fault Refusal := .next (s.onMl MgmtLink.timeout)

/-! ### Reading the downward management field (R172 to R174) -/

/-- The answers of a field: a double-looked Echo is the last Echo taken; a double-looked Stop abandons the
reply in SENDING, before any acknowledgement; an Echo equal to the Turn of the octet shown acknowledges it
(R172, R175, R176). R176 does not act on an Echo in ABANDONING and IDLE and does not say whether it is still taken: here
every double-looked Echo becomes the last Echo taken, in every transmit state, and so sets the Turn of the next reply's
first octet (DESIGN CHOICE, log entry 49). -/
def MgmtLink.readAnswers (p f : MgmtField) (m0 : MgmtLink) : MgmtLink :=
  let m := if sameEcho p f then { m0 with lastEcho := some f.echo } else m0
  match m.tx with
  | .idle | .abandoning _ => m
  | .sending i turn shown =>
    if bothStop p f then m.abandonReply
    else if sameEcho p f ∧ f.echo = turn ∧ 1 ≤ shown then
      if i + 1 < m.reply.length then { m with tx := .sending (i + 1) (!turn) 0 } else m.endReply
    else m

/-- Reception abandoned without Stop: the partial request is discarded (R174). -/
def MgmtLink.abandonReception (m : MgmtLink) : MgmtLink :=
  { m with rx := .idle, lastTurn := none,
           request := match m.request with
             | .partialRequest _ => .empty
             | b => b }

/-- Reception abandoned with Stop in the next two upward frames (R174). -/
def MgmtLink.stopReception (m : MgmtLink) : MgmtLink :=
  { m.abandonReception with rx := .stopping 2 }

/-- The request buffer is busy (R177). -/
def RequestBuffer.busy : RequestBuffer → Bool
  | .complete _ | .executed _ => true
  | .empty | .partialRequest _ => false

/-- The octets of the message being received. -/
def RequestBuffer.octets : RequestBuffer → List Octet
  | .empty => []
  | .partialRequest l | .complete l | .executed l => l

/-- A message octet is taken and echoed: `l` is the message with it (R173). -/
def MgmtLink.takeOctet (l : List Octet) (f : MgmtField) (m : MgmtLink) : MgmtLink :=
  { m with lastTurn := some f.turn, echoSent := f.turn,
           rx := if f.last then .idle else .receiving l.length,
           request := if f.last then .complete l else .partialRequest l }

/-- The octet may be taken: its Turn differs from the last taken Turn, or there is none and it is a First
octet (R173). -/
def MgmtLink.wants (f : MgmtField) (m : MgmtLink) : Bool :=
  match m.lastTurn with
  | none => f.first
  | some t => f.turn != t

/-- An octet whose double look completes (R173, R174). -/
def MgmtLink.readOctet (f : MgmtField) (m : MgmtLink) : MgmtLink :=
  if m.wants f then
    match m.rx with
    | .stopping _ => m
    | .idle =>
      if f.first then if m.request.busy then m.stopReception else m.takeOctet [f.octet] f else m
    | .receiving n =>
      if f.first then if m.request.busy then m.stopReception else m.takeOctet [f.octet] f
      else if 64 ≤ n then m.stopReception
      else m.takeOctet (m.request.octets ++ [f.octet]) f
  else m

/-- Two consecutive read frames with Valid inactive in RECEIVING abandon reception (R174). -/
def MgmtLink.readInvalid (p f : MgmtField) (m : MgmtLink) : MgmtLink :=
  match m.rx with
  | .receiving _ => if !p.valid && !f.valid then m.abandonReception else m
  | .idle | .stopping _ => m

/-- The ML reads the downward field of a frame (R172). -/
def MgmtLink.read (f : MgmtField) (m : MgmtLink) : MgmtLink :=
  let m1 := match m.previous with
    | none => m
    | some p =>
      let a := m.readAnswers p f
      if sameOctet p f then a.readOctet f else a.readInvalid p f
  { m1 with previous := some f }

/-! ### The hunt for frame alignment (R51, R55) -/

/-- The link returns to IN_FRAME: both stores are recentred, the downward one from all-ones, and the upward
timing becomes LOOP (R55, R56, R62). -/
def State.regainAlignment (s : State) : State :=
  ({ s with down := { s.down with last := onesFrame } }.recentreBoth).onSli fun x =>
    { x with alignment := .inFrame, hunt := .searching, missing := 0, upTiming := .loop, upDue := none }

/-- A frame sync at received bit position `pos` (R51); in reset the search stands (R1, R50). The position of the sync
that completes the count of 3 stays the expected position: its frame is the first one taken. -/
def State.syncFound (pos : Nat) (s : State) : State :=
  match s.sli.alignment, s.sli.hunt with
  | .inFrame, _ => s
  | .lof, .searching =>
    if s.inReset = false ∧ s.sli.searchFrom ≤ pos then
      s.onSli fun x => { x with hunt := .confirming 1, expected := some (pos + bitsPerFrame) }
    else s
  | .lof, .confirming n =>
    if s.sli.expected = some pos then
      if n + 1 < 3 then
        s.onSli fun x => { x with hunt := .confirming (n + 1), expected := some (pos + bitsPerFrame) }
      else s.regainAlignment
    else s

/-- HUNT_SYNC_FOUND. -/
def execHuntSyncFound (pos : Nat) (s : State) : Host.Outcome State Fault Refusal :=
  .next (s.syncFound pos)

/-- A sync absent at the expected position in CONFIRMING: the search resumes at the bit after the position at
which the failed candidate began (R51). -/
def State.syncMissed (s : State) : State :=
  match s.sli.alignment, s.sli.hunt, s.sli.expected with
  | .lof, .confirming n, some x =>
    s.onSli fun l =>
      { l with hunt := .searching, expected := none, searchFrom := x - bitsPerFrame * n + 1 }
  | _, _, _ => s

/-- HUNT_SYNC_ABSENT. -/
def execHuntSyncAbsent (s : State) : Host.Outcome State Fault Refusal := .next s.syncMissed

/-! ### Frames taken in IN_FRAME (R52, R53, R56) -/

/-- Ticks from the start of a taken frame to the start of its upward frame (R65's table). -/
abbrev transmitLatency : Nat := 2

/-- When the upward frame of a frame taken now starts: none when an upward frame timed from E is still in
progress (R56). -/
def State.upwardDue (s : State) : Option Nat :=
  match s.sli.up with
  | some u =>
    if u.source = .elapsed ∧ s.tb.e < u.start + ticksPerFrame then none
    else some (s.tb.e + transmitLatency)
  | none => some (s.tb.e + transmitLatency)

/-- A frame is taken at its expected position: the next one is due a frame length later, and an upward frame
follows it (R52, R56). -/
def State.paceFrame (s : State) : State :=
  s.onSli fun x => { x with expected := x.expected.map (· + bitsPerFrame), upDue := s.upwardDue }

/-- A flagged frame gives a marker of reference A at its start instant; the marker comes before the time
octet and discards the message under assembly (R22, R25). -/
def State.frameMarker (fine : Fin 15625) (f : DownFrame) (s : State) : State :=
  if markerFlag f then s.dropAssembly.takeMarker .a fine else s

/-- A frame whose sync is present is delivered whole (R52). -/
def State.deliverFrame (fine : Fin 15625) (f : DownFrame) (s : State) : State :=
  ((((s.onSli fun x => { x with missing := 0 }).paceFrame.frameMarker fine f).takeTimeOctet f.time).onMl
    (MgmtLink.read (mgmtFieldOf f))).writeStore .down f.commands

/-- FRAME_TAKEN happens in IN_FRAME to a frame that has its sync (R52). -/
def State.takeFrame (fine : Fin 15625) (f : DownFrame) (s : State) : State :=
  if s.sli.alignment = .inFrame ∧ f.hasSync then s.deliverFrame fine f else s

/-- FRAME_TAKEN. -/
def execFrameTaken (fine : Fin 15625) (f : DownFrame) (s : State) : Host.Outcome State Fault Refusal :=
  .next (s.takeFrame fine f)

/-- The entry to LOF (R54): the hunt begins with the next received bit, reference A is lost, reception is
abandoned, and the upward timing changes to E. -/
def State.enterLof (s : State) : State :=
  ((s.onSli fun x =>
    { x with alignment := .lof, hunt := .searching, expected := none,
             searchFrom := x.expected.getD 0 + 1, upTiming := .elapsed,
             upDue := none }).linkLossA).onMl fun m => { m.abandonReception with previous := none }

/-- A frame with an absent sync that is still taken: nothing in it is trusted (R53). -/
def State.takeBroken (s : State) : State :=
  ((s.paceFrame.dropAssembly).onMl (MgmtLink.read brokenField)).writeStore .down onesFrame

/-- A frame whose sync is absent at its expected position (R53, R54). -/
def State.syncAbsent (s : State) : State :=
  if s.sli.alignment = .inFrame then
    let t := s.onSli fun x =>
      { x with missing := min (x.missing + 1) 4, syncErrors := satAdd top16 x.syncErrors 1 }
    if t.sli.missing < 4 then t.takeBroken else t.enterLof
  else s

/-- SYNC_ABSENT_FRAME. -/
def execSyncAbsentFrame (s : State) : Host.Outcome State Fault Refusal := .next s.syncAbsent

/-! ### The Report Arbiter at an upward frame start (R99, R100, R103, R104) -/

/-- The idle frames that a class needs at a level before it may start a record (R99). -/
def threshold (c : RecClass) (l : Level) : Nat :=
  match c, l with
  | .a, .normal => 1 | .a, .lowered => 2 | .b, .normal => 2 | .b, .lowered => 3

/-- The level of a class. -/
def Arbiter.level (c : RecClass) (r : Arbiter) : Level :=
  match c with
  | .a => r.levelA
  | .b => r.levelB

/-- The oldest record of a class in the EQ (R100). -/
def EventQueue.oldest (c : RecClass) (q : EventQueue) : Option EventRecord :=
  q.records.find? (·.cls == c)

/-- A class is eligible (R100). -/
def eligible (q : EventQueue) (r : Arbiter) (c : RecClass) : Bool :=
  (q.oldest c).isSome && threshold c (r.level c) ≤ r.idle

/-- The class that starts a record (R100). -/
def startingClass (q : EventQueue) (r : Arbiter) : Option RecClass :=
  if eligible q r .a && eligible q r .b then
    some (if r.lastSender = some .a then .b else .a)
  else if eligible q r .a then some .a
  else if eligible q r .b then some .b
  else none

/-- The report slot of one frame: what it carries, its two octets and the Record-start flag. -/
structure SlotContents where
  use : SlotUse
  first : Octet
  second : Octet
  recordStart : Bool
  deriving DecidableEq, Repr

/-- Idle contents: two all-ones octets with Record-start clear (R100). -/
def idleSlot (use : SlotUse) : SlotContents :=
  { use := use, first := 0xFF#8, second := 0xFF#8, recordStart := false }

/-- Frame `k` of a record's transmission, for k from 1 to 8 (R103). -/
def recordSlot (r : EventRecord) (k : Nat) : SlotContents :=
  { use := .record, first := (r.octets[2 * k - 2]?).getD 0xFF#8,
    second := (r.octets[2 * k - 1]?).getD 0xFF#8, recordStart := k == 1 }

/-- The RA decides the report slot of a frame that starts (R100, R104). -/
def decideSlot (q : EventQueue) (r : Arbiter) : Arbiter × SlotContents :=
  match r.sending with
  | some x =>
    ({ r with sending := some { x with frames := min (x.frames + 1) 8 } },
      recordSlot x.record (min (x.frames + 1) 8))
  | none =>
    if 0 < r.abandoned then ({ r with abandoned := r.abandoned - 1 }, idleSlot .abandoned)
    else
      match (startingClass q r).bind q.oldest with
      | some x => ({ r with sending := some { record := x, frames := 1 } }, recordSlot x 1)
      | none => (r, idleSlot .idle)

/-! ### The management field of an upward frame (R172, R175, R176) -/

/-- The transmit state once an upward frame starts: a waiting reply's first octet is placed in IDLE, an octet
shown counts one frame more, and the two frames after an abandonment are counted off (R175, R176). -/
def MgmtLink.startTx (m : MgmtLink) : TxState :=
  match m.tx with
  | .idle => if m.reply = [] then .idle else .sending 0 (!m.lastEcho.getD false) 1
  | .sending i turn shown => .sending i turn (min (shown + 1) 80)
  | .abandoning n => if n ≤ 1 then .idle else .abandoning (n - 1)

/-- The receive state once an upward frame with Stop starts (R174). -/
def RxState.afterStopFrame : RxState → RxState
  | .stopping n => if n ≤ 1 then .idle else .stopping (n - 1)
  | .idle => .idle
  | .receiving n => .receiving n

/-- The frame is one of the STOPPING state (R172). -/
def RxState.stops : RxState → Bool
  | .stopping _ => true
  | .idle | .receiving _ => false

/-- The octet with its flags that an upward frame shows: management octet and control octet (R172, 11.5). -/
def MgmtLink.shownOctets (tx : TxState) (m : MgmtLink) : Octet × Octet :=
  match m.tx, tx with
  | .abandoning _, _ => (0xFF#8, controlOctet false false false false m.echoSent m.rx.stops)
  | _, .sending i turn _ =>
    ((m.reply[i]?).getD 0xFF#8,
      controlOctet true turn (i == 0) (i + 1 == m.reply.length) m.echoSent m.rx.stops)
  | _, _ => (0xFF#8, controlOctet false false false false m.echoSent m.rx.stops)

/-- The ML once an upward frame starts. -/
def MgmtLink.startFrame (m : MgmtLink) : MgmtLink :=
  { m with tx := m.startTx, rx := m.rx.afterStopFrame }

/-! ### Upward frames (R56, R57, R101 to R103) -/

/-- An upward frame starts now: none is in progress, and it is due by loop timing, or it is a frame boundary of
E in timing by E (R56); in reset none starts (R1). -/
def State.upwardStarts (s : State) : Bool :=
  !s.inReset && s.sli.up.isNone
    && (match s.sli.upTiming with
        | .loop => match s.sli.upDue with | some x => decide (x ≤ s.tb.e) | none => false
        | .elapsed => s.tb.e % ticksPerFrame == 0)

/-- The 24 octets that a read of the upward store gives now (R63). -/
def Elastic.front (x : Elastic) : Vector Octet 24 :=
  match x.frames with
  | f :: _ => f
  | [] => x.last

/-- The contents of an upward frame that starts now, its pass-through octets the frame just read from the upward store
(R57, R186). -/
def State.upwardContents (slot : SlotContents) (s : State) : UpFrame :=
  let shown := s.ml.shownOctets s.ml.startTx
  { sync := frameSync,
    status := s.statusNow (s.sli.alignment == .lof),
    report0 := slot.first, report1 := slot.second,
    recordStart := octetOf (bitAt 7 slot.recordStart),
    mgmt := shown.1, control := shown.2, passthrough := s.up.last, fill := idleFill }

/-- The octets of an upward frame in the order of 11.1. -/
def UpFrame.octets (f : UpFrame) : List Octet :=
  f.sync.toList ++ [f.status, f.report0, f.report1, f.recordStart, f.mgmt, f.control] ++ f.passthrough.toList
    ++ f.fill.toList

/-- An upward frame starts with all its contents taken at this tick (R57, R100, R172): the RA decides the report slot, the
upward store is read, and the status octet shows what the EQ holds then, a SLIP record of this very read included. What the
rest of the tick changes comes into the status octet as the tick ends (`State.tick`). -/
def State.startUpward (s : State) : State :=
  let d := decideSlot s.eq s.ra
  let t := ({ s with ra := d.1 } : State).readStore .up
  (t.onSli fun x =>
    { x with upDue := none,
             up := some { start := s.tb.e, source := x.upTiming, slot := d.2.use,
                          frame := t.upwardContents d.2 } }).onMl MgmtLink.startFrame

/-- The frame starts if one is due. -/
def State.upwardStart (s : State) : State := if s.upwardStarts then s.startUpward else s

/-- UPWARD_FRAME_START. -/
def execUpwardFrameStart (s : State) : Host.Outcome State Fault Refusal := .next s.upwardStart

/-- The end of an idle frame (R101). -/
def Arbiter.idleFrame (r : Arbiter) : Arbiter :=
  if r.idle + 1 = 4 then { r with idle := 4, levelA := .normal, levelB := .normal }
  else { r with idle := satAdd 255 r.idle 1 }

/-- The completion of a record of a class (R102, R103). -/
def Arbiter.complete (c : RecClass) (r : Arbiter) : Arbiter :=
  match c with
  | .a => { r with levelA := .lowered, levelB := .normal, lastSender := some .a, sending := none }
  | .b => { r with levelA := .normal, levelB := .lowered, lastSender := some .b, sending := none }

/-- A record leaves the EQ and starts one release round (R96). -/
def State.leave (x : EventRecord) (s : State) : State :=
  { s with eq := { s.eq with records := s.eq.records.erase x } }.releaseRound

/-- The end of a frame that carries octets of a record: the idle count becomes 0, and after frame 8 the record
completes (R101 to R103). -/
def State.recordFrameEnds (s : State) : State :=
  let t := s.onRa fun r => { r with idle := 0 }
  match s.ra.sending with
  | some x => if x.frames = 8 then (t.onRa (Arbiter.complete x.record.cls)).leave x.record else t
  | none => t

/-- The end of an upward frame (R101, R104). -/
def State.endUpward (u : UpInProgress) (s : State) : State :=
  let t := s.onSli fun x => { x with up := none }
  match u.slot with
  | .record => t.recordFrameEnds
  | .idle => t.onRa Arbiter.idleFrame
  | .abandoned => t

/-- An upward frame ends: one timed from E after its 16 ticks, a loop-timed one with its received frame length
(R56). -/
def State.upwardEnd (s : State) : State :=
  match s.sli.up with
  | none => s
  | some u =>
    if u.source = .elapsed ∧ s.tb.e < u.start + ticksPerFrame then s else s.endUpward u

/-- UPWARD_FRAME_END. -/
def execUpwardFrameEnd (s : State) : Host.Outcome State Fault Refusal := .next s.upwardEnd

end Sys2Proof.Machine
end

