-- ==== Sys2Proof/Machine/UnitBus.lean ====
section
/-! DEFINITION. The Unit Bus Interface (chapter 3) with the console slot (chapter 8): the commands
DOWNLINK_FRAME_START and LOOK. -/

namespace Sys2Proof.Machine

/-- The UBI's items changed. -/
def State.onUbi (f : UnitBus → UnitBus) (s : State) : State := { s with ubi := f s.ubi }

/-- Frame number of the frame that starts at E (R58). -/
def frameNumber (e : Nat) : Nat := e / ticksPerFrame

/-! ### The downlink (R58, R60) -/

/-- Ticks from now to the first local second boundary at or after now (R6, R60). -/
def Timebase.toBoundary (t : Timebase) : Nat := (-t.station % 64000).toNat

/-- Octet 2 of a downlink: the second-start flag with its offset, and the message-start flag (R5, R58, 11.1). -/
def downlinkFlags (t : Timebase) : Octet :=
  let starts := decide (t.toBoundary < ticksPerFrame)
  octetOf (bitAt 7 starts + bitAt 6 (frameNumber t.e % 8 == 0) + if starts then t.toBoundary else 0)

/-- The seven octets of a time distribution message before its check octet (R60): the station seconds of the next
local second boundary, or 0 while time is unset, the quality class and the step count. -/
def distributionBody (t : Timebase) : List Octet :=
  natOctets 5 (if t.unset then 0 else stationSeconds (t.station + t.toBoundary))
    ++ [octetOf (if t.unset then 7 else t.quality.val), octetOf t.stepCount]

/-- A time distribution message taken from the Timebase (R60, R186). -/
def distributionOf (t : Timebase) : List Octet := distributionBody t ++ [checkOctet (distributionBody t)]

/-- The message under transmission: a new one begins at each frame whose number is a multiple of 8 (R60). -/
def State.distribution (s : State) : List Octet :=
  if frameNumber s.tb.e % 8 = 0 then distributionOf s.tb else s.ubi.distribution

/-- The console slot of a downlink that starts at `e`: the HC's items after it and its two octets (R145). -/
def Handover.downlinkSlot (e : Nat) (h0 : Handover) : Handover × Octet × Octet :=
  let h := h0.flush e
  if h.gap then ({ h with gap := false }, 0xFF#8, 0xFF#8)
  else
    match h.queue with
    | [] => (h, 0xFF#8, 0xFF#8)
    | m :: _ =>
      match h.tx with
      | none =>
        ({ h with tx := some { frames := 1, start := e } }, (m.octets[0]?).getD 0xFF#8,
          (m.octets[1]?).getD 0xFF#8)
      | some _ =>
        ({ h with tx := some { frames := 2, start := e } }, (m.octets[2]?).getD 0xFF#8,
          (m.octets[3]?).getD 0xFF#8)

/-- The grant field of the downlink of frame `n`: the console granted at the look before, 0 otherwise (R143). -/
def Handover.grantField (n : Nat) (h : Handover) : Nat :=
  match h.grant with
  | some g => if g.frame + 1 = n then g.console.val + 1 else 0
  | none => 0

/-- The 24 command octets of a downlink: read from the downward store, all-ones during LOF (R54, R58). -/
def State.downCommands (s : State) : Vector Octet 24 :=
  match s.sli.alignment with
  | .inFrame => s.down.front
  | .lof => onesFrame

/-- The downlink frame that starts now (R58). -/
def State.downlinkFrame (s : State) : DownlinkFrame :=
  { start := s.tb.e, sync := frameSync, flags := downlinkFlags s.tb,
    time := (s.distribution[frameNumber s.tb.e % 8]?).getD 0xFF#8,
    console0 := (s.hc.downlinkSlot s.tb.e).2.1, console1 := (s.hc.downlinkSlot s.tb.e).2.2,
    grant := octetOf (s.hc.grantField (frameNumber s.tb.e)), commands := s.downCommands }

/-- The octets of a downlink in the order of 11.1. -/
def DownlinkFrame.octets (f : DownlinkFrame) : List Octet :=
  f.sync.toList ++ [f.flags, f.time, f.console0, f.console1, f.grant] ++ f.commands.toList

/-- The downward store is read at a downlink, but not during LOF (R54, R58). -/
def State.readDown (s : State) : State :=
  match s.sli.alignment with
  | .inFrame => s.readStore .down
  | .lof => s

/-- A unit-bus frame starts, its downlink contents fixed at E_f (R58) as the changes of the tick taken before it leave them
(DESIGN CHOICE, log entry 53). -/
def State.startDownlink (s : State) : State :=
  ((s.onUbi fun x => { x with frame := some s.downlinkFrame, distribution := s.distribution }).onHc
    fun h => (h.downlinkSlot s.tb.e).1).readDown

/-- A frame starts at each tick at which E is a multiple of 16, once (R58), and not in reset (R1). -/
def State.downlinkDue (s : State) : Bool :=
  !s.inReset && s.tb.e % ticksPerFrame == 0
    && (match s.ubi.frame with | some f => f.start != s.tb.e | none => true)

/-- The frame starts if it is due. -/
def State.downlinkStart (s : State) : State := if s.downlinkDue then s.startDownlink else s

/-- DOWNLINK_FRAME_START. -/
def execDownlinkFrameStart (s : State) : Host.Outcome State Fault Refusal := .next s.downlinkStart

/-! ### The console slot at a look (R143, R144) -/

/-- A granted message is complete: its console becomes LOWERED and the grant in progress none (R144). -/
def Handover.endGrant (c : Console) (h : Handover) : Handover :=
  { h with grant := none, levels := h.levels.set c.val .lowered c.isLt }

/-- The console uplink octets of a grant in progress are taken at the look of frame `n`: the first half at frame
f + 2, the second at f + 3, with the message completed then, if well formed (R144). -/
def Handover.takeHalf (u : Uplink) (e n : Nat) (h : Handover) : Handover × Option ConsoleMsg :=
  match h.grant with
  | none => (h, none)
  | some g =>
    match g.half with
    | none =>
      if g.frame + 2 ≤ n then
        ({ h with grant := some { g with half := some (u.console0, u.console1) } }, none)
      else (h, none)
    | some (a, b) =>
      if g.frame + 3 ≤ n then (h.endGrant g.console, consoleMessage g.console a b u.console0 u.console1 e)
      else (h, none)

/-- A console whose request flag is set and whose level is NORMAL. -/
def grantable (u : Uplink) (levels : Vector Level 4) (c : Console) : Bool :=
  requestedBy u c && levels[c] == .normal

/-- The levels a grant is decided with: all NORMAL when every requesting console is LOWERED (R143). -/
def levelsForGrant (u : Uplink) (levels : Vector Level 4) : Vector Level 4 :=
  if allConsoles.any (requestedBy u) && !allConsoles.any (grantable u levels) then
    Vector.replicate 4 .normal
  else levels

/-- A grant decided at the look of frame `n` when none is in progress (R143). -/
def Handover.decideGrant (u : Uplink) (n : Nat) (h : Handover) : Handover :=
  match h.grant with
  | some _ => h
  | none =>
    { h with levels := levelsForGrant u h.levels,
             grant := (allConsoles.find? (grantable u (levelsForGrant u h.levels))).map fun c =>
               { console := c, frame := n, half := none } }

/-- The console slot at a look, with the message that it completes. -/
def Handover.look (u : Uplink) (e : Nat) (h : Handover) : Handover × Option ConsoleMsg :=
  let p := h.takeHalf u e (frameNumber e)
  (p.1.decideGrant u (frameNumber e), p.2)

/-! ### Looks (R59) -/

/-- The channel part of a look: every channel, what they hand on, and the upward store (R59). -/
def State.channelPart (u : Uplink) (openingFirst : Bool) (s : State) : State :=
  let p := s.allLooks u.status
  (p.1.takeHandOns openingFirst p.2).writeStore .up u.status

/-- The console part after the channels: a completed message waits for its command (R144). -/
def State.consolePart (u : Uplink) (s : State) : State :=
  s.onHc fun h =>
    let p := h.look u s.tb.e
    { p.1 with arrived := p.2.or p.1.arrived }

/-- The console part before the channels: a completed message is acted on at once (R149, R150). -/
def State.consoleFirst (u : Uplink) (s : State) : State :=
  let p := s.hc.look u s.tb.e
  let t := s.onHc fun _ => p.1
  match p.2 with
  | some m => t.takeMessage m
  | none => t

/-- The look of the frame that starts now (R59). -/
def State.takeLook (u : Uplink) (o : LookOrder) (s : State) : State :=
  let t := s.onUbi fun x => { x with lastLook := some s.tb.e }
  if o.consoleFirst then (t.consoleFirst u).channelPart u o.openingFirst
  else (t.channelPart u o.openingFirst).consolePart u

/-- There is one look at each frame start but the first after power-on reset (R59). -/
def State.lookDue (s : State) : Bool :=
  s.tb.e % ticksPerFrame == 0 && s.ubi.lastLook != some s.tb.e
    && !(s.tb.e == 0 && s.ubi.lastLook == none)

/-- The look is taken if it is due. -/
def State.look (u : Uplink) (o : LookOrder) (s : State) : State := if s.lookDue then s.takeLook u o else s

/-- LOOK. -/
def execLook (u : Uplink) (o : LookOrder) (s : State) : Host.Outcome State Fault Refusal :=
  .next (s.look u o)

end Sys2Proof.Machine
end

