-- ==== Sys2Proof/Machine/Replies.lean ====
section
/-! DEFINITION. The reply blocks of the management link, octet by octet (11.5, R187). -/

namespace Sys2Proof.Machine

/-- Octets of zero. -/
def zeros (n : Nat) : List Octet := List.replicate n 0#8

/-- An optional item of `n` octets, zeros where there is none. -/
def orZeros {α : Type} (n : Nat) (f : α → List Octet) : Option α → List Octet
  | none => zeros n
  | some x => f x

/-- A list of at most `n` items of `k` octets, unused entries zero (11.5). -/
def listOctets {α : Type} (n k : Nat) (f : α → List Octet) (l : List α) : List Octet :=
  (l.take n).flatMap f ++ zeros (k * (n - (l.take n).length))

/-- A stamp or E value. -/
def stampOctets (e : Nat) : List Octet := natOctets 6 e

/-- A flag as an octet. -/
def flagOctet (b : Bool) : List Octet := natOctets 1 (boolCode b)

/-- A station-time group: Δ, step count, class and unset flag (11.5). -/
def groupOctets (v : StationVals) : List Octet :=
  intOctets 8 v.delta ++ natOctets 1 v.stepCount ++ natOctets 1 v.quality.val ++ flagOctet v.unset

/-- A boundary: present octet, day and index (11.5). -/
def boundaryOctets : Option BoundaryId → List Octet
  | none => zeros 6
  | some (d, i) => natOctets 1 1 ++ natOctets 4 d ++ natOctets 1 i

/-- A stamp with its station stamp, step count and class, 15 octets (11.5). -/
def Stamp.octets (x : Stamp) : List Octet :=
  stampOctets x.elapsed ++ natOctets 5 x.seconds ++ natOctets 2 x.tick ++ natOctets 1 x.stepCount
    ++ natOctets 1 x.quality.val

/-! ### Timebase and status (R20, R181, R182) -/

/-- The Timebase block, 36 octets (R20, R182). -/
def timebaseBlock (s : State) : List Octet :=
  stampOctets s.tb.e ++ natOctets 5 s.tb.reportedSeconds ++ natOctets 2 s.tb.reportedTick
    ++ intOctets 8 s.tb.delta ++ natOctets 1 s.tb.stepCount
    ++ natOctets 1 (bitAt 0 s.tb.unset + bitAt 1 s.tb.pendingSetting.isSome + bitAt 2 s.dl.search.isSome)
    ++ natOctets 4 (if s.tb.unset then uTop else s.tb.u) ++ natOctets 1 s.tb.quality.val
    ++ intOctets 4 s.tb.trim ++ intOctets 4 s.tb.pendingTrim

/-- A reference's items in the status block, 11 octets; a last e of none is 0x80000000 (R187). -/
def refOctets (x : RefState) : List Octet :=
  natOctets 1 (qualCode x.qual) ++ natOctets 1 x.count ++ natOctets 1 (faultCode x.fault)
    ++ intOctets 4 (x.lastErr.getD (-2147483648)) ++ intOctets 4 x.buildOut

/-- A store's items in the status block. -/
def storeOctets (x : Elastic) : List Octet := natOctets 1 x.frames.length ++ natOctets 2 x.slips

/-- The status block, 86 octets, with identity code 0x4E24 and revision 1 (R181). -/
def statusBlock (s : State) : List Octet :=
  natOctets 2 0x4E24 ++ natOctets 1 1 ++ timebaseBlock s
    ++ natOctets 1 (tbModeCode s.dl.mode) ++ natOctets 1 (refCode s.dl.active) ++ intOctets 4 s.dl.integral
    ++ refOctets s.rm.a ++ refOctets s.rm.b ++ natOctets 1 s.rm.aClass
    ++ natOctets 1 (alignmentCode s.sli.alignment) ++ natOctets 2 s.sli.syncErrors
    ++ storeOctets s.up ++ storeOctets s.down
    ++ natOctets 2 s.eq.records.length ++ natOctets 2 s.eq.lostA ++ natOctets 2 s.eq.lostB
    ++ natOctets 1 (hStateCode s.hc.state) ++ natOctets 2 s.ml.abandonedReplies

/-! ### Channels (R69, R84) -/

/-- The candidate, 20 octets: with none, present octet 0 and code 0xFF (R187). -/
def candidateOctets : Option Candidate → List Octet
  | none => [0#8, 0xFF#8] ++ zeros 18
  | some k =>
    natOctets 1 1 ++ natOctets 1 k.code.val ++ natOctets 1 k.age ++ stampOctets k.frame
      ++ groupOctets k.vals

/-- The no-device run, 18 octets. -/
def runOctets (x : Channel) : List Octet :=
  natOctets 1 x.runCount
    ++ orZeros 17 (fun r : RunStart => stampOctets r.frame ++ groupOctets r.vals) x.runStart

/-- The raw last look, 2 octets (R187). -/
def rawOctets : Option Octet → List Octet
  | none => [0#8, 0xFF#8]
  | some o => [1#8, o]

/-- The chatter items, 25 octets. -/
def chatterOctets : Option Chatter → List Octet
  | none => zeros 25
  | some c =>
    natOctets 1 1 ++ natOctets 1 c.codeAtEntry.val ++ stampOctets c.deadline ++ stampOctets c.lastStamp
      ++ groupOctets c.lastVals

/-- The channel block, 206 octets (R84). -/
def channelBlock (ch : Chan) (s : State) : List Octet :=
  let x := s.cm[ch]
  natOctets 1 ch.val ++ x.entry.octets ++ flagOctet (shadowed s.cm ch)
    ++ natOctets 1 (presenceCode x.presence) ++ flagOctet x.candidate.isSome
    ++ natOctets 1 (codeOrNone x.valid) ++ candidateOctets x.candidate ++ runOctets x
    ++ rawOctets x.rawLast ++ natOctets 1 x.recent.length ++ listOctets 14 6 stampOctets x.recent
    ++ chatterOctets x.chatter ++ natOctets 2 x.suppressed ++ natOctets 1 x.store.length
    ++ listOctets 2 16 EventRecord.octets x.store ++ natOctets 2 x.unstable ++ stampOctets x.floor

/-! ### Units (R127) -/

/-- Eight modes' ticks in the mode order. -/
def durationOctets (v : Vector Nat 8) : List Octet := v.toList.flatMap stampOctets

/-- The mode map, 16 octets. -/
def mapOctets (v : Vector UnitMode 16) : List Octet := v.toList.flatMap fun m => natOctets 1 (modeIdx m).val

/-- The unit table entry, 19 octets. -/
def GenUnit.entryOctets (x : GenUnit) : List Octet :=
  flagOctet x.enabled ++ mapOctets x.modeMap ++ natOctets 2 x.timeout

/-- The five counters. -/
def GenUnit.counterOctets (x : GenUnit) : List Octet :=
  natOctets 4 x.starts ++ natOctets 4 x.successes ++ natOctets 4 x.failures ++ natOctets 4 x.trips
    ++ natOctets 4 x.loadTrips

/-- The start attempt, 13 octets. -/
def attemptOctets : Option Attempt → List Octet
  | none => zeros 13
  | some a => natOctets 1 1 ++ stampOctets a.start ++ stampOctets a.expiry

/-- A shift set, 66 octets. -/
def ShiftSet.octets (d : ShiftSet) : List Octet :=
  orZeros 6 stampOctets d.start ++ durationOctets d.durations ++ natOctets 4 d.starts
    ++ natOctets 4 d.successes ++ natOctets 4 d.failures

/-- The tally block, 230 octets (R127). -/
def tallyBlock (u : UnitNo) (s : State) : List Octet :=
  let x := s.tu[u]
  natOctets 1 u.val ++ stampOctets s.tb.e ++ natOctets 5 s.tb.reportedSeconds
    ++ natOctets 2 s.tb.reportedTick ++ natOctets 1 s.tb.stepCount ++ natOctets 1 s.tb.quality.val
    ++ x.entryOctets ++ natOctets 1 (modeIdx x.mode).val ++ stampOctets x.entry
    ++ natOctets 1 x.history.length
    ++ listOctets 4 7 (fun p : UnitMode × Nat => natOctets 1 (modeIdx p.1).val ++ stampOctets p.2) x.history
    ++ durationOctets (x.bucketsAt s.tb.e) ++ stampOctets x.base ++ stampOctets x.baseStamp
    ++ x.counterOctets ++ attemptOctets x.attempt ++ x.cur.octets

/-! ### The schedule and the handover (R138) -/

/-- Kind and remaining ticks of the timer: the running one, or in HELD the one kept with the resume item
(R138). -/
def Handover.timerShown (e : Nat) (h : Handover) : Nat × Nat :=
  if h.state = .held then
    match h.resume with
    | .windowOpen rem => (1, rem)
    | .accepted rem => (2, rem)
    | .none | .overrun | .cutUnattended | .cutAuto => (0, 0)
  else
    match h.timer with
    | .none => (0, 0)
    | .window x => (1, x - e)
    | .release x => (2, x - e)

/-- The schedule block, 75 octets (R138). -/
def scheduleBlock (s : State) : List Octet :=
  let h := s.hc
  let p := s.ml.params
  natOctets 1 h.schedule.length ++ listOctets 6 2 (natOctets 2) h.schedule
    ++ intOctets 2 p.localOffset ++ natOctets 1 p.handoverWindow ++ natOctets 1 p.releaseLimit
    ++ natOctets 1 (schedModeCode p.scheduleMode) ++ boundaryOctets h.lastReached
    ++ boundaryOctets h.reachMark ++ natOctets 1 (hStateCode h.state) ++ flagOctet h.shiftOpen
    ++ natOctets 1 (consoleCode h.duty) ++ natOctets 1 (consoleCode h.incoming) ++ flagOctet h.overrun
    ++ natOctets 1 (h.timerShown s.tb.e).1 ++ stampOctets (h.timerShown s.tb.e).2
    ++ natOctets 1 (resumeCode h.resume) ++ orZeros 6 stampOctets h.heldSince ++ stampOctets h.heldTicks
    ++ boundaryOctets h.boundary ++ boundaryOctets h.deferred ++ orZeros 6 stampOctets h.settleEnd
    ++ natOctets 2 h.missed

/-! ### Shift records (R167, R170) -/

/-- The shift header block, 74 octets, with part octet 0xFF. -/
def shiftHeaderBlock (index : Nat) (r : ShiftRecord) : List Octet :=
  natOctets 1 index ++ [0xFF#8] ++ natOctets 4 r.number ++ natOctets 1 (closeCode r.kind)
    ++ r.start.octets ++ r.stop.octets ++ natOctets 1 r.worst.val ++ boundaryOctets r.boundary
    ++ natOctets 2 r.missed ++ natOctets 1 (consoleCode r.outgoing) ++ natOctets 1 (consoleCode r.incoming)
    ++ stampOctets r.heldTicks ++ natOctets 4 r.admittedA ++ natOctets 4 r.admittedB
    ++ natOctets 4 r.lostA ++ natOctets 4 r.lostB ++ natOctets 4 r.cascades

/-- A first-out channel, 0xFF for none (R187). -/
def firstOutCode : Option Chan → Nat
  | none => 255
  | some c => c.val

/-- The shift unit block, 77 octets. -/
def shiftUnitBlock (index : Nat) (u : UnitNo) (r : ShiftRecord) : List Octet :=
  let x := r.units[u]
  natOctets 1 index ++ natOctets 1 u.val ++ natOctets 4 r.number ++ durationOctets x.durations
    ++ natOctets 4 x.starts ++ natOctets 4 x.successes ++ natOctets 4 x.failures ++ natOctets 4 x.trips
    ++ natOctets 4 x.loadTrips ++ natOctets 1 (firstOutCode x.firstOut) ++ flagOctet x.openAtStart
    ++ flagOctet x.openAtEnd

/-! ### Parameters (R180) -/

/-- The value of a parameter at the value written, by its number. -/
def Params.value (p : Params) : Nat → Int
  | 0 => p.p | 1 => p.q | 2 => p.stepThreshold | 3 => p.jitterLimit | 4 => p.qualifyCount
  | 5 => p.bClass | 6 => p.driftBound | 7 => policyCode p.policy | 8 => boolCode p.revertive
  | 9 => p.revertHoldoff | 10 => boolCode p.buildOut | 11 => boolCode p.searchOnAcquire
  | 12 => p.storeDepth | 13 => p.chatterWindow | 14 => p.cascadeWindow | 15 => p.tripHold
  | 16 => p.handoverWindow | 17 => p.releaseLimit | 18 => schedModeCode p.scheduleMode
  | 19 => p.localOffset
  | _ => 0

/-- The value in force of a parameter: for P and Q the Discipline Loop's (R34, R180). -/
def State.paramInForce (s : State) (n : Nat) : Int :=
  if n = 0 then s.dl.p else if n = 1 then s.dl.q else s.ml.params.value n

end Sys2Proof.Machine
end

