-- ==== Sys2Proof/Machine/Requests.lean ====
section
/-! DEFINITION. The management requests (chapter 10): their checks in the order of R178, their effects and
their replies. One command of the table for each request, and for each parameter one WRITE command. -/

namespace Sys2Proof.Machine

/-! ### Executing a request (R177, R178) -/

/-- What executing a request gives: the state with its effect, and the reply. -/
abbrev Executed := State × List Octet

/-- A reply of the kind octet and a result (11.5). -/
def resultOctets (req : List Octet) (r : Result) : List Octet := req.take 1 ++ natOctets 1 (resultCode r)

/-- A request refused: nothing changes (R178). -/
def refuse (req : List Octet) (r : Result) (s : State) : Executed := (s, resultOctets req r)

/-- A request taken: its effect, and a reply with result OK and the fields listed (R178, 11.5). -/
def accept (req fields : List Octet) (s : State) : Executed := (s, resultOctets req .ok ++ fields)

/-- The complete request in the request buffer that a command may execute now: it stands at a frame boundary
of E and is one of the command's (R177). -/
def State.executable (s : State) (mine : List Octet → Bool) : Option (List Octet) :=
  match s.ml.request with
  | .complete req => if mine req && s.tb.e % ticksPerFrame == 0 then some req else none
  | .empty | .partialRequest _ | .executed _ => none

/-- The request buffer holds the request executed at E `e` and the reply buffer its reply (R175, R177). -/
def MgmtLink.answered (req reply : List Octet) (e : Nat) (m : MgmtLink) : MgmtLink :=
  { m with request := .executed req, reply := reply, executedAt := some e }

/-- A complete request that `mine` selects is executed by `act` (R177). The reply of a request that reads state shows the
changes of the tick that have been taken before it; the tick's other changes come into it as the tick ends
(`State.settledReply`). -/
def State.runRequest (mine : List Octet → Bool) (act : List Octet → State → Executed) (s : State) : State :=
  match s.executable mine with
  | none => s
  | some req => (act req s).1.onMl (MgmtLink.answered req (act req s).2 s.tb.e)

/-- A request of a kind. -/
def hasKind (k : Nat) (req : List Octet) : Bool := kindOf req == k

/-- A request of the one allowed length goes on, any other is refused with BAD_LENGTH (R178). -/
def withLength (n : Nat) (act : List Octet → State → Executed) (req : List Octet) (s : State) : Executed :=
  if req.length = n then act req s else refuse req .badLength s

/-! ### READ_STATUS, READ_TIME, SET_TIME (R14, R181, R182) -/

/-- READ_STATUS changes nothing and answers the status block (R181). -/
def readStatus (req : List Octet) (s : State) : Executed := accept req (statusBlock s) s

/-- READ_STATUS. -/
def execReadStatus (s : State) : Host.Outcome State Fault Refusal :=
  .next (s.runRequest (hasKind 0x01) (withLength 1 readStatus))

/-- READ_TIME changes nothing and answers the Timebase block (R182). -/
def readTime (req : List Octet) (s : State) : Executed := accept req (timebaseBlock s) s

/-- READ_TIME. -/
def execReadTime (s : State) : Host.Outcome State Fault Refusal :=
  .next (s.runRequest (hasKind 0x02) (withLength 1 readTime))

/-- SET_TIME: taken in FREE_RUN or HOLDOVER with no step pending; the accuracy is clamped (R14). -/
def setTime (req : List Octet) (s : State) : Executed :=
  if isFollowing s.dl.mode || s.tb.pendingStep.isSome then refuse req .refusedState s
  else
    let x : TimeSetting := { seconds := fieldAt req 1 5, accuracy := min (fieldAt req 6 4) uTop }
    accept req (natOctets 5 x.seconds ++ natOctets 4 x.accuracy)
      (s.onTb fun t => { t with pendingSetting := some x })

/-- SET_TIME. -/
def execSetTime (s : State) : Host.Outcome State Fault Refusal :=
  .next (s.runRequest (hasKind 0x03) (withLength 10 setTime))

/-! ### Parameters (R179, R180) -/

/-- The parameter set changed. -/
def State.onParams (f : Params → Params) (s : State) : State :=
  s.onMl fun m => { m with params := f m.params }

/-- A written number clamped to a range (R179). -/
def clamped (lo hi : Nat) (x : Int) : Option Nat := some (clampInt lo hi x).toNat

/-- A written value that must be off or on (R179). -/
def onOff (x : Int) : Option Bool := if x = 0 then some false else if x = 1 then some true else none

/-- A written reference policy (R179, 11.6). -/
def policyOf (x : Int) : Option Policy :=
  if x = 0 then some .auto else if x = 1 then some .forceA else if x = 2 then some .forceB
  else if x = 3 then some .forceHoldover else none

/-- A written schedule mode (R179, 11.6). -/
def schedModeOf (x : Int) : Option SchedMode :=
  if x = 0 then some .console else if x = 1 then some .auto else none

/-- The OK reply of a WRITE_PARAM: the number and the value applied. -/
def paramFields (n : Nat) (applied : Int) : List Octet := natOctets 1 n ++ intOctets 4 applied

/-- A WRITE_PARAM for parameter `n` (R180): `value` brings the written number to a value of the parameter or to
none, `allowed` is the check of state, `effect` the effect and `code` the number of the value applied. -/
def writeParam {α : Type} (n : Nat) (value : Int → Option α) (code : α → Int) (allowed : α → State → Bool)
    (effect : α → State → State) (req : List Octet) (s : State) : Executed :=
  if fieldAt req 1 1 ≠ n then refuse req .badIndex s
  else
    match value (signedAt req 2) with
    | none => refuse req .badIndex s
    | some v =>
      if allowed v s then accept req (paramFields n (code v)) (effect v s)
      else refuse req .refusedState s

/-- The command that writes parameter `n`. -/
def State.paramCommand {α : Type} (n : Nat) (value : Int → Option α) (code : α → Int)
    (allowed : α → State → Bool) (effect : α → State → State) (s : State) : State :=
  s.runRequest (namesParam n) (withLength 6 (writeParam n value code allowed effect))

/-- The command that writes a numeric parameter `n`, taken in every state (R179, R180). -/
def State.numberCommand (n lo hi : Nat) (effect : Nat → State → State) (s : State) : State :=
  s.paramCommand n (clamped lo hi) (fun v => v) (fun _ _ => true) effect

/-- WRITE_P: pending until the next local second boundary (R34). -/
def execWriteP (s : State) : Host.Outcome State Fault Refusal :=
  .next (s.numberCommand 0 0 15 fun v => State.onParams fun p => { p with p := v })

/-- WRITE_Q: pending until the next local second boundary (R34). -/
def execWriteQ (s : State) : Host.Outcome State Fault Refusal :=
  .next (s.numberCommand 1 0 20 fun v => State.onParams fun p => { p with q := v })

/-- WRITE_STEP_THRESHOLD (R34). -/
def execWriteStepThreshold (s : State) : Host.Outcome State Fault Refusal :=
  .next (s.numberCommand 2 1000 1000000 fun v => State.onParams fun p => { p with stepThreshold := v })

/-- WRITE_JITTER_LIMIT (R34). -/
def execWriteJitterLimit (s : State) : Host.Outcome State Fault Refusal :=
  .next (s.numberCommand 3 8 100000 fun v => State.onParams fun p => { p with jitterLimit := v })

/-- WRITE_QUALIFY_COUNT: applied at the next good second (R34). -/
def execWriteQualifyCount (s : State) : Host.Outcome State Fault Refusal :=
  .next (s.numberCommand 4 2 60 fun v => State.onParams fun p => { p with qualifyCount := v })

/-- WRITE_B_CLASS (R26). -/
def execWriteBClass (s : State) : Host.Outcome State Fault Refusal :=
  .next (s.numberCommand 5 0 7 fun v => State.onParams fun p => { p with bClass := v })

/-- WRITE_HOLDOVER_DRIFT_BOUND: used from the next local second boundary (R17). -/
def execWriteHoldoverDriftBound (s : State) : Host.Outcome State Fault Refusal :=
  .next (s.numberCommand 6 1 100000 fun v => State.onParams fun p => { p with driftBound := v })

/-- A written reference policy: acted on when it differs from the one in force (R43). -/
def State.writePolicy (v : Policy) (s : State) : State :=
  if v = s.ml.params.policy then s else (s.onParams fun p => { p with policy := v }).policyChanged

/-- WRITE_REFERENCE_POLICY. -/
def execWriteReferencePolicy (s : State) : Host.Outcome State Fault Refusal :=
  .next (s.paramCommand 7 policyOf (fun v => policyCode v) (fun _ _ => true) State.writePolicy)

/-- A written revertive setting: a change is tested for a revert (R42). -/
def State.writeRevertive (v : Bool) (s : State) : State :=
  if v = s.ml.params.revertive then s else (s.onParams fun p => { p with revertive := v }).testRevert

/-- WRITE_REVERTIVE. -/
def execWriteRevertive (s : State) : Host.Outcome State Fault Refusal :=
  .next (s.paramCommand 8 onOff (fun v => boolCode v) (fun _ _ => true) State.writeRevertive)

/-- WRITE_REVERT_HOLDOFF: compared at once with the time A has been QUALIFIED (R34, R42). -/
def execWriteRevertHoldoff (s : State) : Host.Outcome State Fault Refusal :=
  .next (s.numberCommand 9 10 3600 fun v t =>
    (t.onParams fun p => { p with revertHoldoff := v }).testRevert)

/-- WRITE_BUILD_OUT: applied at the next switch (R34). -/
def execWriteBuildOut (s : State) : Host.Outcome State Fault Refusal :=
  .next (s.paramCommand 10 onOff (fun v => boolCode v) (fun _ _ => true) fun v =>
    State.onParams fun p => { p with buildOut := v })

/-- WRITE_SEARCH_ON_ACQUIRE: applied at the next acquisition (R34). -/
def execWriteSearchOnAcquire (s : State) : Host.Outcome State Fault Refusal :=
  .next (s.paramCommand 11 onOff (fun v => boolCode v) (fun _ _ => true) fun v =>
    State.onParams fun p => { p with searchOnAcquire := v })

/-- A written store depth recentres both stores, and the upward one alone during LOF (R61). -/
def State.writeDepth (v : Nat) (s : State) : State :=
  let t := s.onParams fun p => { p with storeDepth := v }
  match s.sli.alignment with
  | .inFrame => t.recentreBoth
  | .lof => { t with up := t.up.recentre v }

/-- WRITE_STORE_DEPTH. -/
def execWriteStoreDepth (s : State) : Host.Outcome State Fault Refusal :=
  .next (s.numberCommand 12 4 16 State.writeDepth)

/-- WRITE_CHATTER_WINDOW (R66). -/
def execWriteChatterWindow (s : State) : Host.Outcome State Fault Refusal :=
  .next (s.numberCommand 13 1 60 fun v => State.onParams fun p => { p with chatterWindow := v })

/-- WRITE_CASCADE_WINDOW: applied to cascades opened after the write (R117). -/
def execWriteCascadeWindow (s : State) : Host.Outcome State Fault Refusal :=
  .next (s.numberCommand 14 1 1000 fun v => State.onParams fun p => { p with cascadeWindow := v })

/-- WRITE_TRIP_HOLD: applied at the next close (R117). -/
def execWriteTripHold (s : State) : Host.Outcome State Fault Refusal :=
  .next (s.numberCommand 15 0 30 fun v => State.onParams fun p => { p with tripHold := v })

/-- WRITE_HANDOVER_WINDOW: applied to timers started after the write (R137). -/
def execWriteHandoverWindow (s : State) : Host.Outcome State Fault Refusal :=
  .next (s.numberCommand 16 1 120 fun v => State.onParams fun p => { p with handoverWindow := v })

/-- WRITE_RELEASE_LIMIT: applied to timers started after the write (R137). -/
def execWriteReleaseLimit (s : State) : Host.Outcome State Fault Refusal :=
  .next (s.numberCommand 17 1 30 fun v => State.onParams fun p => { p with releaseLimit := v })

/-- NO_DUTY and ON_SHIFT, in which a schedule or a changed schedule mode is taken (R137, R138). -/
def HState.settled : HState → Bool
  | .noDuty | .onShift => true
  | .windowOpen | .accepted | .held | .overrun | .settling => false

/-- A written schedule mode is taken when it leaves the mode as it was, or in NO_DUTY and ON_SHIFT (R137). -/
def modeAllowed (v : SchedMode) (s : State) : Bool := v == s.ml.params.scheduleMode || s.hc.state.settled

/-- A shift in AUTO mode: ON_SHIFT with no duty console, by the cause given; a HANDOVER record and a NOTICE
tell of the change (R152, R153, R156). -/
def State.enterAutoShift (old : HState) (cause : HCause) (s : State) : State :=
  (s.onHc fun h => { h with state := .onShift, duty := none }).announce old cause .b 0

/-- A change from CONSOLE to AUTO mode (R153). -/
def State.toAuto (s : State) : State :=
  match s.hc.state with
  | .onShift => if s.hc.duty = none then s else s.enterAutoShift .onShift .mode
  | .noDuty =>
    if s.hc.shiftOpen then s.enterAutoShift .noDuty .mode
    else if s.hc.schedule = [] then s
    else (s.takeOpeningCut s.tb.e).enterAutoShift .noDuty .mode
  | .windowOpen | .accepted | .held | .overrun | .settling => s

/-- A change from AUTO to CONSOLE mode (R153). -/
def State.toConsole (s : State) : State :=
  if s.hc.state = .onShift then
    (s.onHc fun h => { h with state := .noDuty }).announce .onShift .mode .b 0
  else s

/-- A written schedule mode: a change acts as R153 gives. -/
def State.writeMode (v : SchedMode) (s : State) : State :=
  if v = s.ml.params.scheduleMode then s
  else
    let t := s.onParams fun p => { p with scheduleMode := v }
    match v with
    | .auto => t.toAuto
    | .console => t.toConsole

/-- WRITE_SCHEDULE_MODE. -/
def execWriteScheduleMode (s : State) : Host.Outcome State Fault Refusal :=
  .next (s.paramCommand 18 schedModeOf (fun v => schedModeCode v) modeAllowed State.writeMode)

/-- A written local offset: a backward move of local time re-seats, any other is evaluated, and nothing is while
time is unset (R140 to R142). -/
def State.writeOffset (v : Int) (s : State) : State :=
  let t := s.onParams fun p => { p with localOffset := v }
  if s.tb.unset then t
  else if t.localNow < s.localNow then t.reseat
  else t.evaluate

/-- WRITE_LOCAL_OFFSET. -/
def execWriteLocalOffset (s : State) : Host.Outcome State Fault Refusal :=
  .next (s.paramCommand 19 (fun x => some (clampInt (-720) 840 x)) (fun v => v) (fun _ _ => true)
    State.writeOffset)

/-- READ_PARAM: the number, the value in force and the value written (R180). -/
def readParam (req : List Octet) (s : State) : Executed :=
  let n := fieldAt req 1 1
  if 19 < n then refuse req .badIndex s
  else
    accept req (natOctets 1 n ++ intOctets 4 (s.paramInForce n) ++ intOctets 4 (s.ml.params.value n)) s

/-- READ_PARAM. -/
def execReadParam (s : State) : Host.Outcome State Fault Refusal :=
  .next (s.runRequest (hasKind 0x11) (withLength 2 readParam))

/-! ### Channels (R84) -/

/-- WRITE_CHANNEL: the same six values to every channel of the set, which restarts (R84). -/
def writeChannel (req : List Octet) (s : State) : Executed :=
  let set := fieldAt req 1 4
  match entryOf req 5 with
  | none => refuse req .badIndex s
  | some e =>
    if channelSetOk set then accept req (natOctets 4 set ++ e.octets) (s.writeEntries (channelsOf set) e)
    else refuse req .badIndex s

/-- WRITE_CHANNEL. -/
def execWriteChannel (s : State) : Host.Outcome State Fault Refusal :=
  .next (s.runRequest (hasKind 0x20) (withLength 13 writeChannel))

/-- READ_CHANNEL changes nothing and answers the channel block (R84). -/
def readChannel (req : List Octet) (s : State) : Executed :=
  match chanOfNat (fieldAt req 1 1) with
  | none => refuse req .badIndex s
  | some ch => accept req (channelBlock ch s) s

/-- READ_CHANNEL. -/
def execReadChannel (s : State) : Host.Outcome State Fault Refusal :=
  .next (s.runRequest (hasKind 0x21) (withLength 2 readChannel))

/-- RESTART_CHANNEL: each channel of the set restarts, its entry and the mode sources stay (R84). -/
def restartChannel (req : List Octet) (s : State) : Executed :=
  let set := fieldAt req 1 4
  if channelSetOk set then accept req (natOctets 4 set) (s.restartChannels s.cm (channelsOf set))
  else refuse req .badIndex s

/-- RESTART_CHANNEL. -/
def execRestartChannel (s : State) : Host.Outcome State Fault Refusal :=
  .next (s.runRequest (hasKind 0x22) (withLength 5 restartChannel))

/-! ### Units (R119, R127, R128) -/

/-- A unit table entry written, and the unit's mode derived again (R119, R121). -/
def State.writeUnit (u : UnitNo) (enabled : Bool) (map : Vector UnitMode 16) (timeout : Nat) (s : State) :
    State :=
  (s.onUnit u fun x => { x with enabled := enabled, modeMap := map, timeout := timeout }).rederive u

/-- The start timeout is clamped to 30..900 s (R119). -/
def clampTimeout (n : Nat) : Nat := max 30 (min n 900)

/-- WRITE_UNIT (R119). -/
def writeUnit (req : List Octet) (s : State) : Executed :=
  match unitOfNat (fieldAt req 1 1), flagOfNat (fieldAt req 2 1), modeMapOf req 3 with
  | some u, some enabled, some map =>
    let timeout := clampTimeout (fieldAt req 19 2)
    accept req (natOctets 1 u.val ++ flagOctet enabled ++ mapOctets map ++ natOctets 2 timeout)
      (s.writeUnit u enabled map timeout)
  | _, _, _ => refuse req .badIndex s

/-- WRITE_UNIT. -/
def execWriteUnit (s : State) : Host.Outcome State Fault Refusal :=
  .next (s.runRequest (hasKind 0x30) (withLength 21 writeUnit))

/-- READ_TALLY changes nothing and answers the tally block (R127). -/
def readTally (req : List Octet) (s : State) : Executed :=
  match unitOfNat (fieldAt req 1 1) with
  | none => refuse req .badIndex s
  | some u => accept req (tallyBlock u s) s

/-- READ_TALLY. -/
def execReadTally (s : State) : Host.Outcome State Fault Refusal :=
  .next (s.runRequest (hasKind 0x31) (withLength 2 readTally))

/-- The values of a preset: buckets in ticks and the five counters (R128). -/
structure Preset where
  buckets : Vector Nat 8
  starts : Nat
  successes : Nat
  failures : Nat
  trips : Nat
  loadTrips : Nat
  deriving DecidableEq, Repr

/-- The values of a PRESET_TALLY request, its buckets given in seconds (11.5). -/
def presetOf (req : List Octet) : Preset :=
  { buckets := Vector.ofFn fun k => fieldAt req (2 + 4 * k.val) 4 * 64000, starts := fieldAt req 34 4,
    successes := fieldAt req 38 4, failures := fieldAt req 42 4, trips := fieldAt req 46 4,
    loadTrips := fieldAt req 50 4 }

/-- The sum of the preset's buckets: the tally base. -/
def Preset.base (p : Preset) : Nat := p.buckets.toList.sum

/-- A preset that is consistent (R128). -/
def Preset.ok (p : Preset) : Bool :=
  p.base < 140737488355328 && p.starts == p.successes + p.failures && p.loadTrips ≤ p.trips

/-- A preset of a unit at E `e`: steps 1 to 4 of R128. -/
def GenUnit.preset (p : Preset) (e : Nat) (x : GenUnit) : GenUnit :=
  let y := (if x.attempt.isSome then x.fail e else x).creditShift e
  { y with buckets := p.buckets, starts := p.starts, successes := p.successes, failures := p.failures,
           trips := p.trips, loadTrips := p.loadTrips, base := p.base, baseStamp := e, entry := e }

/-- PRESET_TALLY: its reply returns the request's fields (R128, R187). -/
def presetTally (req : List Octet) (s : State) : Executed :=
  match unitOfNat (fieldAt req 1 1) with
  | none => refuse req .badIndex s
  | some u =>
    if (presetOf req).ok then accept req (req.drop 1) (s.onUnit u (GenUnit.preset (presetOf req) s.tb.e))
    else refuse req .badIndex s

/-- PRESET_TALLY. -/
def execPresetTally (s : State) : Host.Outcome State Fault Refusal :=
  .next (s.runRequest (hasKind 0x32) (withLength 54 presetTally))

/-! ### The schedule and the shift history (R138, R152, R170) -/

/-- A taken schedule re-seats the last reached boundary, and in AUTO mode with no shift open it opens one
(R138, R141, R152). -/
def State.writeSchedule (minutes : List Nat) (s : State) : State :=
  let t := s.onHc fun h => { h with schedule := minutes }
  let t := if t.tb.unset then t else t.reseat
  if s.ml.params.scheduleMode = .auto ∧ !s.hc.shiftOpen then
    (t.takeOpeningCut t.tb.e).enterAutoShift t.hc.state .schedule
  else t

/-- The lengths of WRITE_SCHEDULE: those of 1 to 6 minutes (R178). -/
def scheduleLength (n : Nat) : Bool := n % 2 == 1 && 3 ≤ n && n ≤ 13

/-- The OK reply of a WRITE_SCHEDULE: the count and the minutes. -/
def scheduleFields (minutes : List Nat) : List Octet :=
  natOctets 1 minutes.length ++ minutes.flatMap (natOctets 2)

/-- WRITE_SCHEDULE (R138). -/
def writeSchedule (req : List Octet) (s : State) : Executed :=
  if scheduleLength req.length then
    if minutesOk (minutesOf req) then
      if s.hc.state.settled then
        accept req (scheduleFields (minutesOf req)) (s.writeSchedule (minutesOf req))
      else refuse req .refusedState s
    else refuse req .badIndex s
  else refuse req .badLength s

/-- WRITE_SCHEDULE. -/
def execWriteSchedule (s : State) : Host.Outcome State Fault Refusal :=
  .next (s.runRequest (hasKind 0x40) writeSchedule)

/-- READ_SCHEDULE changes nothing and answers the schedule block (R138). -/
def readSchedule (req : List Octet) (s : State) : Executed := accept req (scheduleBlock s) s

/-- READ_SCHEDULE. -/
def execReadSchedule (s : State) : Host.Outcome State Fault Refusal :=
  .next (s.runRequest (hasKind 0x41) (withLength 1 readSchedule))

/-- READ_SHIFT changes nothing and answers a part of a shift record (R170). -/
def readShift (req : List Octet) (s : State) : Executed :=
  let index := fieldAt req 1 1
  let part := fieldAt req 2 1
  match s.sh.ring[index]? with
  | none => refuse req .badIndex s
  | some r =>
    if part = 255 then accept req (shiftHeaderBlock index r) s
    else
      match unitOfNat part with
      | some u => accept req (shiftUnitBlock index u r) s
      | none => refuse req .badIndex s

/-- READ_SHIFT. -/
def execReadShift (s : State) : Host.Outcome State Fault Refusal :=
  .next (s.runRequest (hasKind 0x42) (withLength 3 readShift))

/-! ### The trim search (R47, R49) -/

/-- TRIM_SEARCH with START: on the active reference, in ACQUIRING or LOCKED with no search running (R47). -/
def trimSearchStart (req : List Octet) (s : State) : Executed :=
  if fieldAt req 1 1 ≠ 1 then refuse req .badIndex s
  else if s.dl.search.isSome then refuse req .busy s
  else
    match s.dl.active, isFollowing s.dl.mode with
    | some r, true => accept req (natOctets 1 1) (s.startSearch r)
    | _, _ => refuse req .refusedState s

/-- TRIM_SEARCH_START. -/
def execTrimSearchStart (s : State) : Host.Outcome State Fault Refusal :=
  .next (s.runRequest (namesSearch 1) (withLength 2 trimSearchStart))

/-- TRIM_SEARCH with ABORT: refused while no search runs (R49); a return to A that the search held back is made (R42). -/
def trimSearchAbort (req : List Octet) (s : State) : Executed :=
  if fieldAt req 1 1 ≠ 2 then refuse req .badIndex s
  else if s.dl.search.isSome then accept req (natOctets 1 2) s.endSearch
  else refuse req .refusedState s

/-- TRIM_SEARCH_ABORT. -/
def execTrimSearchAbort (s : State) : Host.Outcome State Fault Refusal :=
  .next (s.runRequest (namesSearch 2) (withLength 2 trimSearchAbort))

/-! ### WARM_RESTART and unknown requests (R178, R183) -/

/-- WARM_RESTART answers OK; the restart acts after the reply has ended (R183). -/
def warmRestart (req : List Octet) (s : State) : Executed := accept req [] s

/-- WARM_RESTART. -/
def execWarmRestart (s : State) : Host.Outcome State Fault Refusal :=
  .next (s.runRequest (hasKind 0x60) (withLength 1 warmRestart))

/-- A first octet that names no request kind is answered with UNKNOWN_REQUEST, echoed (R178). -/
def unknownRequest (req : List Octet) (s : State) : Executed := refuse req .unknownRequest s

/-- UNKNOWN_REQUEST. -/
def execUnknownRequest (s : State) : Host.Outcome State Fault Refusal :=
  .next (s.runRequest (fun req => !requestKinds.contains (kindOf req)) unknownRequest)

end Sys2Proof.Machine
end

