-- ==== Sys2Proof/Machine/Restart.lean ====
section
/-! DEFINITION. Power-on reset and warm restart (chapter 10): the commands POWER_ON_RESET and
WARM_RESTART_ACTS. -/

namespace Sys2Proof.Machine

/-! ### Power-on reset (R65, R185) -/

/-- Every block takes its Power-on values, held in reset or not; the commands that wait outside the part still wait
(R185). -/
def State.powerOnValues (held : Bool) (s : State) : State :=
  { State.reset with inReset := held, pending := s.pending }

/-- The supply starts a power-on reset, in which a pin that is low holds the part; so does the pin once it has been low for
at least 10 µs, a shorter low being ignored; the part stays in reset while the pin is low and leaves it at the rising edge
(R1, R65, R185). -/
def State.powerOn (cause : ResetCause) (s : State) : State :=
  match cause with
  | .supply => s.powerOnValues s.inReset
  | .pinLow lowNs => if 10000 ≤ lowNs then s.powerOnValues true else s
  | .pinRise => if s.inReset then s.powerOnValues false else s

/-- POWER_ON_RESET. -/
def execPowerOnReset (cause : ResetCause) (s : State) : Host.Outcome State Fault Refusal :=
  .next (s.powerOn cause)

/-! ### Warm restart, step 1 of R184: what is cleared -/

/-- The EQ at a warm restart (R89, R104). -/
def EventQueue.cleared : EventQueue :=
  { records := [], seq := 0, lostA := 0, lostB := 0, lossPending := false }

/-- The RA at a warm restart: a record in transmission is abandoned, and its frames that have not started become
the abandoned frames (R104). -/
def Arbiter.cleared (r : Arbiter) : Arbiter :=
  { levelA := .normal, levelB := .normal, idle := 0, lastSender := none, sending := none,
    abandoned := match r.sending with
      | some x => 8 - x.frames
      | none => r.abandoned }

/-- An elastic store at a warm restart: recentred, its slip counter kept (R61, R62). -/
def Elastic.warmRestart (depth : Nat) (x : Elastic) : Elastic :=
  { x.recentre depth with recordMade := false }

/-- The console slot at a warm restart: the downlink queue and the grant are cleared and every level is NORMAL; the
frame after an abandoned message carries all-ones octets (R143, R145, R158). -/
def Handover.clearSlot (e : Nat) (h0 : Handover) : Handover :=
  let h := h0.flush e
  { h with levels := Vector.replicate 4 .normal, grant := none, queue := [], tx := none,
           gap := h.gap || h.tx.isSome }

/-- The ML's link state at a warm restart (R171). -/
def MgmtLink.warmRestart (m : MgmtLink) : MgmtLink :=
  { m with rx := .idle, lastTurn := none, previous := none, request := .empty, tx := .idle, reply := [],
           lastEcho := none }

/-- Step 1 of R184, with the items that R1, R21 and R69 drop. -/
def State.clearLinks (s : State) : State :=
  { s with
    tb := { s.tb with pendingSetting := none }
    rm := { s.rm with assembly := [], message := none }
    eq := EventQueue.cleared
    ra := s.ra.cleared
    up := s.up.warmRestart s.ml.params.storeDepth
    down := s.down.warmRestart s.ml.params.storeDepth
    cm := s.cm.map Channel.warmRestart
    hc := s.hc.clearSlot s.tb.e
    ml := s.ml.warmRestart }

/-! ### Steps 2 to 4 of R184 -/

/-- Step 2: a running search is aborted with its record, which ends it, and a confirmed step and the step-confirmation
history are dropped (R33, R42, R49). -/
def State.restartLoop (s : State) : State :=
  s.endSearch.onDl fun d => { d with confirmed := none, history := [] }

/-- Step 3: each unit changes to UNKNOWN at E_r, lowest first (R136). -/
def State.restartUnits (s : State) : State := allUnits.foldl (fun t u => t.eventChange u .unknown) s

/-- Step 4: open cascades are discarded, and an incident that was active ends (R118, R158). -/
def State.restartCascades (s : State) : State :=
  let t := s.onCt fun _ => { slots := Vector.replicate 9 none, holdEnd := none, incident := false }
  if s.ct.incident then t.incidentEnds else t

/-- Every block takes the values of its Warm restart column, and the restart's records are offered in order
(R184). -/
def State.warmRestart (s : State) : State := s.clearLinks.restartLoop.restartUnits.restartCascades

/-- A warm restart waits and its reply has ended: it acts at a frame boundary of E (R183). -/
def State.restartDue (s : State) : Bool :=
  s.tb.e % ticksPerFrame == 0 && s.ml.reply == []
    && (match s.ml.request with
        | .executed req => isWarmRestart req
        | .empty | .partialRequest _ | .complete _ => false)

/-- The warm restart acts if it is due. -/
def State.restartActs (s : State) : State := if s.restartDue then s.warmRestart else s

/-- WARM_RESTART_ACTS. -/
def execWarmRestartActs (s : State) : Host.Outcome State Fault Refusal := .next s.restartActs

end Sys2Proof.Machine
end

