-- ==== Sys2Proof/Machine/Tick.lean ====
section
/-! DEFINITION. The end of a tick: what was fixed at the tick and shows every change of it is settled, E moves on, and the
command TICK. -/

namespace Sys2Proof.Machine

/-! ### The reply of a reading request (R20, R177, R182) -/

/-- What a request of kind `k` does where it reads state and changes nothing; none for a kind that writes or that names no
request (R177, 11.5). -/
def readingOf (k : Nat) : Option (List Octet → State → Executed) :=
  if k = 0x01 then some (withLength 1 readStatus)
  else if k = 0x02 then some (withLength 1 readTime)
  else if k = 0x11 then some (withLength 2 readParam)
  else if k = 0x21 then some (withLength 2 readChannel)
  else if k = 0x31 then some (withLength 2 readTally)
  else if k = 0x41 then some (withLength 1 readSchedule)
  else if k = 0x42 then some (withLength 3 readShift)
  else none

/-- A READ_TIME reply shows a pending time setting as present: bit 1 of the flags octet of its Timebase block (11.5). -/
def showsSetting (reply : List Octet) : Bool := (reply.getD 24 0#8).getLsbD 1

/-- A READ_TIME reply taken before the setting was applied at its tick: the items that the application changes stay as
READ_TIME found them, from E to the step count, the unset and setting flags, U and the class, and the search flag and both
trims are those of the reply `now` (R177, R182). -/
def beforeSetting (taken now : List Octet) : List Octet :=
  taken.take 24 ++ [(taken.getD 24 0#8 &&& 0x03#8) ||| (now.getD 24 0#8 &&& 0x04#8)] ++ (taken.drop 25).take 5 ++ now.drop 30

/-- The reply of a reading request as every change of its tick leaves it (R20, R177), `taken` the reply made when the request
was taken. Where the setting that a READ_TIME showed as present has been applied since, the reply stays the one before the
setting (R182). -/
def settleReading (act : List Octet → State → Executed) (req taken : List Octet) (s : State) : List Octet :=
  let now := (act req s).2
  if kindOf req = 0x02 ∧ showsSetting taken = true ∧ s.tb.pendingSetting = none then beforeSetting taken now else now

/-- The reply buffer as the tick ends: the reply of a reading request that was executed at this tick is settled, any other
reply stays (R177; log entry 52). -/
def State.settledReply (s : State) : List Octet :=
  match s.ml.request with
  | .executed req =>
    if s.ml.executedAt = some s.tb.e then
      match readingOf (kindOf req) with
      | some act => settleReading act req s.ml.reply s
      | none => s.ml.reply
    else s.ml.reply
  | .empty | .partialRequest _ | .complete _ => s.ml.reply

/-! ### The tick (R1 to R3) -/

/-- The part makes a tick, but none while it is held in reset (R1, R2). What the tick that ends here has changed shows in the
status octet of an upward frame that started at it (R57) and in the reply of a reading request executed at it (R177). -/
def State.tick (s : State) : State :=
  if s.inReset then s
  else
    { s with tb := s.tb.advance, sli := { s.sli with up := s.sli.up.map s.bringStatus },
             ml := { s.ml with reply := s.settledReply } }

/-- TICK. -/
def execTick (s : State) : Host.Outcome State Fault Refusal := .next s.tick

end Sys2Proof.Machine
end

