-- ==== Sys2Proof/Machine/Dispatch.lean ====
section
/-! DEFINITION. The dispatcher: each command of spec/opcode_table.json and the meaning it has. -/

namespace Sys2Proof.Machine

/-- A command's effect on everything but the queue of waiting commands. -/
def exec (i : Instr) (s : State) : Host.Outcome State Fault Refusal :=
  match i with
  | .powerOnReset cause => Sys2Proof.Machine.execPowerOnReset cause s
  | .localSecondBoundary => Sys2Proof.Machine.execLocalSecondBoundary s
  | .stepApplication => Sys2Proof.Machine.execStepApplication s
  | .huntSyncFound pos => Sys2Proof.Machine.execHuntSyncFound pos s
  | .huntSyncAbsent => Sys2Proof.Machine.execHuntSyncAbsent s
  | .frameTaken fine f => Sys2Proof.Machine.execFrameTaken fine f s
  | .syncAbsentFrame => Sys2Proof.Machine.execSyncAbsentFrame s
  | .bMarker fine p => Sys2Proof.Machine.execBMarker fine p s
  | .markerMissingTimeout r => Sys2Proof.Machine.execMarkerMissingTimeout r s
  | .markerAbsentTimeout r => Sys2Proof.Machine.execMarkerAbsentTimeout r s
  | .revertWaitExpiry => Sys2Proof.Machine.execRevertWaitExpiry s
  | .upwardFrameStart => Sys2Proof.Machine.execUpwardFrameStart s
  | .upwardFrameEnd => Sys2Proof.Machine.execUpwardFrameEnd s
  | .downlinkFrameStart => Sys2Proof.Machine.execDownlinkFrameStart s
  | .look u o => Sys2Proof.Machine.execLook u o s
  | .quietDeadline ch => Sys2Proof.Machine.execQuietDeadline ch s
  | .cascadeClose g => Sys2Proof.Machine.execCascadeClose g s
  | .incidentHoldEnd => Sys2Proof.Machine.execIncidentHoldEnd s
  | .startTimeout u => Sys2Proof.Machine.execStartTimeout u s
  | .dutyClaim => Sys2Proof.Machine.execDutyClaim s
  | .accept => Sys2Proof.Machine.execAccept s
  | .release => Sys2Proof.Machine.execRelease s
  | .query => Sys2Proof.Machine.execQuery s
  | .windowExpiry => Sys2Proof.Machine.execWindowExpiry s
  | .releaseExpiry => Sys2Proof.Machine.execReleaseExpiry s
  | .settleEnd => Sys2Proof.Machine.execSettleEnd s
  | .replyTimeout => Sys2Proof.Machine.execReplyTimeout s
  | .readStatus => Sys2Proof.Machine.execReadStatus s
  | .readTime => Sys2Proof.Machine.execReadTime s
  | .setTime => Sys2Proof.Machine.execSetTime s
  | .writeP => Sys2Proof.Machine.execWriteP s
  | .writeQ => Sys2Proof.Machine.execWriteQ s
  | .writeStepThreshold => Sys2Proof.Machine.execWriteStepThreshold s
  | .writeJitterLimit => Sys2Proof.Machine.execWriteJitterLimit s
  | .writeQualifyCount => Sys2Proof.Machine.execWriteQualifyCount s
  | .writeBClass => Sys2Proof.Machine.execWriteBClass s
  | .writeHoldoverDriftBound => Sys2Proof.Machine.execWriteHoldoverDriftBound s
  | .writeReferencePolicy => Sys2Proof.Machine.execWriteReferencePolicy s
  | .writeRevertive => Sys2Proof.Machine.execWriteRevertive s
  | .writeRevertHoldoff => Sys2Proof.Machine.execWriteRevertHoldoff s
  | .writeBuildOut => Sys2Proof.Machine.execWriteBuildOut s
  | .writeSearchOnAcquire => Sys2Proof.Machine.execWriteSearchOnAcquire s
  | .writeStoreDepth => Sys2Proof.Machine.execWriteStoreDepth s
  | .writeChatterWindow => Sys2Proof.Machine.execWriteChatterWindow s
  | .writeCascadeWindow => Sys2Proof.Machine.execWriteCascadeWindow s
  | .writeTripHold => Sys2Proof.Machine.execWriteTripHold s
  | .writeHandoverWindow => Sys2Proof.Machine.execWriteHandoverWindow s
  | .writeReleaseLimit => Sys2Proof.Machine.execWriteReleaseLimit s
  | .writeScheduleMode => Sys2Proof.Machine.execWriteScheduleMode s
  | .writeLocalOffset => Sys2Proof.Machine.execWriteLocalOffset s
  | .readParam => Sys2Proof.Machine.execReadParam s
  | .writeChannel => Sys2Proof.Machine.execWriteChannel s
  | .readChannel => Sys2Proof.Machine.execReadChannel s
  | .restartChannel => Sys2Proof.Machine.execRestartChannel s
  | .writeUnit => Sys2Proof.Machine.execWriteUnit s
  | .readTally => Sys2Proof.Machine.execReadTally s
  | .presetTally => Sys2Proof.Machine.execPresetTally s
  | .writeSchedule => Sys2Proof.Machine.execWriteSchedule s
  | .readSchedule => Sys2Proof.Machine.execReadSchedule s
  | .readShift => Sys2Proof.Machine.execReadShift s
  | .trimSearchStart => Sys2Proof.Machine.execTrimSearchStart s
  | .trimSearchAbort => Sys2Proof.Machine.execTrimSearchAbort s
  | .warmRestart => Sys2Proof.Machine.execWarmRestart s
  | .warmRestartActs => Sys2Proof.Machine.execWarmRestartActs s
  | .tick => Sys2Proof.Machine.execTick s
  | .unknownRequest => Sys2Proof.Machine.execUnknownRequest s

end Sys2Proof.Machine
end

