-- ==== Sys2Proof/Safety.lean ====
section
/-! DEFINITION. What a safe run of the part is: the invariants that the spec states of its blocks, and the
order of commands in which no event is left behind by the tick. -/

namespace Sys2Proof

/-- A pulse that the filter of the backup pulse line takes (R65). -/
def Pulse.passes (p : Pulse) : Prop := 1000 ≤ p.lowNs ∧ 1000 ≤ p.highNs

end Sys2Proof

namespace Sys2Proof.Machine

/-! ### The reset pin (R1, R65) -/

/-- Every item stands at its Power-on value, held in reset or not. -/
def State.atPowerOn (held : Bool) (s : State) : Prop := s = { State.reset with inReset := held, pending := s.pending }

/-- While the pin holds the part in reset, every item stands at its Power-on value (R1). -/
def State.ResetInv (s : State) : Prop := s.inReset = true → s.atPowerOn true

/-! ### The Event Queue and the pending stores (R86 to R88, R92, R97) -/

/-- The records of a channel among some records (R85). -/
def recordsOf (ch : Chan) (l : List EventRecord) : List EventRecord :=
  l.filter fun r => isChannelKind r.kind && r.source == ch.val

/-- The records of a channel that have not left the part, in the order in which they will: those in the EQ, then its
pending store. -/
def State.unsent (s : State) (ch : Chan) : List EventRecord :=
  recordsOf ch s.eq.records ++ s.cm[ch].store

/-- The EQ never holds more than 512 records; a pending store holds at most two; the records of one channel in the EQ
are of one class; a channel's unsent records stand in nondecreasing order of elapsed stamp, none above its stamp floor;
and no held entry could be taken now (R73, R86 to R88, R92, R97). -/
structure State.QueueInv (s : State) : Prop where
  fill : s.eq.records.length ≤ 512
  seq : s.eq.seq < 65536
  stores : ∀ ch : Chan, s.cm[ch].store.length ≤ 2
  own : ∀ ch : Chan, ∀ r ∈ s.cm[ch].store, isChannelKind r.kind = true ∧ r.source = ch.val
  oneClass : ∀ ch : Chan, ∀ r ∈ recordsOf ch s.eq.records, ∀ q ∈ recordsOf ch s.eq.records, r.cls = q.cls
  ordered : ∀ ch : Chan, (s.unsent ch).Pairwise fun r q => r.stamp.elapsed ≤ q.stamp.elapsed
  floors : ∀ ch : Chan, ∀ r ∈ s.unsent ch, r.stamp.elapsed ≤ s.cm[ch].floor
  waiting : ∀ ch : Chan, releasable s ch = none

/-! ### The Tally Unit (R122, R124, R125, R129, R133) -/

/-- No instant that a channel keeps lies ahead of E (R69, R73). -/
structure Channel.Past (e : Nat) (x : Channel) : Prop where
  floor : x.floor ≤ e
  candidate : ∀ k ∈ x.candidate, k.frame ≤ e
  run : ∀ r ∈ x.runStart, r.frame ≤ e
  chatter : ∀ c ∈ x.chatter, c.lastStamp ≤ e

/-- The tally equality of a unit at E `e`, its entry stamp, and its mode history: 1 to 4 pairs, newest first, the
newest naming the current mode (R120, R124, R125). -/
structure GenUnit.Balanced (e : Nat) (x : GenUnit) : Prop where
  entry : x.entry ≤ e
  balance : (x.buckets.toList.sum : Int) + (e - x.entry) = x.base + (e - x.baseStamp)
  historyLength : x.history.length ≤ 4
  newest : (x.history.head?).map Prod.fst = some x.mode
  historyOrder : x.history.Pairwise fun p q => q.2 ≤ p.2
  historyPast : ∀ p ∈ x.history, p.2 ≤ x.entry

/-- Every unit's tally is balanced (R125). -/
structure State.TallyInv (s : State) : Prop where
  channels : ∀ ch : Chan, s.cm[ch].Past s.tb.e
  units : ∀ u : UnitNo, s.tu[u].Balanced s.tb.e

/-- The modes in which a start attempt can be open (R129). -/
def canBeStarting : UnitMode → Bool
  | .starting | .spin | .stopping => true
  | .standstill | .generating | .pumping | .condenser | .unknown => false

/-- The start accounting of a unit (R129, R133). -/
structure GenUnit.StartsBalanced (x : GenUnit) : Prop where
  balance : (x.successes + x.failures + boolCode x.attempt.isSome) % 4294967296 = x.starts
  modes : x.attempt.isSome = true → canBeStarting x.mode = true

/-- Every unit's start accounting holds (R133). -/
def State.StartInv (s : State) : Prop := ∀ u : UnitNo, s.tu[u].StartsBalanced

/-! ### The Timebase and the Discipline Loop (R1, R17, R33, R37) -/

/-- A trim within −200,000..+200,000 ppb. -/
def TrimOk (t : Int) : Prop := -200000 ≤ t ∧ t ≤ 200000

/-- The trims and the integral lie within their range, U and the step count within theirs (R1, R37). -/
structure State.TrimInv (s : State) : Prop where
  trim : TrimOk s.tb.trim
  pendingTrim : TrimOk s.tb.pendingTrim
  integral : TrimOk s.dl.integral
  search : ∀ x ∈ s.dl.search, TrimOk x.savedI ∧ TrimOk x.savedT ∧ TrimOk x.trim
  u : s.tb.u ≤ 4000000000
  stepCount : s.tb.stepCount < 256

/-- FREE_RUN is the mode of a part that has never locked, HOLDOVER of one that has, and a reference is active exactly
in ACQUIRING and LOCKED (R33, R35, R40). -/
structure State.ModeInv (s : State) : Prop where
  locked : s.dl.mode = .locked → s.dl.everLocked = true
  holdover : s.dl.mode = .holdover → s.dl.everLocked = true
  freeRun : s.dl.mode = .freeRun → s.dl.everLocked = false
  active : s.dl.active.isSome = isFollowing s.dl.mode

/-! ### The elastic stores (R54, R61, R62) -/

/-- A store's fill stays within the depth, the downward one's outside LOF, and the depth within 4..16 (R61). -/
structure State.StoreInv (s : State) : Prop where
  depth : 4 ≤ s.ml.params.storeDepth ∧ s.ml.params.storeDepth ≤ 16
  up : s.up.frames.length ≤ s.ml.params.storeDepth
  down : s.sli.alignment = .inFrame → s.down.frames.length ≤ s.ml.params.storeDepth
  slips : s.up.slips ≤ 65535 ∧ s.down.slips ≤ 65535

/-! ### The Handover Controller (R145, R146, R150, R154) -/

/-- The timer that a handover state has: the window timer in WINDOW_OPEN, the release timer in ACCEPTED, none in any other
state (R146). -/
def HTimer.fits : HState → HTimer → Bool
  | .windowOpen, .window _ => true
  | .accepted, .release _ => true
  | .windowOpen, _ => false
  | .accepted, _ => false
  | _, .none => true
  | _, _ => false

/-- What the duty and incoming consoles are in each state of CONSOLE mode; in AUTO mode there are none (R146, R152,
R155). `kind` is the kind of the cut noted in SETTLING. -/
def consolesFit (mode : SchedMode) (kind : Option CloseKind) (h : Handover) : Prop :=
  match mode, h.state with
  | .console, .noDuty => h.duty = none ∧ h.incoming = none
  | .console, .onShift | .console, .windowOpen | .console, .overrun => h.duty.isSome ∧ h.incoming = none
  | .console, .accepted => h.duty.isSome ∧ h.incoming.isSome
  | .console, .held =>
    match h.resume with
    | .windowOpen _ | .overrun => h.duty.isSome ∧ h.incoming = none
    | .accepted _ => h.duty.isSome ∧ h.incoming.isSome
    | .cutUnattended => h.duty = none ∧ h.incoming = none
    | .none | .cutAuto => False
  | .console, .settling =>
    h.duty = none ∧
      match kind with
      | some .normal | some .late | some .forced => h.incoming.isSome
      | some .unattended => h.incoming = none
      | some .auto | none => False
  | .auto, .noDuty => h.duty = none ∧ h.incoming = none ∧ h.shiftOpen = false
  | .auto, .onShift => h.duty = none ∧ h.incoming = none
  | .auto, .held => h.duty = none ∧ h.incoming = none ∧ h.resume = .cutAuto
  | .auto, .settling => h.duty = none ∧ h.incoming = none ∧ kind = some .auto
  | .auto, .windowOpen | .auto, .accepted | .auto, .overrun => False

/-- The handover items agree with the handover state: at most one duty console, an accepted incoming console that is never
the duty console, the timers, the resume item, and no state that a cut could come from while an incident is active (R145,
R146, R154). -/
structure State.HandoverInv (s : State) : Prop where
  consoles : consolesFit s.ml.params.scheduleMode (s.sh.cut.map CutNoted.kind) s.hc
  distinct : ∀ d ∈ s.hc.duty, ∀ i ∈ s.hc.incoming, d ≠ i
  timer : HTimer.fits s.hc.state s.hc.timer = true
  resume : (s.hc.resume = .none) ↔ s.hc.state ≠ .held
  heldSince : s.hc.heldSince.isSome = (s.hc.state == .held)
  settleEnd : s.hc.settleEnd.isSome = (s.hc.state == .settling)
  cut : s.sh.cut.isSome = (s.hc.state == .settling)
  closing : s.sh.closing.isSome = (s.hc.state == .settling)
  deferred : s.hc.deferred.isSome = true → s.hc.state = .settling
  opened : s.hc.state ≠ .noDuty → s.hc.shiftOpen = true
  header : s.sh.current.isSome = s.hc.shiftOpen
  incident : s.ct.incident = true →
    s.hc.state ≠ .windowOpen ∧ s.hc.state ≠ .accepted ∧ s.hc.state ≠ .overrun
  held : s.hc.state = .held → s.ct.incident = true
  queue : s.hc.queue.length ≤ 4

/-! ### The shift records (R160 to R168) -/

/-- The sum of a set's mode durations. -/
def ShiftSet.total (d : ShiftSet) : Nat := d.durations.toList.sum

/-- A unit's shift sets while no shift is open: no start, no next set. -/
def GenUnit.noShift (x : GenUnit) : Prop := x.cur.start = none ∧ x.next = none

/-- Outside SETTLING the current set has credited the time from its start `a` up to the entry stamp (R160). -/
def GenUnit.inShift (a : Nat) (x : GenUnit) : Prop :=
  x.cur.start = some a ∧ x.next = none ∧ x.cur.total = max x.entry a - a

/-- In SETTLING the current set has credited the time from its start `a` up to the cut `c` or the entry stamp, and the next
set the time from the cut up to the entry stamp (R162). -/
def GenUnit.inSettling (a c : Nat) (x : GenUnit) : Prop :=
  x.cur.start = some a ∧ x.cur.total = min (max x.entry a) c - a ∧
    ∃ n, x.next = some n ∧ n.start = some c ∧ n.total = max x.entry c - c

/-- The shift sets of every unit agree with the header sets of the SH (R160, R161). -/
def State.setsAgree (s : State) : Prop :=
  match s.sh.current, s.sh.closing, s.sh.cut with
  | none, none, none => ∀ u : UnitNo, s.tu[u].noShift
  | some h, none, none => ∀ u : UnitNo, s.tu[u].inShift h.start.elapsed
  | some h, some g, some c =>
    h.start = c.stamp ∧ g.start.elapsed ≤ c.stamp.elapsed ∧
      ∀ u : UnitNo, s.tu[u].inSettling g.start.elapsed c.stamp.elapsed
  | _, _, _ => False

/-- The start of the shift that the next record will describe. -/
def ShiftHistory.openStart (h : ShiftHistory) : Option Stamp :=
  match h.closing with
  | some g => some g.start
  | none => h.current.map Header.start

/-- In every shift record, each unit's durations sum to the record's length (R166). -/
def ShiftRecord.whole (r : ShiftRecord) : Prop :=
  r.start.elapsed ≤ r.stop.elapsed ∧
    ∀ u : UnitNo, r.units[u].durations.toList.sum = r.stop.elapsed - r.start.elapsed

/-- A newer record follows an older one: it starts at its end, with the next number (R168). -/
def ShiftRecord.follows (r q : ShiftRecord) : Prop :=
  r.start = q.stop ∧ r.number = nextShiftNumber q.number

/-- Each record of a ring follows the one after it. -/
def contiguous : List ShiftRecord → Prop
  | r :: q :: l => r.follows q ∧ contiguous (q :: l)
  | _ => True

/-- The shift history: at most 16 records, contiguous, each whole, and the open shift follows the newest (R159 to
R168). -/
structure State.ShiftInv (s : State) : Prop where
  ring : s.sh.ring.length ≤ 16
  whole : ∀ r ∈ s.sh.ring, r.whole
  chain : contiguous s.sh.ring
  last : ∀ r ∈ s.sh.ring.head?, s.sh.number = nextShiftNumber r.number ∧ s.sh.openStart = some r.stop
  sets : s.setsAgree
  starts : ∀ h ∈ s.sh.current, h.start.elapsed ≤ s.tb.e

/-! ### Conforming order of commands -/

/-- No running timer of the handover has been left behind by E, and a console message that waits arrived at this
tick (R144, R149, R155). -/
structure State.Prompt (s : State) : Prop where
  arrived : ∀ m ∈ s.hc.arrived, m.arrival = s.tb.e
  window : ∀ x, s.hc.timer = .window x → s.tb.e ≤ x
  release : ∀ x, s.hc.timer = .release x → s.tb.e ≤ x
  settle : ∀ x ∈ s.hc.settleEnd, s.tb.e ≤ x

/-- Nothing of the handover is due at this tick: the tick may pass. -/
structure State.Quiet (s : State) : Prop where
  arrived : s.hc.arrived = none
  window : ∀ x, s.hc.timer = .window x → s.tb.e < x
  release : ∀ x, s.hc.timer = .release x → s.tb.e < x
  settle : ∀ x ∈ s.hc.settleEnd, s.tb.e < x

/-- The service life of the tallies: E is below 2^47 (R125). -/
def State.inService (s : State) : Prop := s.tb.e < 140737488355328

/-- The command at the front of the queue comes in its time: TICK only when nothing of the handover is due. -/
def State.frontInTime (s : State) : Prop := s.pending.head? = some .tick → s.Quiet

/-! ### What a command leaves as it was -/

/-- The parts of the state. -/
inductive Block where
  | inReset | tb | rm | dl | sli | ubi | up | down | cm | eq | ra | ct | tu | hc | sh | ml | pending
  deriving DecidableEq, Repr

/-- A part is the same in two states. -/
def State.same (b : Block) (s t : State) : Prop :=
  match b with
  | .inReset => t.inReset = s.inReset
  | .tb => t.tb = s.tb
  | .rm => t.rm = s.rm
  | .dl => t.dl = s.dl
  | .sli => t.sli = s.sli
  | .ubi => t.ubi = s.ubi
  | .up => t.up = s.up
  | .down => t.down = s.down
  | .cm => t.cm = s.cm
  | .eq => t.eq = s.eq
  | .ra => t.ra = s.ra
  | .ct => t.ct = s.ct
  | .tu => t.tu = s.tu
  | .hc => t.hc = s.hc
  | .sh => t.sh = s.sh
  | .ml => t.ml = s.ml
  | .pending => t.pending = s.pending

/-- `t` differs from `s` in the listed parts at most. -/
structure Within (l : List Block) (s t : State) : Prop where
  out : ∀ b, b ∉ l → s.same b t

/-! ### Seconds and markers -/

/-- A local second boundary falls at this tick and has not been taken yet: the tick of second is 0, and the part is not
held in reset (R1, R6). -/
def State.atBoundary (s : State) : Prop :=
  s.inReset = false ∧ ((s.tb.e : Int) + s.tb.delta) % 64000 = 0 ∧ s.tb.lastBoundary ≠ some s.tb.e

/-- The mode in force now was in force at the end of the last tick: no change of mode or active reference falls at this tick
(R17). -/
def State.modeSettled (s : State) : Prop := ∀ b ∈ s.dl.before, b.tick ≠ s.tb.e

/-- The phase error that a marker at `fine` ns within this tick gives (R23). -/
def State.errAt (s : State) (r : Ref) (fine : Fin 15625) : Int := (measure r fine s.tb).err

/-- What a second of a reference needs besides its marker: for A a correct time message of a class other than 7, for B a
class other than 7 (R27). -/
def State.vouched (s : State) : Ref → Prop
  | .a => ∃ m, s.rm.message = some m ∧ m.correct = true ∧ m.cls ≠ 7
  | .b => s.ml.params.bClass ≠ 7

/-- The command brings a marker of a reference at `fine` ns within this tick: for A a flagged frame taken in IN_FRAME, for B
a pulse that the filter takes, out of reset (R1, R22, R65). -/
def State.marks (s : State) (c : Instr) (fine : Fin 15625) : Ref → Prop
  | .a => ∃ f, c = .frameTaken fine f ∧ s.sli.alignment = .inFrame ∧ f.hasSync = true ∧ markerFlag f = true
  | .b => ∃ p : Pulse, c = .bMarker fine p ∧ p.passes ∧ s.inReset = false

/-- What a marker of a reference can change besides the reference itself and the loop: a frame is delivered whole, a pulse
is not (R25, R52). -/
def markerBlocks : Ref → List Block
  | .a => [.sli, .rm, .dl, .tb, .ml, .down, .eq, .sh]
  | .b => [.rm, .dl, .tb, .eq, .sh]

/-- The station seconds of the local second boundary nearest to a marker, the earlier one at the halfway point (R7, R23). -/
def State.boundarySeconds (s : State) (fine : Fin 15625) : Nat :=
  let x := (s.tb.e : Int) + s.tb.delta
  ((if x % 64000 * 15625 + fine.val ≤ 500000000 then x else x + 64000) / 64000).toNat % 1099511627776

/-- The whole seconds by which a marker's second disagrees: the seconds of A's message less those of the boundary, 0 for B
(R27, R38). -/
def State.secondsApart (s : State) (fine : Fin 15625) : Ref → Int
  | .a => match s.rm.message with
    | some m => (m.seconds : Int) - s.boundarySeconds fine
    | none => 0
  | .b => 0

/-- A marker of a reference at this tick closes a good second (R27). -/
structure State.GoodSecond (s : State) (r : Ref) (fine : Fin 15625) : Prop where
  timely : ∃ m, (s.rm.get r).lastMarker = some m ∧ s.tb.e ≤ m + 96000
  steady : ∀ p ∈ (s.rm.get r).lastErr, (wrapPhase (s.errAt r fine - p)).natAbs ≤ s.ml.params.jitterLimit
  vouched : s.vouched r

/-- The DL follows a QUALIFIED reference, with no step pending: its good seconds go to the loop (R36, R39). -/
structure State.Follows (s : State) (r : Ref) : Prop where
  mode : s.dl.mode = .acquiring ∨ s.dl.mode = .locked
  active : s.dl.active = some r
  qualified : (s.rm.get r).qual = .qualified
  noStep : s.tb.pendingStep = none

/-! ### What the commands find due -/

/-- All conditions for the return from B to A hold (R42). -/
def State.revertDue (s : State) : Prop :=
  s.ml.params.policy = .auto ∧ s.ml.params.revertive = true ∧ s.dl.active = some .b ∧
    (s.dl.mode = .acquiring ∨ s.dl.mode = .locked) ∧ s.dl.search = none ∧ s.rm.a.qual = .qualified ∧
    ∃ q, s.rm.a.qualifiedSince = some q ∧ q + s.ml.params.revertHoldoff * 64000 ≤ s.tb.e

/-- `b` is the build-out that a switch to a reference gives it: for B in LOCKED with the build-out setting on, the one with
which the loop input goes on from its value on A; 0 otherwise (R40, R41). -/
def State.switchedBuildOut (s : State) (r : Ref) (b : Int) : Prop :=
  if r = .b ∧ s.dl.mode = .locked ∧ s.ml.params.buildOut = true then
    ∀ x y, s.rm.a.lastErr = some x → s.rm.b.lastErr = some y → b = wrapPhase (y - wrapPhase (x - s.rm.a.buildOut))
  else b = 0

/-- An upward frame starts at this tick: the part is not held in reset, none is in progress, and it is due by loop timing, or
E stands at a frame boundary in timing by E (R1, R56). -/
def State.upwardDueNow (s : State) : Prop :=
  s.inReset = false ∧ s.sli.up = none ∧
    match s.sli.upTiming with
    | .loop => ∃ x, s.sli.upDue = some x ∧ x ≤ s.tb.e
    | .elapsed => s.tb.e % 16 = 0

/-- A class may start a record: it has one in the EQ and enough idle frames have passed (R100). -/
def State.mayStart (s : State) (c : RecClass) : Prop :=
  (∃ r ∈ s.eq.records, r.cls = c) ∧ threshold c (s.ra.level c) ≤ s.ra.idle

/-- The class whose turn it is among those that may start: class A, or class B after a record of class A, when both may
(R100). -/
def State.turnOf (s : State) (c : RecClass) : Prop :=
  s.mayStart c ∧
    match c with
    | .a => s.ra.lastSender = some .a → ¬ s.mayStart .b
    | .b => s.ra.lastSender ≠ some .a → ¬ s.mayStart .a

/-- A unit-bus frame starts at this tick, out of reset (R1, R58). -/
def State.frameDue (s : State) : Prop := s.inReset = false ∧ s.tb.e % 16 = 0 ∧ ∀ f ∈ s.ubi.frame, f.start ≠ s.tb.e

/-- A look is taken at this tick: a frame starts, and it is not the first one after power-on reset (R59). -/
def State.lookNow (s : State) : Prop :=
  s.tb.e % 16 = 0 ∧ s.ubi.lastLook ≠ some s.tb.e ∧ ¬ (s.tb.e = 0 ∧ s.ubi.lastLook = none)

/-- A channel's candidate is validated by the octet of a look (R67, R70, R72). -/
def State.validatesAt (s : State) (u : Uplink) (ch : Chan) (k : Candidate) : Prop :=
  s.cm[ch].entry.monitored = true ∧ u.status[ch] ≠ 0xFF#8 ∧ s.cm[ch].candidate = some k ∧ codeOf u.status[ch] = k.code

/-- A channel becomes ABSENT at a look: the no-device run reaches 2 (R76). -/
def State.losesAt (s : State) (u : Uplink) (ch : Chan) : Prop :=
  s.cm[ch].entry.monitored = true ∧ u.status[ch] = 0xFF#8 ∧ 1 ≤ s.cm[ch].runCount ∧ s.cm[ch].presence ≠ .absent

/-- A look neither validates nor loses a channel. -/
def State.stillAt (s : State) (u : Uplink) (ch : Chan) : Prop := (∀ k, ¬ s.validatesAt u ch k) ∧ ¬ s.losesAt u ch

/-- The elapsed stamp of a candidate's change (R73). -/
def State.datedAt (s : State) (ch : Chan) (k : Candidate) : Nat :=
  max (k.frame - k.age - s.cm[ch].entry.latency) s.cm[ch].floor

/-- A validated change is a trip: of a TRIP channel, from a code outside its trip set to one in it (R107). -/
def State.tripsAt (s : State) (u : Uplink) (ch : Chan) (k : Candidate) : Prop :=
  s.validatesAt u ch k ∧ s.cm[ch].entry.role = .trip ∧
    ∃ old, s.cm[ch].valid = some old ∧ s.cm[ch].entry.tripSet.getLsbD old.val = false ∧
      s.cm[ch].entry.tripSet.getLsbD k.code.val = true

/-- The record of a channel can enter the EQ at once: nothing of the channel is held back, the EQ admits the class, and no
record of the channel with the other class stands in it (R86, R92). -/
def State.admitsNow (s : State) (ch : Chan) (c : RecClass) : Prop :=
  s.cm[ch].store = [] ∧ s.eq.takes c = true ∧
    ∀ q ∈ s.eq.records, isChannelKind q.kind = true → q.source = ch.val → q.cls = c

/-! ### Console messages (R147) -/

/-- The command that acts on a console message of a kind. -/
def ConsoleKind.command : ConsoleKind → Instr
  | .dutyClaim => .dutyClaim
  | .accept => .accept
  | .release => .release
  | .query => .query

/-- The reason that a message of console `c` is refused with; none where it is taken (R147). -/
def refusalOf (mode : SchedMode) (h : Handover) (k : ConsoleKind) (c : Console) : Option Refuse :=
  if h.state = .settling then some .busy
  else if mode = .auto then some .autoMode
  else
    match k with
    | .query => none
    | .dutyClaim =>
      if h.state = .noDuty then none
      else if h.state = .held ∧ h.duty = none then some .incident else some .dutyTaken
    | .accept =>
      if h.state = .held then some .incident
      else if h.state = .noDuty ∨ h.state = .onShift then some .noWindow
      else if h.state = .accepted ∧ h.incoming = some c then none
      else if h.duty = some c then some .sameConsole
      else if h.state = .accepted then some .alreadyAccepted else none
    | .release =>
      if h.state = .held then some .incident
      else if h.state = .noDuty ∨ h.duty ≠ some c then some .notDuty
      else if h.state = .accepted then none else some .noWindow

/-- The downlink message of a kind that a console message gets with the handover items `h` (R145). -/
def Handover.reply (h : Handover) (kind : DownKind) (m : ConsoleMsg) : DownMsg :=
  { kind := kind, answered := some (m.console, m.kind, m.tag), state := h.state, duty := h.duty }

/-- The NOTICE with the handover items `h` (R145, R156). -/
def Handover.noticeNow (h : Handover) : DownMsg :=
  { kind := .notice, answered := none, state := h.state, duty := h.duty }

/-! ### Records -/

/-- The record stands in the EQ as admitted next after the records of `s`, with Seq and the Overflow-before flag (R93). -/
def State.admittedNext (s t : State) (r : EventRecord) : Prop :=
  t.eq.records[s.eq.records.length]? = some { r with seq := s.eq.seq, overflowBefore := s.eq.lossPending }

/-! ### Requests -/

/-- A complete request stands in the buffer at a frame boundary of E (R177). -/
def State.requested (s : State) (req : List Octet) : Prop :=
  s.ml.request = .complete req ∧ s.tb.e % 16 = 0

/-- The state after a request's execution that changed nothing else: the executed request, its reply and the E of the
execution. -/
def State.replied (s : State) (req reply : List Octet) : State :=
  { s with ml := { s.ml with request := .executed req, reply := reply, executedAt := some s.tb.e } }

/-- The four octets of a 32-bit number, most significant first. -/
def octets32 (v : BitVec 32) : List Octet :=
  [v.extractLsb' 24 8, v.extractLsb' 16 8, v.extractLsb' 8 8, v.extractLsb' 0 8]

/-- The WRITE_PARAM request for parameter `n` with a signed 32-bit value (11.5). -/
def writeRequest (n : Nat) (v : BitVec 32) : List Octet := [0x10#8, BitVec.ofNat 8 n] ++ octets32 v

/-- The OK reply of a WRITE_PARAM: kind, result, number and the value applied (11.5). -/
def writeReply (n : Nat) (applied : Int) : List Octet :=
  [0x10#8, 0x00#8, BitVec.ofNat 8 n] ++ octets32 (BitVec.ofInt 32 applied)

/-- The command writes a numeric parameter: any value is clamped to lo..hi, `f` stores it, nothing else changes, and the reply
carries the value applied (R179, R180). -/
def WritesNumber (c : Instr) (n lo hi : Nat) (f : Nat → Params → Params) : Prop :=
  ∀ (s : State) (v : BitVec 32), s.requested (writeRequest n v) →
    exec c s = .next
      ((s.onParams (f (max (lo : Int) (min hi v.toInt)).toNat)).replied (writeRequest n v)
        (writeReply n (max (lo : Int) (min hi v.toInt))))

/-- The command writes an off-and-on parameter: 0 and 1 are taken, any other value is refused with BAD_INDEX (R179). -/
def WritesFlag (c : Instr) (n : Nat) (f : Bool → State → State) : Prop :=
  ∀ (s : State) (v : BitVec 32), s.requested (writeRequest n v) →
    (v = 0#32 → exec c s = .next ((f false s).replied (writeRequest n v) (writeReply n 0))) ∧
    (v = 1#32 → exec c s = .next ((f true s).replied (writeRequest n v) (writeReply n 1))) ∧
    (v ≠ 0#32 → v ≠ 1#32 → exec c s = .next (s.replied (writeRequest n v) [0x10#8, 0x03#8]))

end Sys2Proof.Machine
end

