-- ==== Sys2Proof/Certificates/Slice0/Obligations.lean ====
section
/-! DEFINITION. The statements for the provers: what the commands of the EH24 do, and what every step keeps. -/

section

open Sys2Proof Sys2Proof.Machine

/-! ### The step and the resets -/

/-- One step takes the command at the front of the queue and executes it with the queue's rest; with no command waiting the
part stays as it is (the model's choice, log entry 2). -/
def Obligations.StepRunsFrontCommand : Prop :=
  (∀ (c : Instr) (q : List Instr) (s : State),
    step (s.withPending (c :: q)) = exec c (s.withPending q)) ∧
  ∀ s : State, s.pending = [] → step s = .next s

/-- Every command answers a next state, and leaves the queue of waiting commands as it was. That a command whose event is
not due, or whose object is absent, answers next too is the model's choice (log entry 11). -/
def Obligations.CommandsCompleteAndLeaveQueue : Prop :=
  ∀ (c : Instr) (s : State), ∃ t, exec c s = .next t ∧ t.pending = s.pending

/-- POWER_ON_RESET from the supply, or from the pin once it has been low for at least 10 µs, gives every block its Power-on
values, of which one or more of every block are given here; a shorter low is ignored. While the pin holds the part in reset
every item stays at its Power-on value, whatever commands come, and E does not advance; the rising edge ends the reset with
E at 0 (R1, R21, R33, R61, R65, R66, R69, R89, R119, R120, R146, R185). That the waiting commands stay, and that a supply
reset leaves a held part held, are the model's choice (log entry 10). -/
def Obligations.PowerOnResetGivesPowerOnValues : Prop :=
  (∀ s : State,
    exec (.powerOnReset .supply) s = .next { State.reset with inReset := s.inReset, pending := s.pending } ∧
    (∀ n, 10000 ≤ n →
      exec (.powerOnReset (.pinLow n)) s = .next { State.reset with inReset := true, pending := s.pending }) ∧
    (∀ n, n < 10000 → exec (.powerOnReset (.pinLow n)) s = .next s) ∧
    (s.inReset = true → exec (.powerOnReset .pinRise) s = .next { State.reset with pending := s.pending }) ∧
    (s.inReset = false → exec (.powerOnReset .pinRise) s = .next s)) ∧
  (∀ (c : Instr) (s : State), s.atPowerOn true → (∀ cause, c ≠ .powerOnReset cause) → exec c s = .next s) ∧
  (∀ s t : State, s.ResetInv → step s = .next t → t.ResetInv) ∧
  let s := State.reset
  s.inReset = false ∧ (s.tb.e = 0 ∧ s.tb.delta = 0 ∧ s.tb.unset = true ∧ s.tb.stepCount = 0 ∧ s.tb.trim = 0 ∧ s.tb.pendingTrim = 0 ∧
    s.tb.pendingStep = none ∧ s.tb.pendingSetting = none ∧ s.tb.u = 4000000000 ∧ s.tb.quality = 7 ∧ s.tb.fraction = 0) ∧
  (s.rm.a.qual = .absent ∧ s.rm.b.qual = .absent ∧ s.rm.aClass = 7 ∧ s.rm.agree = 0 ∧ s.rm.a.lastMarker = none) ∧
  (s.dl.mode = .freeRun ∧ s.dl.active = none ∧ s.dl.integral = 0 ∧ s.dl.everLocked = false ∧ s.dl.p = 3 ∧ s.dl.q = 8) ∧
  (s.sli.alignment = .lof ∧ s.sli.hunt = .searching ∧ s.sli.upTiming = .elapsed ∧ s.sli.up = none) ∧
  (s.up.frames = List.replicate 4 onesFrame ∧ s.down.frames = List.replicate 4 onesFrame ∧ s.up.slips = 0) ∧
  (∀ ch : Chan, s.cm[ch].entry.enabled = false ∧ s.cm[ch].entry.role = .unused ∧ s.cm[ch].entry.chatterLimit = 8 ∧
    s.cm[ch].presence = .unknown ∧ s.cm[ch].valid = none ∧ s.cm[ch].floor = 0) ∧
  (s.eq.records = [] ∧ s.eq.seq = 0 ∧ s.eq.lostA = 0 ∧ s.eq.lostB = 0 ∧ s.eq.lossPending = false) ∧
  (s.ra.levelA = .normal ∧ s.ra.levelB = .normal ∧ s.ra.idle = 0 ∧ s.ra.lastSender = none ∧ s.ra.sending = none) ∧
  ((∀ g : Group, s.ct.slots[g] = none) ∧ s.ct.holdEnd = none ∧ s.ct.incident = false) ∧
  (∀ u : UnitNo, s.tu[u].enabled = false ∧ s.tu[u].timeout = 300 ∧ s.tu[u].mode = .unknown ∧ s.tu[u].entry = 0 ∧
    s.tu[u].history = [(.unknown, 0)] ∧ s.tu[u].attempt = none ∧ s.tu[u].next = none) ∧
  (s.hc.schedule = [] ∧ s.hc.state = .noDuty ∧ s.hc.shiftOpen = false ∧ s.hc.duty = none ∧ s.hc.missed = 0) ∧
  (s.sh.ring = [] ∧ s.sh.number = 1 ∧ s.sh.current = none ∧ s.sh.closing = none ∧ s.sh.cut = none) ∧
  (s.ml.rx = .idle ∧ s.ml.lastTurn = none ∧ s.ml.request = .empty ∧ s.ml.tx = .idle ∧ s.ml.reply = [] ∧
    s.ml.params.stepThreshold = 20000 ∧ s.ml.params.storeDepth = 8 ∧ s.ml.params.handoverWindow = 30)

/-- The machine right after power-on reset meets every invariant stated below. -/
def Obligations.ResetMeetsInvariants : Prop :=
  State.reset.ResetInv ∧ State.reset.QueueInv ∧ State.reset.TallyInv ∧ State.reset.StartInv ∧ State.reset.TrimInv ∧ State.reset.ModeInv ∧
    State.reset.StoreInv ∧ State.reset.HandoverInv ∧ State.reset.ShiftInv ∧ State.reset.Prompt

/-! ### Invariants that every step keeps -/

/-- The Event Queue never holds more than 512 records, the records of one channel in it are of one class, a channel's unsent
records stand in nondecreasing order of elapsed stamp, a pending store holds at most two of them, and none that is held
could be admitted now (R73, R86 to R88, R92, R97). -/
def Obligations.QueueOrderKept : Prop :=
  ∀ s t : State, s.QueueInv → step s = .next t → t.QueueInv

/-- For every unit, the eight buckets plus the open interval of the current mode equal the tally base plus the ticks since
it was set; the mode history stays ordered with the current mode as its newest pair (R124, R125). The premise keeps E within
the service life that R125 names (log entry 4). -/
def Obligations.TallyEqualityKept : Prop :=
  ∀ s t : State, s.inService → s.TallyInv → step s = .next t → t.TallyInv

/-- For every unit, starts equal successful starts plus failed starts plus one if an attempt is open, modulo 2^32, and an
attempt is open only in STARTING, SPIN or STOPPING (R129, R133). -/
def Obligations.StartAccountingKept : Prop :=
  ∀ s t : State, s.StartInv → step s = .next t → t.StartInv

/-- The integral and every trim lie within −200,000..+200,000 ppb, U within 4,000,000,000 ns and the step count within
0..255 (R1, R37). -/
def Obligations.TrimRangeKept : Prop :=
  ∀ s t : State, s.TrimInv → step s = .next t → t.TrimInv

/-- FREE_RUN is the mode of a part that has never locked since power-on, HOLDOVER and LOCKED of one that has, and a
reference is active exactly in ACQUIRING and LOCKED (R33, R35, R40). -/
def Obligations.LoopModesKept : Prop :=
  ∀ s t : State, s.ModeInv → step s = .next t → t.ModeInv

/-- The upward store never holds more frames than the depth, nor does the downward one while the link is IN_FRAME: in LOF it
may hold more than a smaller depth written since (R61). The depth stays within 4..16, and the slip counters within 65,535
(R61, R62). -/
def Obligations.StoreFillKept : Prop :=
  ∀ s t : State, s.StoreInv → step s = .next t → t.StoreInv

/-- There is at most one duty console, an accepted incoming console is never the duty console, each handover state has the
timer, resume item, cut and consoles that the spec gives it, and no state from which a handover goes on coexists with an
active incident (R145, R146, R150 to R154). -/
def Obligations.HandoverItemsKept : Prop :=
  ∀ s t : State, s.HandoverInv → step s = .next t → t.HandoverInv

/-- In every shift record each unit's durations sum to the record's length; the records of the ring are contiguous with
consecutive numbers, and the open shift follows the newest (R160 to R168). The premises keep E within its service life and
the tick from passing a timer of the handover (log entries 4 and 8). -/
def Obligations.ShiftRecordsKept : Prop :=
  ∀ s t : State, s.inService → s.frontInTime → s.HandoverInv → s.TallyInv → s.Prompt → s.ShiftInv →
    step s = .next t → t.ShiftInv ∧ t.Prompt

/-! ### The Timebase (chapter 1) -/

/-- E and the carried fraction move at TICK and at POWER_ON_RESET alone; Δ, the unset flag, the step count, the trim in
force, U and the quality class change at STEP_APPLICATION, at LOCAL_SECOND_BOUNDARY and at POWER_ON_RESET alone (R3, R4,
R10, R11, R15 to R19). -/
def Obligations.TimebaseMovesOnlyAtItsInstants : Prop :=
  (∀ (c : Instr) (s : State), c ≠ .tick → (∀ cause, c ≠ .powerOnReset cause) →
    ∃ t, exec c s = .next t ∧ t.tb.e = s.tb.e ∧ t.tb.fraction = s.tb.fraction) ∧
  ∀ (c : Instr) (s : State), c ≠ .stepApplication → c ≠ .localSecondBoundary →
    (∀ cause, c ≠ .powerOnReset cause) →
    ∃ t, exec c s = .next t ∧ t.tb.delta = s.tb.delta ∧ t.tb.unset = s.tb.unset ∧
      t.tb.stepCount = s.tb.stepCount ∧ t.tb.trim = s.tb.trim ∧ t.tb.u = s.tb.u ∧ t.tb.quality = s.tb.quality

/-- Out of reset TICK raises E by exactly one, and the carried fraction gains what `n` nominal ticks of the oscillator bring
under the trim in force, less the tick made; an upward frame that started at the tick that ends here shows in its status
octet the class, the mode and the EQ fill as that tick leaves them, its upstream-fault flag as at its start; the reply of a
reading request executed at the tick may change, as `ReadsChangeNothing` states; nothing else changes, and in reset nothing
at all (R1 to R3, R57, R177). That the fraction is kept in units of 10^−9 tick, and that the status octet and such a reply
are settled as the tick ends, is the model's (log entries 9, 20 and 52). -/
def Obligations.TickRaisesElapsedCountByOne : Prop :=
  (∀ s : State, s.inReset = true → exec .tick s = .next s) ∧
  ∀ s : State, s.inReset = false → s.tb.e + 1 < 281474976710656 → TrimOk s.tb.trim → s.tb.fraction < 1000200000 →
    ∃ (t : State) (n f : Nat), exec .tick s = .next t ∧ n ≤ 2 ∧ f < 1000200000 ∧
      (f : Int) + 1000000000 = s.tb.fraction + n * (1000000000 + s.tb.trim) ∧
      t.tb = { s.tb with e := s.tb.e + 1, fraction := f } ∧ Within [.tb, .sli, .ml] s t ∧
      t.ml = { s.ml with reply := t.ml.reply } ∧
      ((∀ k l, s.ml.request = .executed (k :: l) → s.ml.executedAt = some s.tb.e →
        k ∉ [0x01#8, 0x02#8, 0x11#8, 0x21#8, 0x31#8, 0x41#8, 0x42#8]) → t.ml = s.ml) ∧
      t.sli = { s.sli with up := t.sli.up } ∧ ((∀ u ∈ s.sli.up, u.start ≠ s.tb.e) → t.sli = s.sli) ∧
      ∀ u, s.sli.up = some u → u.start = s.tb.e →
        ∃ status : Octet, t.sli.up = some { u with frame := { u.frame with status := status } } ∧
          status.toNat = s.tb.quality.val * 32 + tbModeCode s.dl.mode * 8 +
            (if u.frame.status.getLsbD 2 then 4 else 0) + (if 480 ≤ s.eq.records.length then 2 else 0)

/-- Out of reset, over a span of ticks during which one trim is in force and which begins and ends with less than a whole
tick carried, the count of ticks made differs from the exact corrected count by less than one tick (R2). The carried
fraction is counted in the model's units (log entry 9). -/
def Obligations.TicksFollowTrim : Prop :=
  ∀ (x : Nat → State) (k : Nat), (∀ i < k, exec .tick (x i) = .next (x (i + 1))) →
    (x 0).inReset = false → (x 0).tb.e + k < 281474976710656 → TrimOk (x 0).tb.trim →
    (x 0).tb.fraction < 1000000000 → (x k).tb.fraction < 1000000000 →
    (x k).tb.e = (x 0).tb.e + k ∧
      |((∑ i ∈ Finset.range k, tickIntervals (x i).tb.fraction (x 0).tb.trim : Nat) : Int)
          * (1000000000 + (x 0).tb.trim) - k * 1000000000| < 1000000000

/-- STEP_APPLICATION at or after the application tick: station time at E_a is clamped to 0 and the top value, the step count
rises by one modulo 256, the unset flag clears, the pending step is used up, U is set only when the step sets time, the
class is evaluated, and the TIME_STEP record is the first one offered (R10, R11, R13, R18, R19, R46). Before the application
tick, or with no step pending, nothing happens. That nothing happens when the event is not due, and that the record names
the reference active at the application after a switch of reference too, are the model's choice (log entries 11 and 50). -/
def Obligations.StepAppliedAtItsTick : Prop :=
  (∀ (s : State) (p : PendingStep), s.tb.pendingStep = some p → p.applyAt ≤ s.tb.e →
    ∃ t, exec .stepApplication s = .next t ∧
      (t.tb.e : Int) + t.tb.delta = max 0 (min 70368744177663999 ((s.tb.e : Int) + s.tb.delta + p.amount)) ∧
      t.tb.e = s.tb.e ∧ t.tb.stepCount = (s.tb.stepCount + 1) % 256 ∧ t.tb.unset = false ∧ t.tb.pendingStep = none ∧
      t.tb.trim = s.tb.trim ∧ t.tb.pendingTrim = s.tb.pendingTrim ∧
      (s.tb.unset = false → t.tb.u = s.tb.u) ∧
      (∀ r acc, s.tb.unset = true → s.dl.active = some r → accuracyNs (s.refClass r) = some acc →
        t.tb.u = min (acc + p.residual.natAbs) 4000000000) ∧
      t.tb.quality = qualityOf false t.tb.u ∧
      (s.eq.records.length < 512 →
        s.admittedNext t (timeStepRecord s.dl.active s.tb.stepCount t.tb.stepCount (t.tb.delta - s.tb.delta)
          (stampOf t.tb.vals s.tb.e))) ∧
      Within [.tb, .rm, .hc, .eq, .sh, .tu] s t) ∧
  ∀ s : State, (∀ p ∈ s.tb.pendingStep, s.tb.e < p.applyAt) → exec .stepApplication s = .next s

/-- At each change of Δ, by a step or by a time setting, the last phase error of each reference becomes the wrapped value of
e − c × 15,625 ns, with c the change of Δ in ticks; a change of whole seconds leaves it as it was; the build-out is not
changed (R24). -/
def Obligations.PhaseErrorsMoveWithOffset : Prop :=
  ∀ (c : Instr) (s : State), c = .stepApplication ∨ c = .localSecondBoundary →
    ∃ t, exec c s = .next t ∧
      (t.rm.a.buildOut = s.rm.a.buildOut ∧ t.rm.b.buildOut = s.rm.b.buildOut) ∧
      (t.tb.stepCount ≠ s.tb.stepCount →
        t.rm.a.lastErr = s.rm.a.lastErr.map (fun x => wrapPhase (x - (t.tb.delta - s.tb.delta) * 15625)) ∧
        t.rm.b.lastErr = s.rm.b.lastErr.map (fun x => wrapPhase (x - (t.tb.delta - s.tb.delta) * 15625))) ∧
      (t.tb.stepCount = s.tb.stepCount → s.tb.stepCount < 256 →
        t.tb.delta = s.tb.delta ∧ t.rm.a.lastErr = s.rm.a.lastErr ∧ t.rm.b.lastErr = s.rm.b.lastErr) ∧
      ((∀ x ∈ s.rm.a.lastErr, -500000000 ≤ x ∧ x < 500000000) → (t.tb.delta - s.tb.delta) % 64000 = 0 →
        t.rm.a.lastErr = s.rm.a.lastErr) ∧
      ((∀ x ∈ s.rm.b.lastErr, -500000000 ≤ x ∧ x < 500000000) → (t.tb.delta - s.tb.delta) % 64000 = 0 →
        t.rm.b.lastErr = s.rm.b.lastErr)

/-- At a local second boundary with no time setting pending, U is recomputed from the mode and the active reference at the
end of the closing second, saturating at 4,000,000,000 ns, and the class is evaluated; Δ and the step count stay (R17, R19).
A change of mode or reference at the boundary's own tick belongs to the second that begins there: such a change keeps the
closing mode, and with none at this tick it is the mode in force. The class is TQ7 while time is unset, and otherwise the
number of class bounds that U exceeds. U is left open here for a LOCKED second without an active reference, or whose
reference has an accuracy and no last phase error, which no run reaches (log entry 43). -/
def Obligations.UncertaintyRecomputedAtBoundary : Prop :=
  (∀ u : Nat, (qualityOf true u).val = 7 ∧
    (qualityOf false u).val = ([1000, 10000, 100000, 1000000, 10000000, 100000000].filter (· < u)).length) ∧
  (∀ (s : State) (mode : TbMode) (active : Option Ref) (cause : TbCause),
    (s.setMode mode active cause).closingMode = s.closingMode) ∧
  (∀ s : State, s.modeSettled → s.closingMode = (s.dl.mode, s.dl.active)) ∧
  (∀ s : State, s.inReset = false → s.tb.e + 1 < 281474976710656 → (∀ b ∈ s.dl.before, b.tick ≤ s.tb.e) →
    ∃ t, exec .tick s = .next t ∧ t.modeSettled) ∧
  ∀ s : State, s.atBoundary → s.tb.pendingSetting = none →
    let mode := s.closingMode.1
    let active := s.closingMode.2
    ∃ t, exec .localSecondBoundary s = .next t ∧
      t.tb.delta = s.tb.delta ∧ t.tb.stepCount = s.tb.stepCount ∧ t.tb.unset = s.tb.unset ∧
      (s.tb.unset = true → t.tb.u = 4000000000 ∧ t.tb.quality = 7) ∧
      (s.tb.unset = false →
        t.tb.quality = qualityOf false t.tb.u ∧
        (mode = .freeRun → t.tb.u = min (s.tb.u + 50000) 4000000000) ∧
        (mode = .acquiring ∨ mode = .holdover →
          t.tb.u = min (s.tb.u + s.ml.params.driftBound) 4000000000) ∧
        (∀ r acc err, mode = .locked → active = some r → accuracyNs (s.refClass r) = some acc →
          (s.rm.get r).lastErr = some err → (r = .a → s.rm.agree ≠ 0) →
          t.tb.u = min (acc + err.natAbs) 4000000000) ∧
        (∀ r, mode = .locked → active = some r → s.refClass r = 7 ∨ (r = .a ∧ s.rm.agree = 0) →
          t.tb.u = min (s.tb.u + s.ml.params.driftBound) 4000000000)) ∧
      (t.tb.quality ≠ s.tb.quality → s.eq.records.length < 512 →
        s.admittedNext t (mkRecord .quality .a 0 s.tb.quality.val t.tb.quality.val 0 (stampOf t.tb.vals s.tb.e)))

/-- A pending time setting is applied at the local second boundary: station time there becomes the given second, tick 0, the
step count rises by one, time is set, U becomes the given accuracy, the class is evaluated and the TIME_SET record is the
first one offered (R11, R15, R16, R18, R19). That its record is offered before the others of the boundary follows the
model's order (log entry 21). -/
def Obligations.TimeSettingAppliedAtBoundary : Prop :=
  ∀ (s : State) (x : TimeSetting), s.atBoundary → s.tb.pendingSetting = some x →
    ∃ t, exec .localSecondBoundary s = .next t ∧
      (t.tb.e : Int) + t.tb.delta = x.seconds * 64000 ∧ t.tb.e = s.tb.e ∧
      t.tb.stepCount = (s.tb.stepCount + 1) % 256 ∧ t.tb.unset = false ∧ t.tb.pendingSetting = none ∧
      t.tb.u = min x.accuracy 4000000000 ∧ t.tb.quality = qualityOf false t.tb.u ∧
      (s.eq.records.length < 512 →
        s.admittedNext t (timeSetRecord s.tb.stepCount t.tb.stepCount (t.tb.delta - s.tb.delta)
          (stampOf t.tb.vals s.tb.e)))

/-- LOCAL_SECOND_BOUNDARY at a tick whose tick of second is 0: a confirmed step goes to the Timebase, where with none
pending its application tick is the first frame boundary after E_b, and with one pending the amounts add and the earlier
application tick stays; the pending trim becomes the trim in force and keeps its value, the written P and Q come into force,
and both record-made flags are cleared (R4, R6, R9, R34, R38, R64). At any other tick, and a second time at the same tick,
nothing happens. That nothing happens when the event is not due is the model's choice (log entry 11). The order within the
boundary is the model's (log entry 21). -/
def Obligations.SecondBoundaryLatches : Prop :=
  (∀ (s : State) (k res : Int), s.atBoundary → s.dl.confirmed = some (k, res) →
    ∃ t p, exec .localSecondBoundary s = .next t ∧ t.dl.confirmed = none ∧ t.tb.pendingStep = some p ∧
      (s.tb.pendingStep = none →
        p.amount = k ∧ p.residual = res ∧ p.applyAt % 16 = 0 ∧ s.tb.e < p.applyAt ∧ p.applyAt ≤ s.tb.e + 16) ∧
      ∀ o, s.tb.pendingStep = some o → p.amount = o.amount + k ∧ p.applyAt = o.applyAt) ∧
  (∀ s : State, s.atBoundary →
    ∃ t, exec .localSecondBoundary s = .next t ∧ t.tb.trim = s.tb.pendingTrim ∧ t.tb.pendingTrim = s.tb.pendingTrim ∧
      t.tb.e = s.tb.e ∧ t.tb.lastBoundary = some s.tb.e ∧
      t.dl.p = s.ml.params.p ∧ t.dl.q = s.ml.params.q ∧ t.dl.mode = s.dl.mode ∧ t.dl.active = s.dl.active ∧
      t.dl.integral = s.dl.integral ∧ t.up = { s.up with recordMade := false } ∧
      t.down = { s.down with recordMade := false } ∧
      Within [.tb, .dl, .up, .down, .rm, .hc, .eq, .sh, .tu] s t) ∧
  ∀ s : State, ¬ s.atBoundary → exec .localSecondBoundary s = .next s

/-! ### References and the Discipline Loop (chapter 2) -/

/-- A marker of B from a pulse that the filter takes, and a flagged frame taken in IN_FRAME, become the last marker of their
reference at E; the last phase error is a multiple of 8 within −500,000,000..+499,999,992 ns that lies less than 8 ns from
the nearest local second boundary less the marker, the earlier boundary at the halfway point (R22, R23, R65). Which of two
multiples it is stays free (log entry 3). A shorter pulse, and one in reset, gives no marker. The operands of a marker are
the model's (log entry 16). -/
def Obligations.MarkerMeasuresPhase : Prop :=
  let exact := fun (s : State) (fine : Fin 15625) =>
    let after : Int := ((s.tb.e : Int) + s.tb.delta) % 64000 * 15625 + fine.val
    if after ≤ 500000000 then -after else 1000000000 - after
  let measured := fun (s t : State) (r : Ref) (fine : Fin 15625) =>
    (t.rm.get r).lastMarker = some s.tb.e ∧ (t.rm.get r).lastErr = some (s.errAt r fine) ∧
      s.errAt r fine % 8 = 0 ∧ -500000000 ≤ s.errAt r fine ∧ s.errAt r fine ≤ 499999992 ∧
      |s.errAt r fine - exact s fine| < 8
  (∀ (s : State) (c : Instr) (r : Ref) (fine : Fin 15625), s.marks c fine r →
    ∃ t, exec c s = .next t ∧ measured s t r fine ∧ Within (markerBlocks r) s t) ∧
  ∀ (s : State) (fine : Fin 15625) (p : Pulse), ¬ p.passes ∨ s.inReset = true → exec (.bMarker fine p) s = .next s

/-- Qualification by markers of either reference (R25, R27 to R30, R32): in ABSENT a marker opens QUALIFYING with count 0;
in QUALIFYING a good second raises the count, and at the qualify count the reference is QUALIFIED since the marker's E; a
bad second sets the count to 0; in QUALIFIED the second of two bad seconds faults it, with reason MESSAGE when its message
or class fails and JITTER otherwise, and a single one does not; in FAULTED a good second at or after the holdoff end opens
QUALIFYING with count 1. A good second of A sets the seconds agreement: W is the message's seconds less those of the nearest
boundary, and the agreement count rises while W is 0 and returns to 0 otherwise; a bad second leaves both, and every marker
of A clears its message. -/
def Obligations.MarkersQualifyOrFaultReference : Prop :=
  (∀ (s : State) (c : Instr) (r : Ref) (fine : Fin 15625), s.marks c fine r → (s.rm.get r).qual = .qualified →
    (s.rm.get r).lastMarker.isSome → ¬ s.GoodSecond r fine →
    ∃ t, exec c s = .next t ∧ (t.rm.get r).prevBad = true ∧
      ((s.rm.get r).prevBad = false → (t.rm.get r).qual = .qualified) ∧
      ((s.rm.get r).prevBad = true →
        (t.rm.get r).qual = .faulted ∧ (t.rm.get r).holdoffEnd = some (s.tb.e + 128000) ∧ (t.rm.get r).count = 0 ∧
          (t.rm.get r).qualifiedSince = none ∧ (s.vouched r → (t.rm.get r).fault = .jitter) ∧
          (¬ s.vouched r → (t.rm.get r).fault = .message))) ∧
  (∀ (s : State) (c : Instr) (r : Ref) (fine : Fin 15625), s.marks c fine r →
    let x := s.rm.get r
    ∃ t, exec c s = .next t ∧
      let y := t.rm.get r
      (x.qual = .absent → y.qual = .qualifying ∧ y.count = 0 ∧ y.fault = .none ∧ t.dl = s.dl ∧
        (s.eq.records.length < 480 →
          s.admittedNext t (mkRecord .refState .b (refCode (some r)) 0 1 0 (stampOf s.tb.vals s.tb.e)))) ∧
      (x.qual = .qualifying → s.GoodSecond r fine → x.count + 1 < s.ml.params.qualifyCount →
        y.qual = .qualifying ∧ y.count = x.count + 1) ∧
      (x.qual = .qualifying → s.GoodSecond r fine → s.ml.params.qualifyCount ≤ x.count + 1 →
        y.qual = .qualified ∧ y.qualifiedSince = some s.tb.e) ∧
      (x.qual = .qualifying → x.lastMarker.isSome → ¬ s.GoodSecond r fine → y.qual = .qualifying ∧ y.count = 0) ∧
      (x.qual = .faulted → s.GoodSecond r fine → (∀ h ∈ x.holdoffEnd, h ≤ s.tb.e) →
        y.qual = .qualifying ∧ y.count = 1 ∧ y.fault = .none) ∧
      (x.qual = .faulted → x.lastMarker.isSome →
        ¬ s.GoodSecond r fine ∨ (∃ h, x.holdoffEnd = some h ∧ s.tb.e < h) → y.qual = .faulted)) ∧
  ∀ (s : State) (c : Instr) (fine : Fin 15625), s.marks c fine .a →
    ∃ t, exec c s = .next t ∧ t.rm.message = none ∧
      (s.rm.a.qual ≠ .absent → s.GoodSecond .a fine →
        t.rm.w = s.secondsApart fine .a ∧
          t.rm.agree = if s.secondsApart fine .a = 0 then min (s.rm.agree + 1) 255 else 0) ∧
      (s.rm.a.qual = .absent ∨ ¬ s.GoodSecond .a fine → t.rm.w = s.rm.w ∧ t.rm.agree = s.rm.agree)

/-- 1.5 s without a marker fault a QUALIFIED reference with reason MISSING; when it was the active one, its search ends with
I restored and the DL follows the other reference if that is usable, and otherwise none, in HOLDOVER if the part has locked
and FREE_RUN if not, with I as the pending trim. A switch to B in LOCKED with build-out on takes the build-out that lets the
loop input go on from its value on A, and any other switch build-out 0. 3 s without a marker make a QUALIFYING or FAULTED
reference ABSENT, with no last marker and no last phase error and a class B REF_STATE record (R28 to R30, R32, R40, R41).
That nothing happens when the event is not due is the model's choice (log entry 11). -/
def Obligations.MarkerTimeoutsLoseReference : Prop :=
  (∀ (s : State) (r : Ref) (m : Nat), (s.rm.get r).qual = .qualified → (s.rm.get r).lastMarker = some m →
    (s.tb.e < m + 96000 → exec (.markerMissingTimeout r) s = .next s) ∧
    (m + 96000 ≤ s.tb.e →
      ∃ t, exec (.markerMissingTimeout r) s = .next t ∧ (t.rm.get r).qual = .faulted ∧ (t.rm.get r).fault = .missing ∧
        (t.rm.get r).holdoffEnd = some (s.tb.e + 128000) ∧ (t.rm.get r).count = 0 ∧ (t.rm.get r).qualifiedSince = none ∧
        (t.rm.get r).lastMarker = some m ∧
        (s.dl.active ≠ some r → t.dl = s.dl ∧ t.tb = s.tb) ∧
        (s.dl.active = some r → t.dl.search = none ∧ (∀ x ∈ s.dl.search, t.dl.integral = x.savedI) ∧
          (s.dl.search = none → t.dl.integral = s.dl.integral) ∧
          (s.usable (otherRef r) = true → t.dl.active = some (otherRef r) ∧ t.dl.mode = s.dl.mode ∧ t.dl.history = [] ∧
            s.switchedBuildOut (otherRef r) (t.rm.get (otherRef r)).buildOut) ∧
          (s.usable (otherRef r) = false → t.dl.active = none ∧ t.tb.pendingTrim = t.dl.integral ∧
            t.dl.mode = if s.dl.everLocked then .holdover else .freeRun)) ∧
        Within [.rm, .dl, .tb, .eq, .sh] s t)) ∧
  ∀ (s : State) (r : Ref) (m : Nat), (s.rm.get r).qual = .qualifying ∨ (s.rm.get r).qual = .faulted →
    (s.rm.get r).lastMarker = some m →
    (s.tb.e < m + 192000 → exec (.markerAbsentTimeout r) s = .next s) ∧
    (m + 192000 ≤ s.tb.e →
      ∃ t, exec (.markerAbsentTimeout r) s = .next t ∧
        t.rm.get r = { s.rm.get r with qual := .absent, lastMarker := none, lastErr := none } ∧
        t.rm.get (otherRef r) = s.rm.get (otherRef r) ∧
        (s.eq.records.length < 480 →
          s.admittedNext t (mkRecord .refState .b (refCode (some r)) (qualCode (s.rm.get r).qual) 0 0
            (stampOf s.tb.vals s.tb.e))) ∧
        Within [.rm, .eq, .sh] s t)

/-- REVERT_WAIT_EXPIRY returns from B to A exactly when all the conditions hold: A becomes active with build-out 0, the
history is emptied and the mode stays; otherwise nothing happens (R42, R45). That nothing happens when the event is not due
is the model's choice (log entry 11). -/
def Obligations.RevertWaitReturnsToA : Prop :=
  ∀ s : State,
    let due := s.ml.params.policy = .auto ∧ s.ml.params.revertive = true ∧ s.dl.active = some .b ∧
      (s.dl.mode = .acquiring ∨ s.dl.mode = .locked) ∧ s.dl.search = none ∧ s.rm.a.qual = .qualified ∧
      ∃ q, s.rm.a.qualifiedSince = some q ∧ q + s.ml.params.revertHoldoff * 64000 ≤ s.tb.e
    (due → ∃ t, exec .revertWaitExpiry s = .next t ∧ t.dl.active = some .a ∧ t.dl.mode = s.dl.mode ∧ t.dl.history = [] ∧
      t.dl.confirmed = none ∧ t.rm = { s.rm with a := { s.rm.a with buildOut := 0 } } ∧ t.tb = s.tb ∧
      (s.eq.records.length < 512 →
        s.admittedNext t (mkRecord .timebase .a 1 (tbModeCode s.dl.mode) (tbModeCode s.dl.mode) 3
          (stampOf s.tb.vals s.tb.e))) ∧
      Within [.rm, .dl, .eq, .sh] s t) ∧
    (¬ due → exec .revertWaitExpiry s = .next s)

/-- A loop computation: I_new = clamp(I + floor(e′ / 2^Q)), T = clamp(I_new + floor(e′ / 2^P)), both within
−200,000..+200,000 ppb, with the P and Q in force; I_new replaces I and T is the pending trim (R37). -/
def Obligations.LoopComputationSetsTrim : Prop :=
  ∀ (s : State) (x : Int),
    let i := max (-200000) (min 200000 (s.dl.integral + Int.fdiv x (2 ^ s.dl.q)))
    (s.runLoop x).dl.integral = i ∧
      (s.runLoop x).tb.pendingTrim = max (-200000) (min 200000 (i + Int.fdiv x (2 ^ s.dl.p))) ∧
      TrimOk (s.runLoop x).dl.integral ∧ TrimOk (s.runLoop x).tb.pendingTrim ∧ (s.runLoop x).tb.trim = s.tb.trim ∧
      ∀ b : State, b.atBoundary → ∃ t, exec .localSecondBoundary b = .next t ∧ t.tb.trim = b.tb.pendingTrim

/-- A good second of the followed reference that needs no step, with no search running, makes the loop run on e less the
build-out, and in ACQUIRING the mode becomes LOCKED at that marker; a bad second that leaves the reference QUALIFIED, and
one that comes while a step is pending, hold the loop: I, the trims, the mode and the active reference stay, and the
step-confirmation history is emptied (R36, R37, R39, R40). A second needs no step when the loop input lies within the step
threshold and, on A, the seconds agree. That a second with a step pending counts as bad for the loop is deduced (log entry
25). -/
def Obligations.LoopRunsOnGoodSecondsAlone : Prop :=
  (∀ (s : State) (c : Instr) (r : Ref) (fine : Fin 15625), s.marks c fine r →
    s.dl.mode = .acquiring ∨ s.dl.mode = .locked → s.dl.active = some r → (s.rm.get r).qual = .qualified →
    (s.rm.get r).lastMarker.isSome → (s.rm.get r).prevBad = false → ¬ s.GoodSecond r fine ∨ s.tb.pendingStep.isSome →
    ∃ t, exec c s = .next t ∧ t.tb = s.tb ∧ t.dl.integral = s.dl.integral ∧ t.dl.mode = s.dl.mode ∧
      t.dl.active = s.dl.active ∧ t.dl.history = []) ∧
  ∀ (s : State) (c : Instr) (r : Ref) (fine : Fin 15625), s.marks c fine r → s.Follows r → s.GoodSecond r fine →
    s.dl.search = none →
    let x := wrapPhase (s.errAt r fine - (s.rm.get r).buildOut)
    x.natAbs ≤ s.ml.params.stepThreshold → s.secondsApart fine r = 0 →
    ∃ t, exec c s = .next t ∧
      t.dl.integral = max (-200000) (min 200000 (s.dl.integral + Int.fdiv x (2 ^ s.dl.q))) ∧
      t.tb.pendingTrim = max (-200000) (min 200000 (t.dl.integral + Int.fdiv x (2 ^ s.dl.p))) ∧
      t.tb.trim = s.tb.trim ∧ t.dl.mode = .locked ∧ t.dl.history = [] ∧
      (s.dl.mode = .acquiring → t.dl.everLocked = true) ∧
      (s.dl.mode = .locked ∨ r = .a → t.dl.active = some r)

/-- Step confirmation: a second of the followed reference that needs a step, by its loop input or by the whole seconds W in
which A disagrees, joins a history that it agrees with in W and e, and restarts any other; the third agreeing second
confirms the step of W × 64,000 ticks and the ticks nearest to e, half away from zero, with the residual e − k × 15,625 of
at most 7,813 ns for those k ticks, empties the history and sets the build-out to 0; the loop does not run (R36, R38). -/
def Obligations.ThreeAgreeingSecondsConfirmStep : Prop :=
  ∀ (s : State) (c : Instr) (r : Ref) (fine : Fin 15625), s.marks c fine r → s.Follows r → s.GoodSecond r fine →
    s.dl.search = none →
    let e := s.errAt r fine
    let w := s.secondsApart fine r
    s.ml.params.stepThreshold < (wrapPhase (e - (s.rm.get r).buildOut)).natAbs ∨ w ≠ 0 →
    ∃ t, exec c s = .next t ∧ t.tb = s.tb ∧ t.dl.integral = s.dl.integral ∧ t.dl.mode = s.dl.mode ∧
      (s.dl.history = [] → t.dl.history = [(w, e)]) ∧
      (∀ h w₀ e₀, s.dl.history = h ++ [(w₀, e₀)] →
        (w₀ ≠ w ∨ s.ml.params.jitterLimit < (wrapPhase (e - e₀)).natAbs → t.dl.history = [(w, e)]) ∧
        (w₀ = w → (wrapPhase (e - e₀)).natAbs ≤ s.ml.params.jitterLimit →
          (h = [] → t.dl.history = s.dl.history ++ [(w, e)]) ∧
          (h ≠ [] →
            ∃ k : Int, t.dl.confirmed = some (w * 64000 + k, e - k * 15625) ∧ t.dl.history = [] ∧
              (t.rm.get r).buildOut = 0 ∧ 2 * |e - k * 15625| ≤ 15625 ∧
              (2 * |e - k * 15625| = 15625 → |e| < |k * 15625|) ∧ |e - k * 15625| ≤ 7813)))

/-- A trim search: the first good second after the interval's trim took effect opens the measurement, and the third good
second after it closes the interval; the trim moves by the step size toward the sign of the phase difference d, clamped, and
opens the next interval with half the step size; d = 0, or a step size of 25 or less, completes the search with the trim
found as I and pending trim (R48, R49). The seconds here need no step. -/
def Obligations.TrimSearchMovesByStepSize : Prop :=
  ∀ (s : State) (c : Instr) (r : Ref) (fine : Fin 15625) (x : Search), s.marks c fine r → s.Follows r →
    s.GoodSecond r fine → s.dl.search = some x → x.armed = true →
    (wrapPhase (s.errAt r fine - (s.rm.get r).buildOut)).natAbs ≤ s.ml.params.stepThreshold → s.secondsApart fine r = 0 →
    ∃ t, exec c s = .next t ∧
      (x.start = none → t.dl.search = some { x with start := some (s.errAt r fine, 0) } ∧ t.tb = s.tb) ∧
      (∀ e₀ n, x.start = some (e₀, n) → n < 2 →
        t.dl.search = some { x with start := some (e₀, n + 1) } ∧ t.tb = s.tb) ∧
      (∀ e₀ n, x.start = some (e₀, n) → 2 ≤ n →
        let d := wrapPhase (s.errAt r fine - e₀)
        let found := max (-200000) (min 200000 (x.trim + d.sign * x.stepSize))
        t.tb.pendingTrim = found ∧
          (d ≠ 0 → 25 < x.stepSize →
            t.dl.search = some { x with trim := found, stepSize := x.stepSize / 2, armed := false, start := none } ∧
              t.dl.integral = s.dl.integral) ∧
          (d = 0 ∨ x.stepSize ≤ 25 → t.dl.search = none ∧ t.dl.integral = found ∧
            (s.eq.records.length < 512 →
              s.admittedNext t (mkRecord .timebase .a (refCode (some r)) (tbModeCode s.dl.mode) (tbModeCode s.dl.mode) 5
                (stampOf s.tb.vals s.tb.e)))))

/-- A's time message is assembled from the time octets of unflagged frames taken in IN_FRAME: 0xC5 begins it, octets 1 to 6
are taken in order, and the eighth completes it with its seconds, the class of bits 2–0 and the result of the check, which
sets the accuracy class of A when it is correct and the class is not 7 (R25, R26, R186). -/
def Obligations.TimeMessageAssembled : Prop :=
  ∀ (s : State) (fine : Fin 15625) (f : DownFrame), s.sli.alignment = .inFrame → f.hasSync = true → markerFlag f = false →
    ∃ t, exec (.frameTaken fine f) s = .next t ∧ t.rm.a = s.rm.a ∧ t.rm.b = s.rm.b ∧
      (s.rm.assembly = [] → f.time = 0xC5#8 → t.rm = { s.rm with assembly := [0xC5#8] }) ∧
      (s.rm.assembly = [] → f.time ≠ 0xC5#8 → t.rm = s.rm) ∧
      (s.rm.assembly ≠ [] → s.rm.assembly.length < 7 →
        t.rm = { s.rm with assembly := s.rm.assembly ++ [f.time] }) ∧
      (∀ o₀ o₁ o₂ o₃ o₄ o₅ o₆ : Octet, s.rm.assembly = [o₀, o₁, o₂, o₃, o₄, o₅, o₆] →
        ∃ m : TimeMessage, t.rm.message = some m ∧ t.rm.assembly = [] ∧
          m.seconds = (o₁ ++ o₂ ++ o₃ ++ o₄ ++ o₅).toNat ∧ m.cls = o₆.toNat % 8 ∧
          (m.correct = true ↔ f.time = o₀ + o₁ + o₂ + o₃ + o₄ + o₅ + o₆) ∧
          t.rm.aClass = if m.correct = true ∧ m.cls ≠ 7 then m.cls else s.rm.aClass)

/-! ### The station link, the stores and the unit bus (chapter 3) -/

/-- FRAME_TAKEN in IN_FRAME: the missing-sync count is cleared, the next frame is expected 768 bits on, the upward frame is
due two ticks later unless one timed from E is still in progress, the ML reads the frame's management field, and the 24
command octets are written to the downward store (R52, R56, R58, R172). In LOF nothing happens. That a frame is not taken in
LOF is read from R51 and R52; the order within the frame is the model's (log entries 11 and 19). -/
def Obligations.FrameTakenIsDelivered : Prop :=
  ∀ (s : State) (fine : Fin 15625) (f : DownFrame), f.hasSync = true →
    (s.sli.alignment = .lof → exec (.frameTaken fine f) s = .next s) ∧
    (s.sli.alignment = .inFrame →
      ∃ t, exec (.frameTaken fine f) s = .next t ∧
        t.sli = { s.sli with missing := 0, expected := s.sli.expected.map (· + 768), upDue := t.sli.upDue } ∧
        ((∃ u, s.sli.up = some u ∧ u.source = .elapsed ∧ s.tb.e < u.start + 16) → t.sli.upDue = none) ∧
        ((∀ u, s.sli.up = some u → u.source = .loop ∨ u.start + 16 ≤ s.tb.e) → t.sli.upDue = some (s.tb.e + 2)) ∧
        t.ml = s.ml.read (mgmtFieldOf f) ∧
        (s.down.frames.length < s.ml.params.storeDepth → t.down = { s.down with frames := s.down.frames ++ [f.commands] }) ∧
        (s.ml.params.storeDepth ≤ s.down.frames.length →
          t.down.frames = s.down.frames.tail ++ [f.commands] ∧ t.down.slips = min (s.down.slips + 1) 65535) ∧
        Within [.sli, .rm, .dl, .tb, .ml, .down, .eq, .sh] s t)

/-- In LOF, out of reset, a sync at or after the position searched from opens CONFIRMING, a sync at the expected position
counts, and at the third the link is IN_FRAME, in loop timing, with both stores recentred; a sync absent there resumes the
search at the bit after the failed candidate. In IN_FRAME an absent sync raises the missing count; below 4 its frame is
taken with nothing in it trusted; at 4 the link enters LOF: timing changes to E, reception is abandoned, and reference A
loses its message and, if QUALIFIED, faults with reason LINK (R31, R51, R53 to R56, R62). The positions of the hunt and what
a command finds not due are the model's (log entries 11 and 47). -/
def Obligations.AlignmentFoundAndLost : Prop :=
  (∀ s : State,
    (s.sli.alignment = .lof → exec .syncAbsentFrame s = .next s) ∧
    (s.sli.alignment = .inFrame → s.sli.missing < 3 →
      ∃ t, exec .syncAbsentFrame s = .next t ∧
        t.sli = { s.sli with missing := s.sli.missing + 1, syncErrors := min (s.sli.syncErrors + 1) 65535,
                             expected := s.sli.expected.map (· + 768), upDue := t.sli.upDue } ∧
        t.rm = { s.rm with assembly := [] } ∧ t.ml = s.ml.read brokenField ∧
        (s.down.frames.length < s.ml.params.storeDepth → t.down = { s.down with frames := s.down.frames ++ [onesFrame] }) ∧
        Within [.sli, .rm, .ml, .down, .eq, .sh] s t) ∧
    (s.sli.alignment = .inFrame → 3 ≤ s.sli.missing →
      ∃ t, exec .syncAbsentFrame s = .next t ∧
        t.sli = { s.sli with alignment := .lof, hunt := .searching, expected := none, searchFrom := t.sli.searchFrom,
                             missing := 4, syncErrors := min (s.sli.syncErrors + 1) 65535, upTiming := .elapsed,
                             upDue := none } ∧
        (∀ x, s.sli.expected = some x → t.sli.searchFrom = x + 1) ∧
        t.rm.assembly = [] ∧ t.rm.message = none ∧
        (s.rm.a.qual = .qualified → t.rm.a.qual = .faulted ∧ t.rm.a.fault = .link ∧
          t.rm.a.holdoffEnd = some (s.tb.e + 128000)) ∧
        (s.rm.a.qual = .qualifying → t.rm.a.qual = .absent ∧ t.rm.a.lastMarker = none ∧ t.rm.a.lastErr = none) ∧
        (s.rm.a.qual = .absent ∨ s.rm.a.qual = .faulted → t.rm.a = s.rm.a) ∧
        t.ml.rx = .idle ∧ t.ml.lastTurn = none ∧ t.ml.previous = none ∧ t.ml.tx = s.ml.tx ∧ t.ml.reply = s.ml.reply ∧
        (∀ l, s.ml.request = .partialRequest l → t.ml.request = .empty) ∧
        ((∀ l, s.ml.request ≠ .partialRequest l) → t.ml.request = s.ml.request) ∧
        Within [.sli, .rm, .dl, .tb, .ml, .eq, .sh] s t)) ∧
  ∀ s : State, s.sli.alignment = .lof →
    (∀ pos, s.sli.hunt = .searching →
      (pos < s.sli.searchFrom ∨ s.inReset = true → exec (.huntSyncFound pos) s = .next s) ∧
      (s.inReset = false → s.sli.searchFrom ≤ pos → exec (.huntSyncFound pos) s =
        .next { s with sli := { s.sli with hunt := .confirming 1, expected := some (pos + 768) } })) ∧
    (s.sli.hunt = .searching → exec .huntSyncAbsent s = .next s) ∧
    ∀ n pos, s.sli.hunt = .confirming n → s.sli.expected = some pos →
      (∀ other, other ≠ pos → exec (.huntSyncFound other) s = .next s) ∧
      (n < 2 → exec (.huntSyncFound pos) s =
        .next { s with sli := { s.sli with hunt := .confirming (n + 1), expected := some (pos + 768) } }) ∧
      (2 ≤ n → exec (.huntSyncFound pos) s =
        .next { s with
          sli := { s.sli with alignment := .inFrame, hunt := .searching, missing := 0, upTiming := .loop, upDue := none }
          up := { s.up with frames := List.replicate (s.ml.params.storeDepth / 2) s.up.last }
          down := { s.down with frames := List.replicate (s.ml.params.storeDepth / 2) onesFrame, last := onesFrame } }) ∧
      exec .huntSyncAbsent s =
        .next { s with sli := { s.sli with hunt := .searching, expected := none, searchFrom := pos - 768 * n + 1 } }

/-- The elastic stores: a write appends at the newest end and a read takes the oldest frame, which becomes the last frame
read; a write at fill D drops the oldest frame first, a read at fill 0 repeats the last frame read, and each is a slip of
its type that raises the slip counter by 1 up to 65,535; a write and a read at one tick act in the order taken; the downward
store of a link in LOF is neither written nor read (R63). The first slip of a store in a local second makes a SLIP record of
class B, which is lost and counted when the EQ does not admit it, and sets the record-made flag; later slips make none; a
local second boundary clears both flags (R64). -/
def Obligations.StoresSlipAtTheirEnds : Prop :=
  (∀ (s : State) (n : StoreName) (f : Vector Octet 24),
    let d := s.ml.params.storeDepth
    let x := s.store n
    let fresh := fun (t : State) (k : Nat) => (t.store n).recordMade = true ∧ (x.recordMade = false →
      (s.eq.records.length < 480 →
        s.admittedNext t
          (mkRecord .slip .b (storeCode n) x.slips (min (x.slips + 1) 65535) k (stampOf s.tb.vals s.tb.e))) ∧
      (480 ≤ s.eq.records.length →
        t.eq = { s.eq with lostB := min (s.eq.lostB + 1) 65535, lossPending := true }))
    (x.frames.length < d → s.writeStore n f = s.setStore n { x with frames := x.frames ++ [f] }) ∧
    (x.frames.length = d → 0 < d →
      ((s.writeStore n f).store n).frames = x.frames.tail ++ [f] ∧ ((s.writeStore n f).store n).frames.length = d ∧
        ((s.writeStore n f).store n).last = x.last ∧ ((s.writeStore n f).store n).slips = min (x.slips + 1) 65535 ∧
        fresh (s.writeStore n f) 0 ∧
        (((s.readStore n).writeStore n f).store n).slips = x.slips ∧
        (((s.writeStore n f).readStore n).store n).last = ((x.frames.tail ++ [f]).head?).getD x.last) ∧
    (∀ g r, x.frames = g :: r → s.readStore n = s.setStore n { x with frames := r, last := g }) ∧
    (x.frames = [] → 0 < d →
      ((s.readStore n).store n).frames = [] ∧ ((s.readStore n).store n).last = x.last ∧
        ((s.readStore n).store n).slips = min (x.slips + 1) 65535 ∧ fresh (s.readStore n) 1 ∧
        ((s.writeStore n f).readStore n).store n = { x with last := f } ∧
        (((s.readStore n).writeStore n f).store n).frames = [f]) ∧
    (x.recordMade = true → (s.writeStore n f).eq = s.eq ∧ (s.readStore n).eq = s.eq)) ∧
  (∀ s : State, s.atBoundary →
    ∃ t, exec .localSecondBoundary s = .next t ∧ t.up = { s.up with recordMade := false } ∧
      t.down = { s.down with recordMade := false }) ∧
  ∀ (c : Instr) (s : State), s.sli.alignment = .lof →
    c = .downlinkFrameStart ∨ c = .syncAbsentFrame ∨ c = .upwardFrameStart ∨ (∃ fine f, c = .frameTaken fine f) ∨
      (∃ u o, c = .look u o) →
    ∃ t, exec c s = .next t ∧ t.down = s.down

/-- UPWARD_FRAME_START when a frame is due: the frame begins with the sync 0x1B, 0xA7 and ends with idle fill; its status
octet shows the class, the timebase mode, LOF and a fill of the EQ of 480 or more, a record that the frame's own read makes
at this tick included, while what follows at the tick comes in with the TICK that ends it; it takes the pass-through octets
from the upward store; and the RA decides its report slot: the next two octets of the record in transmission, an abandoned
frame, the oldest record of the class whose turn it is with Record-start set, or idle contents (R56, R57, R63, R99, R100,
R103, R104, R186). When none is due nothing happens. That nothing happens then, and that the report slot is decided before
the store is read, are the model's choice (log entries 11 and 20). -/
def Obligations.UpwardFrameHasItsContents : Prop :=
  ∀ s : State,
    (¬ s.upwardDueNow → exec .upwardFrameStart s = .next s) ∧
    (s.upwardDueNow →
      ∃ t u, exec .upwardFrameStart s = .next t ∧ t.sli = { s.sli with upDue := none, up := some u } ∧
        u.start = s.tb.e ∧ u.source = s.sli.upTiming ∧
        u.frame.status.toNat = s.tb.quality.val * 32 + tbModeCode s.dl.mode * 8 +
          (if s.sli.alignment = .lof then 4 else 0) + (if 480 ≤ t.eq.records.length then 2 else 0) ∧
        u.frame.octets = [0x1B#8, 0xA7#8, u.frame.status, u.frame.report0, u.frame.report1, u.frame.recordStart, u.frame.mgmt,
          u.frame.control] ++ u.frame.passthrough.toList ++ List.replicate 64 0xFF#8 ∧
        (∀ f r, s.up.frames = f :: r → u.frame.passthrough = f ∧ t.up = { s.up with frames := r, last := f } ∧ t.eq = s.eq) ∧
        (s.up.frames = [] → u.frame.passthrough = s.up.last ∧ t.up.slips = min (s.up.slips + 1) 65535 ∧
          (s.up.recordMade = false → s.eq.records.length < 480 →
            s.admittedNext t (mkRecord .slip .b 0 s.up.slips (min (s.up.slips + 1) 65535) 1 (stampOf s.tb.vals s.tb.e)))) ∧
        (∀ x, s.ra.sending = some x → 1 ≤ x.frames → x.frames < 8 →
          u.slot = .record ∧ t.ra = { s.ra with sending := some { x with frames := x.frames + 1 } } ∧
            x.record.octets[2 * x.frames]? = some u.frame.report0 ∧
            x.record.octets[2 * x.frames + 1]? = some u.frame.report1 ∧ u.frame.recordStart = 0x00#8) ∧
        (s.ra.sending = none → 0 < s.ra.abandoned →
          u.slot = .abandoned ∧ t.ra = { s.ra with abandoned := s.ra.abandoned - 1 } ∧ u.frame.report0 = 0xFF#8 ∧
            u.frame.report1 = 0xFF#8 ∧ u.frame.recordStart = 0x00#8) ∧
        (s.ra.sending = none → s.ra.abandoned = 0 → ∀ c, s.turnOf c →
          ∃ r, s.eq.records.find? (fun q => q.cls == c) = some r ∧ u.slot = .record ∧
            t.ra = { s.ra with sending := some { record := r, frames := 1 } } ∧ r.octets[0]? = some u.frame.report0 ∧
            r.octets[1]? = some u.frame.report1 ∧ u.frame.recordStart = 0x80#8) ∧
        (s.ra.sending = none → s.ra.abandoned = 0 → ¬ s.mayStart .a → ¬ s.mayStart .b →
          u.slot = .idle ∧ t.ra = s.ra ∧ u.frame.report0 = 0xFF#8 ∧ u.frame.report1 = 0xFF#8 ∧
            u.frame.recordStart = 0x00#8) ∧
        Within [.sli, .ra, .ml, .up, .eq, .sh] s t)

/-- UPWARD_FRAME_END: an idle frame raises the idle count, saturating at 255, and at 4 sets both levels to NORMAL; a frame
with record octets sets it to 0; an abandoned frame leaves it. After frame 8 the record leaves the EQ, its class becomes
LOWERED and the other NORMAL, and a release round takes held entries until none can be taken (R56, R96, R97, R101 to R103).
A frame timed from E ends no earlier than 16 ticks after its start. That nothing happens with no frame in progress, or
before that end, and that a loop-timed frame ends whenever its command comes, is the model's choice (log entries 11 and 36).
-/
def Obligations.UpwardFrameEndCounts : Prop :=
  (∀ s : State, s.sli.up = none → exec .upwardFrameEnd s = .next s) ∧
  ∀ (s : State) (u : UpInProgress), s.sli.up = some u →
    (u.source = .elapsed → s.tb.e < u.start + 16 → exec .upwardFrameEnd s = .next s) ∧
    (u.source = .loop ∨ u.start + 16 ≤ s.tb.e →
      ∃ t, exec .upwardFrameEnd s = .next t ∧ t.sli = { s.sli with up := none } ∧
        (u.slot = .idle →
          t.ra = { s.ra with idle := min (s.ra.idle + 1) 255,
                             levelA := if s.ra.idle = 3 then .normal else s.ra.levelA,
                             levelB := if s.ra.idle = 3 then .normal else s.ra.levelB } ∧ t.eq = s.eq) ∧
        (u.slot = .abandoned → t.ra = s.ra ∧ t.eq = s.eq) ∧
        (u.slot = .record → ∀ x, s.ra.sending = some x → x.frames ≠ 8 → t.ra = { s.ra with idle := 0 } ∧ t.eq = s.eq) ∧
        (u.slot = .record → ∀ x, s.ra.sending = some x → x.frames = 8 →
          t.ra = { s.ra with idle := 0, sending := none, lastSender := some x.record.cls,
                             levelA := if x.record.cls = .a then .lowered else .normal,
                             levelB := if x.record.cls = .a then .normal else .lowered } ∧
          s.eq.records.erase x.record <+: t.eq.records ∧
          (∀ ch : Chan, t.cm[ch].store <:+ s.cm[ch].store) ∧
          (∀ ch : Chan, ∀ r ∈ t.cm[ch].store.head?,
            t.eq.takes r.cls = false ∨
              ∃ q ∈ t.eq.records, isChannelKind q.kind = true ∧ q.source = ch.val ∧ q.cls ≠ r.cls)) ∧
        Within [.sli, .ra, .eq, .sh, .cm] s t)

/-- DOWNLINK_FRAME_START, once at each tick at which E is a multiple of 16: the sync 0x1B, 0xA7, the second-start flag with
its offset, the message-start flag, the octet of the time distribution message taken at its first frame, the command octets
of the downward store or, in LOF, all-ones, the grant of the look before, and two octets of the console message in
transmission (R5, R54, R58, R60, R143, R145, R186). That nothing happens when the event is not due, and that the contents
are those at the command's place in its tick, is the model's choice (log entries 11 and 53). -/
def Obligations.DownlinkFrameHasItsContents : Prop :=
  ∀ s : State,
    (¬ s.frameDue → exec .downlinkFrameStart s = .next s) ∧
    (s.frameDue →
      let ahead := (-((s.tb.e : Int) + s.tb.delta) % 64000).toNat
      ∃ t f, exec .downlinkFrameStart s = .next t ∧ t.ubi.frame = some f ∧ f.start = s.tb.e ∧
        t.ubi.lastLook = s.ubi.lastLook ∧
        f.octets = [0x1B#8, 0xA7#8, f.flags, f.time, f.console0, f.console1, f.grant] ++ f.commands.toList ∧
        f.flags.toNat = (if ahead < 16 then 128 + ahead else 0) + (if s.tb.e / 16 % 8 = 0 then 64 else 0) ∧
        (s.tb.e / 16 % 8 ≠ 0 → t.ubi.distribution = s.ubi.distribution) ∧
        (s.tb.e / 16 % 8 = 0 →
          ∃ body, t.ubi.distribution = body ++ [checkOctet body] ∧
            body = natOctets 5 (if s.tb.unset then 0 else stationSeconds ((s.tb.e : Int) + s.tb.delta + ahead)) ++
              [octetOf (if s.tb.unset then 7 else s.tb.quality.val), octetOf s.tb.stepCount]) ∧
        (∀ o, t.ubi.distribution[s.tb.e / 16 % 8]? = some o → f.time = o) ∧
        (s.sli.alignment = .lof → f.commands = onesFrame ∧ t.down = s.down) ∧
        (∀ g r, s.sli.alignment = .inFrame → s.down.frames = g :: r →
          f.commands = g ∧ t.down = { s.down with frames := r, last := g }) ∧
        (s.sli.alignment = .inFrame → s.down.frames = [] →
          f.commands = s.down.last ∧ t.down.slips = min (s.down.slips + 1) 65535) ∧
        (∀ g, s.hc.grant = some g → g.frame + 1 = s.tb.e / 16 → f.grant.toNat = g.console.val + 1) ∧
        ((∀ g, s.hc.grant = some g → g.frame + 1 ≠ s.tb.e / 16) → f.grant = 0x00#8) ∧
        (s.hc.gap = false → s.hc.tx = none → s.hc.queue = [] →
          f.console0 = 0xFF#8 ∧ f.console1 = 0xFF#8 ∧ t.hc = s.hc) ∧
        (∀ m q, s.hc.gap = false → s.hc.tx = none → s.hc.queue = m :: q →
          m.octets[0]? = some f.console0 ∧ m.octets[1]? = some f.console1 ∧
            t.hc = { s.hc with tx := some { frames := 1, start := s.tb.e } }) ∧
        (∀ m q x, s.hc.gap = false → s.hc.tx = some { frames := 1, start := x } → s.hc.queue = m :: q →
          m.octets[2]? = some f.console0 ∧ m.octets[3]? = some f.console1 ∧
            t.hc = { s.hc with tx := some { frames := 2, start := s.tb.e } }) ∧
        (∀ m x, s.hc.gap = false → s.hc.tx = some { frames := 2, start := x } → x + 16 ≤ s.tb.e → s.hc.queue = [m] →
          f.console0 = 0xFF#8 ∧ f.console1 = 0xFF#8 ∧ t.hc = { s.hc with queue := [], tx := none }) ∧
        Within [.ubi, .hc, .down, .eq, .sh] s t)

/-! ### Receiving requests and sending replies (chapter 10) -/

/-- A downward octet that two consecutive frames show is taken when its Turn differs from the last taken one, or when there
is none and it is a First octet; it is echoed, and it begins, continues or, as Last octet, completes the request; a 65th
octet and a First octet that meets a busy buffer are stopped; an octet that is not taken changes nothing; two frames with
Valid inactive abandon reception (R172 to R174). The link is read while no reply is being sent. The order of the parts of a
field is deduced (log entries 34 and 35). -/
def Obligations.RequestOctetsTakenOnce : Prop :=
  ∀ (s : State) (fine : Fin 15625) (f : DownFrame) (p : MgmtField), s.sli.alignment = .inFrame → f.hasSync = true →
    s.ml.previous = some p → (∀ i turn n, s.ml.tx ≠ .sending i turn n) →
    let g := mgmtFieldOf f
    let seen := p.valid = true ∧ g.valid = true ∧ p.octet = g.octet ∧ p.turn = g.turn ∧ p.first = g.first ∧ p.last = g.last
    let wanted := (s.ml.lastTurn = none ∧ g.first = true) ∨ ∃ t, s.ml.lastTurn = some t ∧ t ≠ g.turn
    let busy := (∃ l, s.ml.request = .complete l) ∨ ∃ l, s.ml.request = .executed l
    ∃ t, exec (.frameTaken fine f) s = .next t ∧ t.ml.previous = some g ∧
      (let same := t.ml.rx = s.ml.rx ∧ t.ml.lastTurn = s.ml.lastTurn ∧ t.ml.echoSent = s.ml.echoSent ∧
        t.ml.request = s.ml.request
       let takes := fun l : List Octet => t.ml.lastTurn = some g.turn ∧ t.ml.echoSent = g.turn ∧
        t.ml.request = (if g.last then .complete l else .partialRequest l) ∧
        t.ml.rx = if g.last then .idle else .receiving l.length
       let stops := t.ml.rx = .stopping 2 ∧ t.ml.lastTurn = none ∧ t.ml.echoSent = s.ml.echoSent ∧
        t.ml.request = match s.ml.request with | .partialRequest _ => .empty | b => b
       (seen → ¬ wanted → same) ∧
       (seen → wanted → (∃ n, s.ml.rx = .stopping n) → same) ∧
       (seen → wanted → s.ml.rx = .idle → g.first = false → same) ∧
       (seen → wanted → (s.ml.rx = .idle ∨ ∃ n, s.ml.rx = .receiving n) → g.first = true → ¬ busy → takes [g.octet]) ∧
       (seen → wanted → (s.ml.rx = .idle ∨ ∃ n, s.ml.rx = .receiving n) → g.first = true → busy → stops) ∧
       (∀ n, seen → wanted → s.ml.rx = .receiving n → g.first = false → n < 64 →
        takes (s.ml.request.octets ++ [g.octet])) ∧
       (∀ n, seen → wanted → s.ml.rx = .receiving n → g.first = false → 64 ≤ n → stops) ∧
       (∀ n, p.valid = false → g.valid = false → s.ml.rx = .receiving n →
        t.ml.rx = .idle ∧ t.ml.lastTurn = none ∧ t.ml.echoSent = s.ml.echoSent) ∧
       (p.valid ≠ g.valid → same))

/-- A reply's first octet is shown with First and a Turn opposite to the last Echo taken; an Echo equal to its Turn in two
consecutive frames brings the next octet, with the Turn toggled, or ends the reply at the Last; REPLY_TIMEOUT after 80
frames, and a Stop in two frames, abandon the reply for two frames and empty the request buffer, except for a WARM_RESTART
(R175, R176). That nothing happens when no timeout is due is the model's choice (log entry 11); the order of the answers,
the two frames and the count that stops at 80 are deduced (log entries 34, 35, 37 and 38). -/
def Obligations.ReplyShownAndEnded : Prop :=
  (∀ s : State, s.upwardDueNow →
    ∃ t u, exec .upwardFrameStart s = .next t ∧ t.sli.up = some u ∧ t.ml.reply = s.ml.reply ∧
      (∀ o l, s.ml.tx = .idle → s.ml.reply = o :: l →
        u.frame.mgmt = o ∧ t.ml.tx = .sending 0 (s.ml.lastEcho ≠ some true) 1 ∧
          u.frame.control.toNat / 16 = 10 + (if s.ml.lastEcho = some true then 0 else 4) + (if l = [] then 1 else 0)) ∧
      (∀ i turn n o, s.ml.tx = .sending i turn n → s.ml.reply[i]? = some o →
        u.frame.mgmt = o ∧ t.ml.tx = .sending i turn (min (n + 1) 80)) ∧
      ((s.ml.tx = .idle ∧ s.ml.reply = []) ∨ (∃ n, s.ml.tx = .abandoning n) →
        u.frame.mgmt = 0xFF#8 ∧ u.frame.control.toNat / 16 = 0) ∧
      u.frame.control.toNat / 8 % 2 = (if s.ml.echoSent then 1 else 0) ∧
      (u.frame.control.toNat / 4 % 2 = 1 ↔ ∃ n, s.ml.rx = .stopping n) ∧
      (s.ml.tx = .abandoning 2 → t.ml.tx = .abandoning 1) ∧ (s.ml.tx = .abandoning 1 → t.ml.tx = .idle) ∧
      (s.ml.rx = .stopping 2 → t.ml.rx = .stopping 1) ∧ (s.ml.rx = .stopping 1 → t.ml.rx = .idle)) ∧
  (∀ (s : State) (i : Nat) (turn : Bool) (n : Nat), s.ml.tx = .sending i turn n →
    (n < 80 → exec .replyTimeout s = .next s) ∧
    (80 ≤ n → exec .replyTimeout s =
      .next { s with ml := { s.ml with
        reply := [], tx := .abandoning 2, abandonedReplies := min (s.ml.abandonedReplies + 1) 65535,
        request := match s.ml.request with
          | .executed req => if req = [0x60#8] then .executed req else .empty
          | b => b } })) ∧
  (∀ s : State, (∀ i turn n, s.ml.tx ≠ .sending i turn n) → exec .replyTimeout s = .next s) ∧
  ∀ (s : State) (fine : Fin 15625) (f : DownFrame) (p : MgmtField) (i : Nat) (turn : Bool) (n : Nat),
    s.sli.alignment = .inFrame → f.hasSync = true → s.ml.previous = some p → p.readable = true →
    s.ml.tx = .sending i turn n → 1 ≤ n →
    let g := mgmtFieldOf f
    ∃ t, exec (.frameTaken fine f) s = .next t ∧
      (p.stop = true → g.stop = true → t.ml.tx = .abandoning 2 ∧ t.ml.reply = []) ∧
      ((p.stop && g.stop) = false → p.echo = turn → g.echo = turn → i + 1 < s.ml.reply.length →
        t.ml.tx = .sending (i + 1) (!turn) 0 ∧ t.ml.reply = s.ml.reply) ∧
      ((p.stop && g.stop) = false → p.echo = turn → g.echo = turn → s.ml.reply.length ≤ i + 1 →
        t.ml.tx = .idle ∧ t.ml.reply = [] ∧
          ∀ req, g.valid = false → s.ml.request = .executed req →
            t.ml.request = if req = [0x60#8] then .executed req else .empty) ∧
      ((p.stop && g.stop) = false → p.echo ≠ turn ∨ g.echo ≠ turn → t.ml.tx = s.ml.tx ∧ t.ml.reply = s.ml.reply)

/-! ### Channel monitoring (chapter 4) -/

/-- LOOK at a frame start takes every channel's octet as its raw last look and judges the monitored ones: a code that equals
the valid one changes nothing; another becomes candidate; a second look with the candidate's code validates it; a look with
a third code counts as unstable and drops or replaces the candidate; the second of two no-device looks makes the channel
ABSENT. The status octets are written to the upward store (R59, R67, R69 to R72, R76). In the console slot a grant in
progress takes the first half of its message at frame f + 2 and the second at f + 3, where the message, if well formed,
arrives and its console becomes LOWERED; then, with no grant in progress, the lowest requesting console at NORMAL is
granted, all levels returning to NORMAL first when every requesting console is LOWERED (R143, R144, R186). Between frame
starts nothing happens. That, and the order within the look, are the model's choice (log entries 11 and 18). -/
def Obligations.LookJudgesEveryChannel : Prop :=
  ∀ (s : State) (u : Uplink) (o : LookOrder),
    (¬ s.lookNow → exec (.look u o) s = .next s) ∧
    (s.lookNow →
      ∃ t, exec (.look u o) s = .next t ∧ t.ubi = { s.ubi with lastLook := some s.tb.e } ∧
        (s.up.frames.length < s.ml.params.storeDepth → t.up = { s.up with frames := s.up.frames ++ [u.status] }) ∧
        Within [.ubi, .cm, .eq, .sh, .tu, .ct, .hc, .up] s t ∧
        (let n := s.tb.e / 16
         let asks := fun c : Console => u.requests.toNat.testBit c.val = false
         let kept := t.hc.grant = s.hc.grant ∧ t.hc.levels = s.hc.levels ∧ t.hc.arrived = s.hc.arrived
         let decided := fun levels : Vector Level 4 =>
          ((∀ c, ¬ asks c) → t.hc.grant = none ∧ t.hc.levels = levels) ∧
          (∀ c, asks c → levels[c] = .normal → (∀ d, d < c → asks d → levels[d] = .lowered) →
            t.hc.grant = some { console := c, frame := n, half := none } ∧ t.hc.levels = levels) ∧
          (∀ c, asks c → (∀ d, asks d → levels[d] = .lowered) → (∀ d, d < c → ¬ asks d) →
            t.hc.grant = some { console := c, frame := n, half := none } ∧ ∀ d : Console, t.hc.levels[d] = .normal)
         (s.hc.grant = none → decided s.hc.levels ∧ t.hc.arrived = s.hc.arrived) ∧
         (∀ g, s.hc.grant = some g → g.half = none →
          (n < g.frame + 2 → kept) ∧
          (g.frame + 2 ≤ n → t.hc.grant = some { g with half := some (u.console0, u.console1) } ∧
            t.hc.levels = s.hc.levels ∧ t.hc.arrived = s.hc.arrived)) ∧
         (∀ g a b, s.hc.grant = some g → g.half = some (a, b) →
          let wellFormed := (1 ≤ a.toNat ∧ a.toNat ≤ 4) ∧ b.toNat = g.console.val + 1 ∧ u.console1 = a + b + u.console0
          (n < g.frame + 3 → kept) ∧
          (g.frame + 3 ≤ n → decided (s.hc.levels.set g.console.val .lowered g.console.isLt)) ∧
          (g.frame + 3 ≤ n → ¬ wellFormed → t.hc.arrived = s.hc.arrived) ∧
          (g.frame + 3 ≤ n → wellFormed → ∃ m : ConsoleMsg, consoleKindCode m.kind = a.toNat ∧ m.console = g.console ∧
            m.tag = u.console0 ∧ m.arrival = s.tb.e ∧
            (o.consoleFirst = false → t.hc.arrived = some m) ∧
            (o.consoleFirst = true → s.hc.arrived = none → ∃ v h,
              h = { s.hc with grant := t.hc.grant, levels := t.hc.levels, arrived := some m } ∧
              exec m.kind.command { s with ubi := t.ubi, hc := h } = .next v ∧ t = v.channelPart u o.openingFirst)))) ∧
        ∀ ch : Chan,
          let x := s.cm[ch]
          let y := t.cm[ch]
          let code := codeOf u.status[ch]
          let fresh : Candidate := { code := code, age := ageOf u.status[ch], frame := s.tb.e, vals := s.tb.vals }
          let seen := { x with rawLast := some u.status[ch], runCount := 0, runStart := none }
          y.entry = x.entry ∧ y.rawLast = some u.status[ch] ∧
          (x.entry.monitored = false → y = { x with rawLast := some u.status[ch] }) ∧
          (x.entry.monitored = true → u.status[ch] ≠ 0xFF#8 →
            (x.candidate = none → x.valid = some code → y = seen) ∧
            (x.candidate = none → x.valid ≠ some code → y = { seen with candidate := some fresh }) ∧
            (∀ k, x.candidate = some k → k.code = code →
              y.valid = some code ∧ y.candidate = none ∧ y.presence = .present ∧ y.runCount = 0 ∧ y.unstable = x.unstable) ∧
            (∀ k, x.candidate = some k → k.code ≠ code →
              y = { seen with unstable := min (x.unstable + 1) 65535,
                              candidate := if x.valid = some code then none else some fresh })) ∧
          (x.entry.monitored = true → u.status[ch] = 0xFF#8 →
            y.candidate = none ∧ y.runCount = min (x.runCount + 1) 2 ∧
            (x.runCount = 0 →
              y = { x with rawLast := some 0xFF#8, candidate := none, runCount := 1,
                           runStart := some { frame := s.tb.e, vals := s.tb.vals } }) ∧
            (1 ≤ x.runCount → x.presence ≠ .absent → y.presence = .absent ∧ y.valid = none) ∧
            (x.presence = .absent → y.presence = .absent ∧ y.valid = x.valid)))

/-- A look that validates a change dates it, records it by the channel's presence and hands it on: to the unit whose mode
source the channel is, and, when it is a trip of a TRIP channel, to the cascade of its group; a look that loses a mode
source moves its unit to UNKNOWN. From UNKNOWN the record is an initial one, from ABSENT CHANNEL_FOUND, and a loss makes
CHANNEL_LOST, after a CHATTER_OFF where chatter ends (R67, R73 to R78, R81, R107 to R109, R121 to R123). A validated change
of a PRESENT channel is dated at its candidate's frame less the Age and the device latency, no earlier than the stamp floor,
which it sets, and is handed on with that stamp; its record is STATE, or MODE for a mode source, of the class of the role;
the chatter limit's change within the window enters CHATTER with CHATTER_ON, and a change in CHATTER is counted and makes no
record. QUIET_DEADLINE at or after the deadline ends CHATTER with CHATTER_OFF, dated at the last suppressed change (R67,
R68, R73 to R75, R79 to R81). That nothing happens when the event is not due, and the order of the parts of a look, are the
model's choice (log entries 11 and 18). -/
def Obligations.ChangesDatedAndChatterBounded : Prop :=
  (∀ (s : State) (u : Uplink) (o : LookOrder), s.lookNow →
    ∃ t, exec (.look u o) s = .next t ∧
      (∀ ch : Chan, o.consoleFirst = false → (∀ d, d < ch → s.stillAt u d) →
        let x := s.cm[ch]
        let source := x.entry.role = .mode ∧ shadowed s.cm ch = false
        let changes := if x.entry.role = .alarm ∨ x.entry.role = .trip then RecClass.a else .b
        let presence := if x.entry.role = .alarm ∨ x.entry.role = .trip ∨ source then RecClass.a else .b
        (∀ k, s.validatesAt u ch k →
          let st := stampOf k.vals (s.datedAt ch k)
          t.cm[ch].floor = (if x.chatter.isSome ∧ x.presence = .present then x.floor else s.datedAt ch k) ∧
          (x.presence = .unknown → t.cm[ch].recent = x.recent ∧ (s.admitsNow ch changes →
            s.admittedNext t { mkRecord (if source then .mode else .state) changes ch.val 255 k.code.val 0 st with
              initial := true })) ∧
          (x.presence = .absent → t.cm[ch].recent = x.recent ∧ (s.admitsNow ch presence →
            s.admittedNext t (mkRecord .channelFound presence ch.val 255 k.code.val 0 st))) ∧
          (x.presence = .present → x.chatter = none → t.cm[ch].chatter = none → s.admitsNow ch changes →
            s.admittedNext t
              (mkRecord (if source then .mode else .state) changes ch.val (codeOrNone x.valid) k.code.val 0 st))) ∧
        (∀ r, s.losesAt u ch → x.runStart = some r →
          (x.chatter = none → s.admitsNow ch presence →
            s.admittedNext t (mkRecord .channelLost presence ch.val (codeOrNone x.valid) 255 0
              (stampOf r.vals (max (r.frame - x.entry.latency) x.floor)))) ∧
          (∀ c, x.chatter = some c → t.cm[ch].chatter = none ∧ t.cm[ch].suppressed = 0 ∧ t.cm[ch].recent = [] ∧
            (s.admitsNow ch changes →
              s.admittedNext t (mkRecord .chatterOff changes ch.val c.codeAtEntry.val (codeOrNone x.valid) x.suppressed
                (stampOf c.lastVals (max c.lastStamp x.floor))))))) ∧
      (∀ v : UnitNo,
        let x := s.tu[v]
        let y := t.tu[v]
        let moved := fun (mode : UnitMode) (stamp : Nat) =>
          y.mode = mode ∧
          (mode = x.mode → y.entry = x.entry ∧ y.history = x.history ∧ y.buckets = x.buckets) ∧
          (mode ≠ x.mode → y.entry = stamp ∧ y.history = ((mode, stamp) :: x.history).take 4 ∧
            ∀ i : Fin 8, y.buckets[i] = x.buckets[i] + if i = modeIdx x.mode then stamp - x.entry else 0)
        (∀ ch k, modeSource s.cm v = some ch → s.validatesAt u ch k →
          moved (if x.enabled then x.modeMap[k.code] else .unknown) (max (s.datedAt ch k) x.entry)) ∧
        (∀ ch, modeSource s.cm v = some ch → s.losesAt u ch → moved .unknown s.tb.e) ∧
        ((∀ ch ∈ modeSource s.cm v, s.stillAt u ch) →
          y.mode = x.mode ∧ y.entry = x.entry ∧ y.history = x.history ∧ y.buckets = x.buckets)) ∧
      ∀ g : Group,
        let trips := fun (ch : Chan) (st : Nat) => s.cm[ch].entry.group = g ∧ ∃ k, s.tripsAt u ch k ∧ st = s.datedAt ch k
        let window := 64 * s.ml.params.cascadeWindow + 320
        ((∀ ch st, ¬ trips ch st) → t.ct.slots[g] = s.ct.slots[g]) ∧
        ((∃ ch st, trips ch st) → s.ct.slots[g] = none →
          ∃ c, t.ct.slots[g] = some c ∧ t.ct.incident = true ∧
            (∀ ch st, trips ch st ↔ ∃ m ∈ c.members, m.channel = ch ∧ m.stamp = st) ∧
            (∃ m ∈ c.members, c.close = m.stamp + window) ∧ ∀ m ∈ c.members, c.close ≤ m.stamp + window) ∧
        ∀ c, (∃ ch st, trips ch st) → s.ct.slots[g] = some c →
          ∃ d, t.ct.slots[g] = some d ∧ d.close = c.close ∧ c.members <+: d.members ∧
            (∀ ch, (∃ m ∈ d.members, m.channel = ch) ↔ (∃ m ∈ c.members, m.channel = ch) ∨ ∃ st, trips ch st) ∧
            ∀ m ∈ d.members, m ∈ c.members ∨ trips m.channel m.stamp) ∧
  (∀ (s : State) (ch : Chan) (k : Candidate),
    let x := s.cm[ch]
    let stamp := max (k.frame - k.age - x.entry.latency) x.floor
    let t := (s.validate ch k).1
    let y := t.cm[ch]
    let cls := if x.entry.role = .alarm ∨ x.entry.role = .trip then RecClass.a else .b
    let record := fun kind => s.admitsNow ch cls →
      s.admittedNext t (mkRecord kind cls ch.val (codeOrNone x.valid) k.code.val 0 (stampOf k.vals stamp))
    x.presence = .present →
      (s.validate ch k).2 = [.change { channel := ch, old := x.valid, new := k.code, stamp := stamp, vals := k.vals }] ∧
      y.valid = some k.code ∧ y.candidate = none ∧ y.presence = .present ∧ Within [.cm, .eq, .sh] s t ∧
      (∀ other : Chan, other ≠ ch → t.cm[other] = s.cm[other]) ∧
      (∀ c, x.chatter = some c →
        t.eq = s.eq ∧ y.suppressed = min (x.suppressed + 1) 65535 ∧ y.floor = x.floor ∧
          y.chatter = some { c with deadline := stamp + s.ml.params.chatterWindow * 64000, lastStamp := stamp,
                                    lastVals := k.vals }) ∧
      (∀ first l, x.chatter = none → x.recent = first :: l → x.entry.chatterLimit ≤ l.length + 2 →
        stamp - first ≤ s.ml.params.chatterWindow * 64000 →
        record .chatterOn ∧ y.floor = stamp ∧ y.suppressed = 0 ∧
          y.chatter = some { codeAtEntry := k.code, deadline := stamp + s.ml.params.chatterWindow * 64000,
                             lastStamp := stamp, lastVals := k.vals }) ∧
      (x.chatter = none →
        (x.recent = [] ∨ x.recent.length + 1 < x.entry.chatterLimit ∨
          ∃ first ∈ x.recent.head?, s.ml.params.chatterWindow * 64000 < stamp - first) →
        record (if (x.entry.role = .mode ∧ shadowed s.cm ch = false) then .mode else .state) ∧ y.floor = stamp ∧
          y.chatter = none ∧ y.recent.getLast? = some stamp)) ∧
  ∀ (s : State) (ch : Chan),
    let x := s.cm[ch]
    (x.chatter = none → exec (.quietDeadline ch) s = .next s) ∧
    ∀ c, x.chatter = some c →
      (s.tb.e < c.deadline → exec (.quietDeadline ch) s = .next s) ∧
      (c.deadline ≤ s.tb.e →
        let stamp := max c.lastStamp x.floor
        let cls := if x.entry.role = .alarm ∨ x.entry.role = .trip then RecClass.a else .b
        ∃ t, exec (.quietDeadline ch) s = .next t ∧
          (s.admitsNow ch cls →
            s.admittedNext t (mkRecord .chatterOff cls ch.val c.codeAtEntry.val (codeOrNone x.valid) x.suppressed
              (stampOf c.lastVals stamp)) ∧
            t.cm[ch] = { x with floor := stamp, chatter := none, suppressed := 0, recent := [] }) ∧
          t.cm[ch].chatter = none ∧ t.cm[ch].valid = x.valid ∧ t.cm[ch].floor = stamp ∧
          (∀ other : Chan, other ≠ ch → t.cm[other] = s.cm[other]) ∧ Within [.cm, .eq, .sh] s t)

/-! ### The Event Queue (chapter 5) -/

/-- The EQ admits a record of class A while it holds fewer than 512 records and one of class B while it holds fewer than
480: the record goes to the newest end with Seq and the Overflow-before flag, Seq rises modulo 65,536, loss pending is
cleared and the SH counts the admission (R92, R93). A record of another block that is not admitted is lost and counted
(R94). A channel record is offered only with an empty pending store and no record of the channel with the other class held;
failing a test, it goes to the pending store, and at two entries takes the place of the second with a collapsed count (R86,
R87). -/
def Obligations.AdmissionFollowsFillAndRoute : Prop :=
  ∀ (s : State) (r : EventRecord),
    let open_ := (r.cls = .a ∧ s.eq.records.length < 512) ∨ (r.cls = .b ∧ s.eq.records.length < 480)
    let admitted := fun t : State =>
      t.eq = { s.eq with records := s.eq.records ++ [{ r with seq := s.eq.seq, overflowBefore := s.eq.lossPending }],
                         seq := if s.eq.seq = 65535 then 0 else s.eq.seq + 1, lossPending := false } ∧
      t.sh = { s.sh with current := s.sh.current.map fun h =>
        { h with admittedA := if r.cls = .a then min (h.admittedA + 1) 4294967295 else h.admittedA,
                 admittedB := if r.cls = .b then min (h.admittedB + 1) 4294967295 else h.admittedB } }
    s.eq.seq < 65536 →
      (open_ → admitted (s.offer r) ∧ Within [.eq, .sh] s (s.offer r)) ∧
      (¬ open_ → (s.offer r).eq =
        { s.eq with lostA := if r.cls = .a then min (s.eq.lostA + 1) 65535 else s.eq.lostA,
                    lostB := if r.cls = .b then min (s.eq.lostB + 1) 65535 else s.eq.lostB, lossPending := true }) ∧
      ∀ ch : Chan,
        let clear := ∀ q ∈ s.eq.records, isChannelKind q.kind = true → q.source = ch.val → q.cls = r.cls
        (open_ → s.cm[ch].store = [] → clear → admitted (s.offerChannel ch r) ∧ (s.offerChannel ch r).cm = s.cm) ∧
        (¬ (open_ ∧ s.cm[ch].store = [] ∧ clear) →
          (s.offerChannel ch r).eq = s.eq ∧ (s.offerChannel ch r).sh = s.sh ∧
          (s.cm[ch].store = [] → (s.offerChannel ch r).cm[ch].store = [r]) ∧
          (∀ a, s.cm[ch].store = [a] → (s.offerChannel ch r).cm[ch].store = [a, r]) ∧
          (∀ a b, s.cm[ch].store = [a, b] → ∃ q, (s.offerChannel ch r).cm[ch].store = [a, q] ∧
            q.kind = r.kind ∧ q.stamp = r.stamp ∧ q.new = r.new ∧ q.collapsed = min (b.collapsed + 1) 65535))

/-- A turn of a release round takes, of the first entries that the EQ can take now, the one with the earliest elapsed stamp,
and of equal ones that of the lower-numbered channel; it is admitted and leaves its pending store (R88, R97). -/
def Obligations.ReleaseTakesEarliestEntry : Prop :=
  ∀ s : State,
    (releaseChoice s = none ↔ ∀ ch, releasable s ch = none) ∧
    (∀ ch r, releasable s ch = some r ↔
      s.cm[ch].store.head? = some r ∧ s.eq.takes r.cls = true ∧
        ∀ q ∈ s.eq.records, isChannelKind q.kind = true → q.source = ch.val → q.cls = r.cls) ∧
    ∀ ch r, releaseChoice s = some (ch, r) →
      releasable s ch = some r ∧
      (∀ ch' r', releasable s ch' = some r' →
        r.stamp.elapsed < r'.stamp.elapsed ∨ (r.stamp.elapsed = r'.stamp.elapsed ∧ ch ≤ ch')) ∧
      s.admittedNext s.afterTurn r ∧ s.afterTurn.cm[ch].store = s.cm[ch].store.tail ∧
      ∀ other : Chan, other ≠ ch → s.afterTurn.cm[other] = s.cm[other]

/-! ### Trip cascades (chapter 6) -/

/-- The trips that one look brings to a group open its cascade, closing at the smallest of their stamps plus 64 ticks for
each millisecond of the window plus 320, and the incident is then active; or they join the open one as new members, each
channel once, with its close time kept. The first-out is a member with the smallest elapsed stamp, and of those the one of
the lowest-numbered channel, whatever the order of joining (R107 to R110, R115). -/
def Obligations.TripsOpenCascadeWithFirstOut : Prop :=
  ((∀ c : Cascade, c.firstOut = none ↔ c.members = []) ∧
  (∀ (c : Cascade) (m : Member), c.firstOut = some m →
    m ∈ c.members ∧ ∀ n ∈ c.members, m.stamp < n.stamp ∨ (m.stamp = n.stamp ∧ m.channel ≤ n.channel)) ∧
  ∀ (c d : Cascade), c.members.Perm d.members → (c.members.map Member.channel).Nodup →
    c.firstOut = d.firstOut) ∧
  ∀ (s : State) (g : Group) (trips : List Change), trips ≠ [] →
    let t := s.takeTrips g trips
    (∀ g' : Group, g' ≠ g → t.ct.slots[g'] = s.ct.slots[g']) ∧
    (s.ct.slots[g] = none →
      ∃ c, t.ct.slots[g] = some c ∧ t.ct.incident = true ∧ c.members.map Member.channel = trips.map Change.channel ∧
        c.members.map Member.stamp = trips.map Change.stamp ∧
        (∃ x ∈ trips, c.close = x.stamp + 64 * s.ml.params.cascadeWindow + 320) ∧
        (∀ x ∈ trips, c.close ≤ x.stamp + 64 * s.ml.params.cascadeWindow + 320) ∧
        Within [.ct, .hc, .eq, .sh, .tu] s t) ∧
    (∀ c, s.ct.slots[g] = some c →
      ∃ d, t.ct.slots[g] = some d ∧ d.close = c.close ∧ c.members <+: d.members ∧
        (∀ x ∈ trips, ∃ m ∈ d.members, m.channel = x.channel) ∧
        (∀ m ∈ d.members, m ∈ c.members ∨ ∃ x ∈ trips, m.channel = x.channel ∧ m.stamp = x.stamp) ∧
        ((c.members.map Member.channel).Nodup → (d.members.map Member.channel).Nodup) ∧ Within [.ct] s t)

/-- CASCADE_CLOSE at or after the close time: a class A CASCADE record names the group, the mode at the first-out, the
first-out's channel and the number of members, dated at the first-out; the trip is counted in the unit of the group; the
slot empties and the hold end is raised to the trip hold's minutes after the close; the incident goes on exactly while a
cascade is open or E is below the hold end (R111 to R115). Before the close time, and with no cascade open, nothing happens.
The last is the model's choice (log entry 11), and that the slot empties before the incident is evaluated is deduced (log
entry 30). -/
def Obligations.CascadeCloseReports : Prop :=
  ∀ (s : State) (g : Group),
    (s.ct.slots[g] = none → exec (.cascadeClose g) s = .next s) ∧
    ∀ c m, s.ct.slots[g] = some c → c.firstOut = some m →
      (s.tb.e < c.close → exec (.cascadeClose g) s = .next s) ∧
      (c.close ≤ s.tb.e →
        let hold := max (s.ct.holdEnd.getD 0) (s.tb.e + s.ml.params.tripHold * 3840000)
        let goesOn := (∃ g' : Group, g' ≠ g ∧ s.ct.slots[g'].isSome) ∨ s.tb.e < hold
        ∃ t mode, exec (.cascadeClose g) s = .next t ∧
          (∀ u : UnitNo, g.val = u.val → mode = modeAt s.tu[u].history m.stamp) ∧ (g = 8 → mode = .unknown) ∧
          (s.eq.records.length < 512 →
            s.admittedNext t (mkRecord .cascade .a g.val (modeIdx mode).val m.channel.val c.members.length
              (stampOf m.vals m.stamp))) ∧
          (∀ u : UnitNo, g.val = u.val →
            t.tu[u].trips = (s.tu[u].trips + 1) % 4294967296 ∧
            t.tu[u].loadTrips = if mode = .generating ∨ mode = .pumping ∨ mode = .condenser
              then (s.tu[u].loadTrips + 1) % 4294967296 else s.tu[u].loadTrips) ∧
          (∀ u : UnitNo, g.val ≠ u.val → t.tu[u].trips = s.tu[u].trips ∧ t.tu[u].loadTrips = s.tu[u].loadTrips) ∧
          t.ct.slots[g] = none ∧ (∀ g' : Group, g' ≠ g → t.ct.slots[g'] = s.ct.slots[g']) ∧
          (goesOn → t.ct.holdEnd = some hold ∧ t.ct.incident = true) ∧ (¬ goesOn → t.ct.incident = false) ∧
          (goesOn → s.ct.incident = true → t.hc = s.hc) ∧
          Within [.ct, .tu, .eq, .sh, .hc] s t)

/-- INCIDENT_HOLD_END at or after the hold end with no cascade open ends the incident: in HELD the ticks held are added to
the shift's, and the handover resumes with its timer's remainder or takes the cut that was held; in any other state nothing
else changes. An incident that begins holds WINDOW_OPEN, ACCEPTED and OVERRUN with the remainder of the running timer (R115,
R150, R151). That nothing happens when the event is not due is the model's choice (log entry 11). -/
def Obligations.IncidentHoldsHandover : Prop :=
  (∀ s : State, (∀ h, s.ct.holdEnd = some h → s.tb.e < h) → exec .incidentHoldEnd s = .next s) ∧
  (∀ (s : State) (h : Nat), s.ct.holdEnd = some h → h ≤ s.tb.e → s.ct.incident = true →
    (∃ g : Group, s.ct.slots[g].isSome) → exec .incidentHoldEnd s = .next s) ∧
  (∀ (s : State) (h : Nat), s.ct.holdEnd = some h → h ≤ s.tb.e → s.ct.incident = true → (∀ g : Group, s.ct.slots[g] = none) →
    ∃ t, exec .incidentHoldEnd s = .next t ∧ t.ct = { s.ct with incident := false, holdEnd := none } ∧
      (s.hc.state ≠ .held → t.hc = s.hc ∧ Within [.ct] s t) ∧
      (s.hc.state = .held →
        let kept := fun (state : HState) (timer : HTimer) (since : Nat) =>
          t.hc = { s.hc with state := state, timer := timer, resume := .none, heldSince := none,
                             heldTicks := s.hc.heldTicks + (s.tb.e - since), queue := t.hc.queue, tx := t.hc.tx }
        ∀ since, s.hc.heldSince = some since →
          (∀ rem, s.hc.resume = .windowOpen rem → kept .windowOpen (.window (s.tb.e + rem)) since) ∧
          (∀ rem, s.hc.resume = .accepted rem → kept .accepted (.release (s.tb.e + rem)) since) ∧
          (s.hc.resume = .overrun → kept .overrun .none since) ∧
          (∀ kind, (s.hc.resume = .cutUnattended ∧ kind = CloseKind.unattended) ∨
              (s.hc.resume = .cutAuto ∧ kind = CloseKind.auto) →
            t.hc.state = .settling ∧ t.hc.settleEnd = some (s.tb.e + 320) ∧
            ∃ c, t.sh.cut = some c ∧ c.kind = kind ∧ c.stamp = stampOf s.tb.vals s.tb.e ∧
              c.heldTicks = s.hc.heldTicks + (s.tb.e - since)))) ∧
  ∀ s : State,
    let began := fun (resume : Resume) =>
      s.incidentBegins.hc =
        { s.hc with state := .held, resume := resume, timer := .none, heldSince := some s.tb.e,
                    queue := s.incidentBegins.hc.queue, tx := s.incidentBegins.hc.tx }
    (∀ x, s.hc.state = .windowOpen → s.hc.timer = .window x → began (.windowOpen (x - s.tb.e))) ∧
    (∀ x, s.hc.state = .accepted → s.hc.timer = .release x → began (.accepted (x - s.tb.e))) ∧
    (s.hc.state = .overrun → began .overrun) ∧
    (s.hc.state = .noDuty ∨ s.hc.state = .onShift ∨ s.hc.state = .held ∨ s.hc.state = .settling → s.incidentBegins = s)

/-! ### Generating units (chapter 7) -/

/-- A validated change of a unit's mode source that derives another mode credits the time since the entry stamp to the old
mode's bucket and to its duration in the open shift, enters the new mode at the change's stamp, no earlier than the entry
stamp, and adds the pair to the history of at most 4. Out of STANDSTILL it opens a start attempt, which a load mode closes
as successful and a return to STANDSTILL or UNKNOWN as failed. START_TIMEOUT at or after the expiry closes the attempt as
failed with a START_FAIL record (R122, R126, R129 to R131, R160). That nothing happens when the event is not due is the
model's choice (log entry 11). -/
def Obligations.SourceChangesCreditAndCount : Prop :=
  (∀ (s : State) (u : UnitNo) (stamp : Nat) (v : StationVals),
    let x := s.tu[u]
    let new := derivedMode s u
    let st := max stamp x.entry
    let t := s.sourceChange u stamp v
    let y := t.tu[u]
    let wrap := fun n : Nat => (n + 1) % 4294967296
    (new = x.mode → t = s) ∧
    (new ≠ x.mode →
      y.mode = new ∧ y.entry = st ∧ y.history = ((new, st) :: x.history).take 4 ∧
      (∀ k : Fin 8, y.buckets[k] = if k = modeIdx x.mode then x.buckets[k] + (st - x.entry) else x.buckets[k]) ∧
      (x.cur.start = none → y.cur.durations = x.cur.durations) ∧
      (∀ a, x.cur.start = some a → x.next = none → ∀ k : Fin 8,
        y.cur.durations[k] = if k = modeIdx x.mode then x.cur.durations[k] + (st - max x.entry a) else x.cur.durations[k]) ∧
      (∀ other : UnitNo, other ≠ u → t.tu[other] = s.tu[other]) ∧ Within [.tu, .eq, .sh] s t ∧
      (x.attempt = none → x.mode ≠ .standstill ∨ new = .unknown →
        y.attempt = none ∧ y.starts = x.starts ∧ y.successes = x.successes ∧ y.failures = x.failures) ∧
      (x.attempt = none → x.mode = .standstill → new ≠ .unknown → isLoad new = false →
        y.attempt = some { start := st, expiry := st + x.timeout * 64000 } ∧ y.starts = wrap x.starts ∧
          y.successes = x.successes ∧ y.failures = x.failures) ∧
      (x.attempt = none → x.mode = .standstill → isLoad new = true →
        y.attempt = none ∧ y.starts = wrap x.starts ∧ y.successes = wrap x.successes ∧ y.failures = x.failures) ∧
      (∀ a, x.attempt = some a →
        y.starts = x.starts ∧
        (isLoad new = true → y.attempt = none ∧ y.successes = wrap x.successes ∧ y.failures = x.failures ∧ t.eq = s.eq) ∧
        (new = .standstill ∨ new = .unknown →
          y.attempt = none ∧ y.successes = x.successes ∧ y.failures = wrap x.failures ∧
            (s.eq.records.length < 512 →
              s.admittedNext t (mkRecord .startFail .a u.val (modeIdx x.mode).val (modeIdx new).val
                (if new = .standstill then 1 else 3) (stampOf v st)))) ∧
        (new = .starting ∨ new = .spin ∨ new = .stopping →
          y.attempt = some a ∧ y.successes = x.successes ∧ y.failures = x.failures ∧ t.eq = s.eq)))) ∧
  ∀ (s : State) (u : UnitNo),
    (s.tu[u].attempt = none → exec (.startTimeout u) s = .next s) ∧
    ∀ a, s.tu[u].attempt = some a →
      (s.tb.e < a.expiry → exec (.startTimeout u) s = .next s) ∧
      (a.expiry ≤ s.tb.e →
        ∃ t, exec (.startTimeout u) s = .next t ∧ t.tu[u].attempt = none ∧
          t.tu[u].failures = (s.tu[u].failures + 1) % 4294967296 ∧ t.tu[u].starts = s.tu[u].starts ∧
          t.tu[u].successes = s.tu[u].successes ∧ t.tu[u].mode = s.tu[u].mode ∧ t.tu[u].entry = s.tu[u].entry ∧
          t.tu[u].buckets = s.tu[u].buckets ∧ (∀ other : UnitNo, other ≠ u → t.tu[other] = s.tu[other]) ∧
          (s.eq.records.length < 512 →
            s.admittedNext t (mkRecord .startFail .a u.val (modeIdx s.tu[u].mode).val (modeIdx s.tu[u].mode).val 0
              (stampOf s.tb.vals a.expiry))) ∧
          Within [.tu, .eq, .sh] s t)

/-! ### Shifts and handover (chapters 8 and 9) -/

/-- The console messages that are taken in CONSOLE mode (R147): a DUTY_CLAIM in NO_DUTY makes its sender the duty console,
in ON_SHIFT, with the opening cut at its arrival when no shift is open; an ACCEPT in WINDOW_OPEN or OVERRUN makes its sender
the incoming console, in ACCEPTED, with the release timer; the duty console's RELEASE in ACCEPTED cuts the shift at its
arrival, LATE after an overrun and NORMAL otherwise; a QUERY changes nothing. Each is answered with a CONFIRM, before the
NOTICE of the change (R144, R145, R154, R156, R160, R161). That a message acts by the command of its kind, and the order of
its answer and records, are deduced (log entries 13 and 29). -/
def Obligations.ConsoleMessagesTaken : Prop :=
  ∀ (s : State) (m : ConsoleMsg), s.hc.arrived = some m →
    refusalOf s.ml.params.scheduleMode s.hc m.kind m.console = none →
    ∃ t, exec m.kind.command s = .next t ∧ t.hc.arrived = none ∧ Within [.hc, .eq, .sh, .tu] s t ∧
      (let room := s.hc.tx = none ∧ s.hc.queue.length ≤ 2
       let told := t.hc.queue = s.hc.queue ++ [t.hc.reply .confirm m, t.hc.noticeNow]
       let record := fun (source : Nat) (cause : Nat) => s.eq.records.length < 480 →
        s.admittedNext t (mkRecord .handover .b source (hStateCode s.hc.state) (hStateCode t.hc.state) cause
          (stampOf s.tb.vals s.tb.e))
       (m.kind = .dutyClaim →
        t.hc = { s.hc with arrived := none, duty := some m.console, state := .onShift, shiftOpen := true,
                           missed := if s.hc.shiftOpen then s.hc.missed else 0, queue := t.hc.queue, tx := t.hc.tx } ∧
        (room → told) ∧ record (m.console.val + 1) 0 ∧ (s.hc.shiftOpen = true → t.tu = s.tu) ∧
        (s.hc.shiftOpen = false →
          (∃ h, t.sh.current = some h ∧ h.start = stampOf s.tb.vals m.arrival) ∧ t.sh.openingMissed = s.hc.missed ∧
          ∀ u : UnitNo, t.tu[u].cur = ShiftSet.zero (some m.arrival))) ∧
       (m.kind = .accept → s.hc.state ≠ .accepted →
        t.hc = { s.hc with arrived := none, incoming := some m.console, state := .accepted,
                           timer := .release (m.arrival + s.ml.params.releaseLimit * 3840000),
                           queue := t.hc.queue, tx := t.hc.tx } ∧
        (room → told) ∧ record (m.console.val + 1) 3 ∧ t.tu = s.tu) ∧
       (m.kind = .accept ∧ s.hc.state = .accepted ∨ m.kind = .query →
        t.hc = { s.hc with arrived := none, queue := t.hc.queue, tx := t.hc.tx } ∧
        (room → t.hc.queue = s.hc.queue ++ [s.hc.reply .confirm m]) ∧ Within [.hc] s t) ∧
       (m.kind = .release →
        t.hc = { s.hc with arrived := none, duty := none, timer := .none, overrun := false, boundary := none, missed := 0,
                           heldTicks := 0, state := .settling, settleEnd := some (m.arrival + 320),
                           queue := t.hc.queue, tx := t.hc.tx } ∧
        (room → told) ∧ record (consoleCode s.hc.duty) 6 ∧ t.sh.closing.isSome = s.sh.current.isSome ∧
        t.sh.cut = some { stamp := stampOf s.tb.vals m.arrival, kind := if s.hc.overrun then .late else .normal,
                          outgoing := some m.console, incoming := s.hc.incoming, boundary := s.hc.boundary,
                          missed := s.hc.missed, heldTicks := s.hc.heldTicks } ∧
        ∀ u : UnitNo, t.tu[u] = { s.tu[u] with next := some (ShiftSet.zero (some m.arrival)) }))

/-- A console message that its state does not take is refused with the reason of the table, and nothing else changes; a
command whose message has not arrived does nothing. The downlink queue holds at most 4 messages: a further one takes the
place of the oldest NOTICE not in transmission, or is discarded (R145, R147). What a command without its message does is the
model's choice, and the order of the reasons is deduced (log entries 11, 13 and 28). -/
def Obligations.ConsoleMessagesRefused : Prop :=
  (∀ (s : State) (m : ConsoleMsg) (r : Refuse), s.hc.arrived = some m →
    refusalOf s.ml.params.scheduleMode s.hc m.kind m.console = some r →
    let h := { s.hc with arrived := none }
    exec m.kind.command s = .next { s with hc := h.enqueue s.tb.e (h.reply (.refuse r) m) }) ∧
  (∀ (s : State) (k : ConsoleKind), (∀ m ∈ s.hc.arrived, m.kind ≠ k) → exec k.command s = .next s) ∧
  ∀ (e : Nat) (m : DownMsg) (h : Handover), h.queue.length ≤ 4 → (∀ x ∈ h.tx, x.frames = 1 ∧ h.queue ≠ []) →
    let q := (h.enqueue e m).queue
    h.enqueue e m = { h with queue := q } ∧ q.length ≤ 4 ∧
      (h.queue.length < 4 → q = h.queue ++ [m]) ∧
      (h.queue.length = 4 →
        ∃ held free, h.queue = held ++ free ∧ held.length = (if h.tx.isSome then 1 else 0) ∧
          ((∀ x ∈ free, x.kind ≠ .notice) → q = h.queue) ∧
          ∀ before x after, free = before ++ x :: after → x.kind = .notice → (∀ y ∈ before, y.kind ≠ .notice) →
            q = held ++ before ++ after ++ [m])

/-- WINDOW_EXPIRY at or after the window's expiry makes OVERRUN, with no cut; RELEASE_EXPIRY at or after the release timer's
expiry takes a FORCED cut with the expiry as its cut E; each with its class A HANDOVER record (R149, R154, R156, R161).
Before, and in any other state, nothing happens. That is the model's choice (log entry 11). -/
def Obligations.HandoverTimersExpire : Prop :=
  ∀ s : State,
    (s.hc.state ≠ .windowOpen → exec .windowExpiry s = .next s) ∧
    (s.hc.state ≠ .accepted → exec .releaseExpiry s = .next s) ∧
    (∀ x, s.hc.timer = .window x → s.tb.e < x → exec .windowExpiry s = .next s) ∧
    (∀ x, s.hc.timer = .release x → s.tb.e < x → exec .releaseExpiry s = .next s) ∧
    (∀ x, s.hc.state = .windowOpen → s.hc.timer = .window x → x ≤ s.tb.e →
      ∃ t, exec .windowExpiry s = .next t ∧
        t.hc = { s.hc with state := .overrun, timer := .none, overrun := true, queue := t.hc.queue, tx := t.hc.tx } ∧
        (s.hc.tx = none → s.hc.queue.length < 4 → t.hc.queue = s.hc.queue ++ [t.hc.noticeNow]) ∧
        (s.eq.records.length < 512 →
          s.admittedNext t (mkRecord .handover .a (consoleCode s.hc.duty) 2 5 4 (stampOf s.tb.vals s.tb.e))) ∧
        Within [.hc, .eq, .sh] s t) ∧
    (∀ x, s.hc.state = .accepted → s.hc.timer = .release x → x ≤ s.tb.e →
      ∃ t, exec .releaseExpiry s = .next t ∧
        t.hc = { s.hc with duty := none, timer := .none, overrun := false, boundary := none, missed := 0, heldTicks := 0,
                           state := .settling, settleEnd := some (x + 320), queue := t.hc.queue, tx := t.hc.tx } ∧
        t.sh.cut = some { stamp := stampOf s.tb.vals x, kind := .forced, outgoing := s.hc.duty, incoming := s.hc.incoming,
                          boundary := s.hc.boundary, missed := s.hc.missed, heldTicks := s.hc.heldTicks } ∧
        (∀ u : UnitNo, t.tu[u] = { s.tu[u] with next := some (ShiftSet.zero (some x)) }) ∧
        (s.eq.records.length < 512 →
          s.admittedNext t (mkRecord .handover .a (consoleCode s.hc.duty) 3 6 7 (stampOf s.tb.vals s.tb.e))) ∧
        Within [.hc, .eq, .sh, .tu] s t)

/-- SETTLE_END at or after the settle end places the shift record at index 0 of the ring of 16, numbered, dated and filled
from the cut, the closing header set and the shift sets credited up to the cut; offers SHIFT_CLOSED; makes the next sets the
current ones; and leaves SETTLING for ON_SHIFT with the incoming console, or NO_DUTY after an UNATTENDED cut (R155, R164 to
R169). Before the settle end nothing happens. That is the model's choice (log entry 11). -/
def Obligations.SettleEndClosesShift : Prop :=
  ∀ (s : State) (x : Nat) (c : CutNoted) (h : Header), s.hc.state = .settling → s.hc.settleEnd = some x →
    s.sh.cut = some c → s.sh.closing = some h →
    (s.tb.e < x → exec .settleEnd s = .next s) ∧
    (x ≤ s.tb.e →
      ∃ t r, exec .settleEnd s = .next t ∧ t.sh.ring = (r :: s.sh.ring).take 16 ∧
        t.sh.number = (if s.sh.number = 4294967295 then 1 else s.sh.number + 1) ∧
        r.number = s.sh.number ∧ r.kind = c.kind ∧ r.start = h.start ∧ r.stop = c.stamp ∧ r.worst = h.worst ∧
        r.outgoing = c.outgoing ∧ r.incoming = c.incoming ∧ r.boundary = c.boundary ∧ r.heldTicks = c.heldTicks ∧
        r.missed = min (c.missed + s.sh.openingMissed) 65535 ∧ r.admittedA = h.admittedA ∧ r.admittedB = h.admittedB ∧
        r.lostA = h.lostA ∧ r.lostB = h.lostB ∧ r.cascades = h.cascades ∧
        (∀ u : UnitNo,
          r.units[u].starts = s.tu[u].cur.starts ∧ r.units[u].successes = s.tu[u].cur.successes ∧
          r.units[u].failures = s.tu[u].cur.failures ∧ r.units[u].trips = h.units[u].trips ∧
          r.units[u].firstOut = h.units[u].firstOut ∧ r.units[u].openAtStart = h.units[u].openAtStart ∧
          (r.units[u].openAtEnd = true ↔ s.tu[u].cur.successes + s.tu[u].cur.failures <
            s.tu[u].cur.starts + if h.units[u].openAtStart then 1 else 0) ∧
          (∀ a, s.tu[u].cur.start = some a → ∀ k : Fin 8,
            r.units[u].durations[k] = s.tu[u].cur.durations[k] +
              if k = modeIdx s.tu[u].mode then c.stamp.elapsed - max s.tu[u].entry a else 0)) ∧
        (s.eq.records.length < 480 →
          s.admittedNext t (mkRecord .shiftClosed .b 0 (consoleCode c.outgoing) (consoleCode c.incoming)
            (closeCode c.kind) c.stamp)) ∧
        (s.hc.deferred = none →
          t.sh.cut = none ∧ t.sh.closing = none ∧ t.sh.openingMissed = 0 ∧
          t.hc = { s.hc with state := if c.kind = .unattended then .noDuty else .onShift,
                             duty := if c.kind = .unattended ∨ c.kind = .auto then none else s.hc.incoming,
                             incoming := none, settleEnd := none, queue := t.hc.queue, tx := t.hc.tx } ∧
          (∀ u : UnitNo, ∀ n, s.tu[u].next = some n → t.tu[u] = { s.tu[u] with cur := n, next := none }) ∧
          Within [.hc, .sh, .tu, .eq] s t))

/-- Local time, evaluated at each LOCAL_SECOND_BOUNDARY and STEP_APPLICATION while time is set, reaches the latest of the
boundaries passed since the last reached one and the reach mark, counts the others as missed, and hands it to the handover
at that tick; where time first becomes set the last reached boundary is re-seated at the latest boundary at or before local
time instead (R139 to R142). A boundary that is reached acts by state and mode: in ON_SHIFT of CONSOLE mode it opens the
window, and in OVERRUN afresh; it cuts an unattended shift and a shift in AUTO mode; an active incident holds these in HELD;
in WINDOW_OPEN, ACCEPTED and HELD it is missed; in SETTLING it is deferred; and the boundary of the shift becomes its pair
(R148, R150, R154, R155, R161). That a boundary in NO_DUTY without an open shift, or in NO_DUTY of AUTO mode, does nothing
here is deduced (log entry 27). -/
def Obligations.BoundaryActsByState : Prop :=
  (∀ (l : List Nat) (secs : Nat), l.Pairwise (· < ·) → (∀ m ∈ l, m ≤ 1439) →
    (∀ d i, latestBoundary l secs = some (d, i) ↔
      ∃ h : i < l.length, d * 86400 + l[i] * 60 ≤ secs ∧
        ∀ (d' i' : Nat) (h' : i' < l.length), d' * 86400 + l[i'] * 60 ≤ secs → d' < d ∨ (d' = d ∧ i' ≤ i)) ∧
    (latestBoundary l secs = none ↔ ∀ (d i : Nat) (h : i < l.length), secs < d * 86400 + l[i] * 60)) ∧
  (∀ (n : Nat) (latest reached mark : Option BoundaryId),
    let after := fun (p q : BoundaryId) => q.1 < p.1 ∨ (q.1 = p.1 ∧ q.2 < p.2)
    (latest = none → passedCount n latest reached mark = 0) ∧
    ∀ b, latest = some b →
      ∃ l : List BoundaryId, l.Nodup ∧ l.length = passedCount n latest reached mark ∧
        ∀ p, p ∈ l ↔ p.2 < n ∧ ¬ after p b ∧ (∀ q ∈ reached, after p q) ∧ ∀ q ∈ mark, after p q) ∧
  (let local_ := fun (s t : State) =>
    ((stationSeconds ((t.tb.e : Int) + t.tb.delta) : Int) + s.ml.params.localOffset * 60).toNat
   let evaluated := fun (s t : State) =>
    let latest := latestBoundary s.hc.schedule (local_ s t)
    let passed := passedCount s.hc.schedule.length latest s.hc.lastReached s.hc.reachMark
    (latest = none ∨ passed = 0 → t.hc = s.hc) ∧
    ∀ b, latest = some b → passed ≠ 0 →
      ∃ v : State, Within [.tb, .rm, .dl, .up, .down, .hc, .eq, .sh] s v ∧ v.tb = t.tb ∧
        v.hc = { s.hc with missed := min (s.hc.missed + (passed - 1)) 65535, lastReached := some b, reachMark := some b } ∧
        t = v.actBoundary b s.tb.e
   let reseated := fun (s t : State) =>
    t.hc = { s.hc with lastReached := latestBoundary s.hc.schedule (local_ s t) }
   (∀ s : State, s.atBoundary →
    ∃ t, exec .localSecondBoundary s = .next t ∧
      (s.tb.unset = true → s.tb.pendingSetting = none → t.hc = s.hc) ∧
      (s.tb.unset = true → s.tb.pendingSetting.isSome → reseated s t) ∧ (s.tb.unset = false → evaluated s t)) ∧
   ∀ (s : State) (p : PendingStep), s.tb.pendingStep = some p → p.applyAt ≤ s.tb.e →
    ∃ t, exec .stepApplication s = .next t ∧
      (s.tb.unset = true → reseated s t) ∧ (s.tb.unset = false → evaluated s t)) ∧
  ∀ (s : State) (b : BoundaryId) (r : Nat),
    let t := s.actBoundary b r
    let items := fun (h : Handover) => t.hc = { h with boundary := some b, queue := t.hc.queue, tx := t.hc.tx }
    let console := s.ml.params.scheduleMode = .console
    let held := fun (resume : Resume) => items { s.hc with state := .held, resume := resume, heldSince := some r }
    let window := s.ml.params.handoverWindow * 3840000
    let cuts := fun (kind : CloseKind) =>
      t.hc.state = .settling ∧ t.hc.duty = none ∧ t.hc.settleEnd = some (r + 320) ∧ t.hc.missed = 0 ∧
        ∃ c, t.sh.cut = some c ∧ c.kind = kind ∧ c.stamp = stampOf s.tb.vals r ∧ c.boundary = some b ∧
          c.missed = s.hc.missed ∧ c.incoming = s.hc.incoming
    (s.hc.state = .noDuty → (s.hc.shiftOpen = false ∨ ¬ console) → t = s) ∧
    (s.hc.state = .noDuty → console → s.hc.shiftOpen = true → s.ct.incident = false → cuts .unattended) ∧
    (s.hc.state = .noDuty → console → s.hc.shiftOpen = true → s.ct.incident = true → held .cutUnattended) ∧
    (s.hc.state = .onShift → ¬ console → s.ct.incident = false → cuts .auto) ∧
    (s.hc.state = .onShift → ¬ console → s.ct.incident = true → held .cutAuto) ∧
    (s.hc.state = .onShift ∨ s.hc.state = .overrun → console → s.ct.incident = false →
      items { s.hc with state := .windowOpen, timer := .window (r + window) }) ∧
    (s.hc.state = .onShift → console → s.ct.incident = true → held (.windowOpen window)) ∧
    (s.hc.state = .windowOpen ∨ s.hc.state = .accepted ∨ s.hc.state = .held →
      items { s.hc with missed := min (s.hc.missed + 1) 65535 } ∧ Within [.hc] s t) ∧
    (s.hc.state = .settling →
      items { s.hc with deferred := some b, missed := if s.hc.deferred.isSome then min (s.hc.missed + 1) 65535
                                                      else s.hc.missed } ∧ Within [.hc] s t) ∧
    Within [.hc, .eq, .sh, .tu] s t

/-! ### Requests (chapters 1, 2, 4, 7 to 10) -/

/-- The reading requests leave every other item as it was, and their replies have the lengths of 11.5 and begin with kind,
result OK and the items named here. The TICK that ends the tick E_x of the execution leaves in the reply buffer what the
request answers from the state as every change of that tick leaves it; but a READ_TIME that showed a time setting as present
which has been applied since keeps the items of its Timebase block that the application changes, all but the search flag and
the two trims (R20, R84, R127, R138, R170, R177, R178, R180 to R182). What READ_TIME shows while time is unset, and that the
TICK settles the replies, is deduced (log entries 44 and 52). -/
def Obligations.ReadsChangeNothing : Prop :=
  ∀ s : State,
    let answers := fun (c : Instr) (req head : List Octet) (n : Nat) => s.requested req →
      ∃ reply, exec c s = .next (s.replied req reply) ∧ head <+: reply ∧ reply.length = n
    let station := (s.tb.e : Int) + s.tb.delta
    answers .readStatus [0x01#8] ([0x01#8, 0x00#8, 0x4E#8, 0x24#8, 0x01#8] ++ natOctets 6 s.tb.e) 88 ∧
    answers .readTime [0x02#8]
      ([0x02#8, 0x00#8] ++ natOctets 6 s.tb.e ++ natOctets 5 (if s.tb.unset then 0 else stationSeconds station) ++
        natOctets 2 (if s.tb.unset then s.tb.e % 64000 else (station % 64000).toNat) ++ intOctets 8 s.tb.delta) 38 ∧
    (∀ n < 20, answers .readParam [0x11#8, BitVec.ofNat 8 n]
      ([0x11#8, 0x00#8, BitVec.ofNat 8 n] ++
        intOctets 4 (if n = 0 then s.dl.p else if n = 1 then s.dl.q else s.ml.params.value n) ++
        intOctets 4 (s.ml.params.value n)) 11) ∧
    (∀ ch : Chan, answers .readChannel [0x21#8, BitVec.ofNat 8 ch.val]
      ([0x21#8, 0x00#8, BitVec.ofNat 8 ch.val] ++ s.cm[ch].entry.octets) 208) ∧
    (∀ u : UnitNo, answers .readTally [0x31#8, BitVec.ofNat 8 u.val]
      ([0x31#8, 0x00#8, BitVec.ofNat 8 u.val] ++ natOctets 6 s.tb.e) 232) ∧
    answers .readSchedule [0x41#8] ([0x41#8, 0x00#8] ++ natOctets 1 s.hc.schedule.length) 77 ∧
    (∀ i r, i < 256 → s.sh.ring[i]? = some r →
      answers .readShift [0x42#8, BitVec.ofNat 8 i, 0xFF#8]
        ([0x42#8, 0x00#8, BitVec.ofNat 8 i, 0xFF#8] ++ natOctets 4 r.number ++ natOctets 1 (closeCode r.kind)) 76 ∧
      ∀ u : UnitNo, answers .readShift [0x42#8, BitVec.ofNat 8 i, BitVec.ofNat 8 u.val]
        ([0x42#8, 0x00#8, BitVec.ofNat 8 i, BitVec.ofNat 8 u.val] ++ natOctets 4 r.number) 79) ∧
    let settles := fun (c : Instr) (req : List Octet) (shown : List Octet → List Octet) =>
      s.inReset = false → s.tb.e % 16 = 0 → s.ml.request = .executed req → s.ml.executedAt = some s.tb.e →
        ∃ t now, exec .tick s = .next t ∧ t.ml = { s.ml with reply := shown now } ∧
          exec c { s with ml := { s.ml with request := .complete req } } = .next (s.replied req now)
    let reads : List (Instr × Octet) := [(.readStatus, 0x01#8), (.readParam, 0x11#8), (.readChannel, 0x21#8),
      (.readTally, 0x31#8), (.readSchedule, 0x41#8), (.readShift, 0x42#8)]
    (∀ x ∈ reads, ∀ l, settles x.1 (x.2 :: l) fun now => now) ∧
    ∀ l, settles .readTime (0x02#8 :: l) fun now =>
      let taken := s.ml.reply
      let flags := taken.getD 24 0#8
      if flags.getLsbD 1 = true ∧ s.tb.pendingSetting = none then
        taken.take 24 ++ [(flags &&& 0x03#8) ||| (now.getD 24 0#8 &&& 0x04#8)] ++ (taken.drop 25).take 5 ++ now.drop 30
      else now

/-- SET_TIME is taken in FREE_RUN and HOLDOVER with no step pending: the seconds and the accuracy, clamped to 4 s, wait for
the next local second boundary; otherwise REFUSED_STATE. TRIM_SEARCH START, on the active reference, begins with pending
trim 0 and saves the integral and the trim in force; BUSY while a search runs, REFUSED_STATE when none is followed. ABORT
restores both with a TIMEBASE record, makes a return to A that the search held back, and is refused with none running (R14,
R42, R47, R49, R179). That a pending step refuses SET_TIME in FREE_RUN and HOLDOVER too is deduced (log entry 22). -/
def Obligations.TimeAndSearchRequests : Prop :=
  (∀ (s : State) (sec acc : Nat), sec < 2 ^ 40 → acc < 2 ^ 32 →
    let req := [0x03#8] ++ natOctets 5 sec ++ natOctets 4 acc
    s.requested req →
    ((s.dl.mode = .freeRun ∨ s.dl.mode = .holdover) ∧ s.tb.pendingStep = none → exec .setTime s =
      .next (({ s with tb := { s.tb with pendingSetting := some { seconds := sec, accuracy := min acc 4000000000 } } }).replied
        req ([0x03#8, 0x00#8] ++ natOctets 5 sec ++ natOctets 4 (min acc 4000000000)))) ∧
    (s.dl.mode = .acquiring ∨ s.dl.mode = .locked ∨ s.tb.pendingStep.isSome →
      exec .setTime s = .next (s.replied req [0x03#8, 0x04#8]))) ∧
  (∀ s : State, s.requested [0x50#8, 0x01#8] →
    (s.dl.search.isSome → exec .trimSearchStart s = .next (s.replied [0x50#8, 0x01#8] [0x50#8, 0x05#8])) ∧
    (s.dl.search = none → s.dl.mode = .freeRun ∨ s.dl.mode = .holdover ∨ s.dl.active = none →
      exec .trimSearchStart s = .next (s.replied [0x50#8, 0x01#8] [0x50#8, 0x04#8])) ∧
    ∀ r, s.dl.search = none → s.dl.mode = .acquiring ∨ s.dl.mode = .locked → s.dl.active = some r →
      exec .trimSearchStart s = .next
        (({ s with
          dl := { s.dl with search := some { ref := r, stepSize := 102400, trim := 0, armed := false, start := none,
                                             savedI := s.dl.integral, savedT := s.tb.trim, deferred := none } }
          tb := { s.tb with pendingTrim := 0 } }).replied [0x50#8, 0x01#8] [0x50#8, 0x00#8, 0x01#8])) ∧
  ∀ s : State, s.requested [0x50#8, 0x02#8] →
    (s.dl.search = none → exec .trimSearchAbort s = .next (s.replied [0x50#8, 0x02#8] [0x50#8, 0x04#8])) ∧
    ∀ x, s.dl.search = some x →
      ∃ t, exec .trimSearchAbort s = .next t ∧ t.ml = (s.replied [0x50#8, 0x02#8] [0x50#8, 0x00#8, 0x02#8]).ml ∧
        (let back := ({ s with dl := { s.dl with search := none } } : State).revertDue
         (¬ back → t.dl = { s.dl with search := none, integral := x.savedI, history := [] } ∧ t.rm = s.rm) ∧
         (back → t.dl.search = none ∧ t.dl.integral = x.savedI ∧ t.dl.history = [] ∧ t.dl.confirmed = none ∧
          t.dl.active = some .a ∧ t.dl.mode = s.dl.mode ∧ t.rm = { s.rm with a := { s.rm.a with buildOut := 0 } })) ∧
        t.tb = { s.tb with pendingTrim := x.savedT } ∧
        (s.eq.records.length < 512 →
          s.admittedNext t (mkRecord .timebase .a (refCode s.dl.active) (tbModeCode s.dl.mode) (tbModeCode s.dl.mode) 6
            (stampOf s.tb.vals s.tb.e))) ∧
        Within [.ml, .rm, .dl, .tb, .eq, .sh] s t

/-- A numeric parameter is clamped to its range and stored, an off-and-on setting is taken as 0 or 1, the reply carries the
value applied, and nothing else changes (R34, R66, R117, R137, R179, R180). -/
def Obligations.NumericParametersWritten : Prop :=
  WritesNumber .writeP 0 0 15 (fun v p => { p with p := v }) ∧
  WritesNumber .writeQ 1 0 20 (fun v p => { p with q := v }) ∧
  WritesNumber .writeStepThreshold 2 1000 1000000 (fun v p => { p with stepThreshold := v }) ∧
  WritesNumber .writeJitterLimit 3 8 100000 (fun v p => { p with jitterLimit := v }) ∧
  WritesNumber .writeQualifyCount 4 2 60 (fun v p => { p with qualifyCount := v }) ∧
  WritesNumber .writeBClass 5 0 7 (fun v p => { p with bClass := v }) ∧
  WritesNumber .writeHoldoverDriftBound 6 1 100000 (fun v p => { p with driftBound := v }) ∧
  WritesFlag .writeBuildOut 10 (fun b => State.onParams fun p => { p with buildOut := b }) ∧
  WritesFlag .writeSearchOnAcquire 11 (fun b => State.onParams fun p => { p with searchOnAcquire := b }) ∧
  WritesNumber .writeChatterWindow 13 1 60 (fun v p => { p with chatterWindow := v }) ∧
  WritesNumber .writeCascadeWindow 14 1 1000 (fun v p => { p with cascadeWindow := v }) ∧
  WritesNumber .writeTripHold 15 0 30 (fun v p => { p with tripHold := v }) ∧
  WritesNumber .writeHandoverWindow 16 1 120 (fun v p => { p with handoverWindow := v }) ∧
  WritesNumber .writeReleaseLimit 17 1 30 (fun v p => { p with releaseLimit := v })

/-- The parameters that choose the reference act at the write. A changed policy aborts a search and moves the DL to the
reference that it now allows, with the build-out of R41 at a switch in LOCKED and 0 otherwise, or to none with I as the
pending trim; a changed revertive setting and a written revert holdoff return to A at once when all conditions hold; a
policy that names none is refused (R35, R41 to R43, R179, R180). That a write of the value in force does nothing else is
deduced (log entry 40). -/
def Obligations.ReferenceParametersAct : Prop :=
  (∀ (s : State) (v : BitVec 32), s.requested (writeRequest 7 v) → 3 < v.toNat →
    exec .writeReferencePolicy s = .next (s.replied (writeRequest 7 v) [0x10#8, 0x03#8])) ∧
  (∀ (s : State) (p : Policy), s.requested (writeRequest 7 (BitVec.ofNat 32 (policyCode p))) →
    let req := writeRequest 7 (BitVec.ofNat 32 (policyCode p))
    let usable := fun r : Ref => p.allows r = true ∧ (s.rm.get r).qual = .qualified
    let following := s.dl.mode = .acquiring ∨ s.dl.mode = .locked
    (p = s.ml.params.policy →
      exec .writeReferencePolicy s = .next (s.replied req (writeReply 7 (policyCode p)))) ∧
    (p ≠ s.ml.params.policy →
      ∃ t, exec .writeReferencePolicy s = .next t ∧
        t.ml = { s.ml with params := { s.ml.params with policy := p }, request := .executed req,
                           reply := writeReply 7 (policyCode p), executedAt := some s.tb.e } ∧
        (following → s.dl.active = some .a → p.allows .a = true →
          t.dl.active = some .a ∧ t.dl.mode = s.dl.mode ∧ t.dl.search = none) ∧
        (∀ r, following → s.dl.active = some r → p.allows r = false → usable (otherRef r) →
          t.dl.active = some (otherRef r) ∧ t.dl.mode = s.dl.mode ∧ t.dl.search = none ∧ t.dl.history = [] ∧
            s.switchedBuildOut (otherRef r) (t.rm.get (otherRef r)).buildOut) ∧
        (∀ r, following → s.dl.active = some r → p.allows r = false → ¬ usable (otherRef r) →
          t.dl.active = none ∧ t.dl.mode = (if s.dl.everLocked then .holdover else .freeRun) ∧
            t.tb.pendingTrim = t.dl.integral) ∧
        (¬ following → s.dl.search = none → usable .a ∨ usable .b → ∃ r, usable r ∧ (usable .a → r = .a) ∧
          t.dl.active = some r ∧ t.dl.mode = .acquiring ∧ (t.rm.get r).buildOut = 0 ∧
          (s.dl.mode = .holdover ∨ s.ml.params.searchOnAcquire = false → t.dl.search = none)) ∧
        Within [.ml, .rm, .dl, .tb, .eq, .sh] s t)) ∧
  let reverts := fun (c : Instr) (s u : State) (req reply : List Octet) =>
    (¬ u.revertDue → exec c s = .next (u.replied req reply)) ∧
    (u.revertDue →
      ∃ t, exec c s = .next t ∧ t.ml = (u.replied req reply).ml ∧ t.dl.active = some .a ∧ t.dl.mode = s.dl.mode ∧
        t.dl.history = [] ∧ t.rm = { s.rm with a := { s.rm.a with buildOut := 0 } } ∧ Within [.ml, .rm, .dl, .eq, .sh] s t)
  (∀ (s : State) (v : BitVec 32), s.requested (writeRequest 8 v) → 1 < v.toNat →
    exec .writeRevertive s = .next (s.replied (writeRequest 8 v) [0x10#8, 0x03#8])) ∧
  (∀ (s : State) (b : Bool), s.requested (writeRequest 8 (BitVec.ofNat 32 (boolCode b))) →
    let req := writeRequest 8 (BitVec.ofNat 32 (boolCode b))
    (b = s.ml.params.revertive → exec .writeRevertive s = .next (s.replied req (writeReply 8 (boolCode b)))) ∧
    (b ≠ s.ml.params.revertive →
      reverts .writeRevertive s (s.onParams fun p => { p with revertive := b }) req (writeReply 8 (boolCode b)))) ∧
  ∀ (s : State) (v : BitVec 32), s.requested (writeRequest 9 v) →
    let n := max 10 (min 3600 v.toInt)
    reverts .writeRevertHoldoff s (s.onParams fun p => { p with revertHoldoff := n.toNat }) (writeRequest 9 v) (writeReply 9 n)

/-- A written store depth, 4 to 16, recentres both stores, and in LOF the upward one alone. A written local offset, −720 to
840 minutes, re-seats the last reached boundary when local time moves back and reaches the latest boundary passed when it
moves on. A changed schedule mode is refused outside NO_DUTY and ON_SHIFT; to AUTO it goes on with the open shift or opens
one, and to CONSOLE it leaves the shift without a duty console (R61, R62, R137, R139 to R142, R153, R179). That a write of
the mode in force does nothing else, and that nothing re-seats while time is unset, is deduced (log entries 40 and 42). -/
def Obligations.DepthOffsetAndModeAct : Prop :=
  (∀ (s : State) (v : BitVec 32), s.requested (writeRequest 12 v) →
    let d := (max 4 (min 16 v.toInt)).toNat
    let t := (s.onParams fun p => { p with storeDepth := d }).replied (writeRequest 12 v) (writeReply 12 d)
    let up := { s.up with frames := List.replicate (d / 2) s.up.last }
    (s.sli.alignment = .inFrame → exec .writeStoreDepth s =
      .next { t with up := up, down := { s.down with frames := List.replicate (d / 2) s.down.last } }) ∧
    (s.sli.alignment = .lof → exec .writeStoreDepth s = .next { t with up := up })) ∧
  (∀ (s : State) (v : BitVec 32), s.requested (writeRequest 19 v) →
    let offset := max (-720) (min 840 v.toInt)
    let t := (s.onParams fun p => { p with localOffset := offset }).replied (writeRequest 19 v) (writeReply 19 offset)
    let secs := stationSeconds ((s.tb.e : Int) + s.tb.delta)
    let now := ((secs : Int) + offset * 60).toNat
    let before := ((secs : Int) + s.ml.params.localOffset * 60).toNat
    let latest := latestBoundary s.hc.schedule now
    let passed := passedCount s.hc.schedule.length latest s.hc.lastReached s.hc.reachMark
    (s.tb.unset = true → exec .writeLocalOffset s = .next t) ∧
    (s.tb.unset = false → now < before →
      exec .writeLocalOffset s = .next { t with hc := { s.hc with lastReached := latest } }) ∧
    (s.tb.unset = false → before ≤ now → latest = none ∨ passed = 0 → exec .writeLocalOffset s = .next t) ∧
    ∀ b, s.tb.unset = false → before ≤ now → latest = some b → passed ≠ 0 →
      exec .writeLocalOffset s = .next
        (({ (s.onParams fun p => { p with localOffset := offset }) with
            hc := { s.hc with missed := min (s.hc.missed + (passed - 1)) 65535, lastReached := some b,
                              reachMark := some b } }).actBoundary b s.tb.e |>.replied (writeRequest 19 v)
                                (writeReply 19 offset))) ∧
  (∀ (s : State) (v : BitVec 32), s.requested (writeRequest 18 v) → 1 < v.toNat →
    exec .writeScheduleMode s = .next (s.replied (writeRequest 18 v) [0x10#8, 0x03#8])) ∧
  ∀ (s : State) (mode : SchedMode), s.requested (writeRequest 18 (BitVec.ofNat 32 (schedModeCode mode))) →
    let req := writeRequest 18 (BitVec.ofNat 32 (schedModeCode mode))
    let reply := writeReply 18 (schedModeCode mode)
    let settled := s.hc.state = .noDuty ∨ s.hc.state = .onShift
    let t := (s.onParams fun p => { p with scheduleMode := mode }).replied req reply
    (mode = s.ml.params.scheduleMode → exec .writeScheduleMode s = .next (s.replied req reply)) ∧
    (mode ≠ s.ml.params.scheduleMode → ¬ settled → exec .writeScheduleMode s = .next (s.replied req [0x10#8, 0x04#8])) ∧
    (mode ≠ s.ml.params.scheduleMode → mode = .console → s.hc.state = .noDuty → exec .writeScheduleMode s = .next t) ∧
    (mode ≠ s.ml.params.scheduleMode → mode = .console → s.hc.state = .onShift →
      ∃ x, exec .writeScheduleMode s = .next x ∧ x.ml = t.ml ∧
        x.hc = { s.hc with state := .noDuty, queue := x.hc.queue, tx := x.hc.tx } ∧ Within [.ml, .hc, .eq, .sh] s x) ∧
    (mode ≠ s.ml.params.scheduleMode → mode = .auto → s.hc.state = .noDuty → s.hc.shiftOpen = false → s.hc.schedule = [] →
      exec .writeScheduleMode s = .next t) ∧
    (mode ≠ s.ml.params.scheduleMode → mode = .auto →
      (s.hc.state = .onShift ∧ s.hc.duty.isSome) ∨ (s.hc.state = .noDuty ∧ s.hc.shiftOpen = true) →
      ∃ x, exec .writeScheduleMode s = .next x ∧ x.ml = t.ml ∧
        x.hc = { s.hc with state := .onShift, duty := none, queue := x.hc.queue, tx := x.hc.tx } ∧
        Within [.ml, .hc, .eq, .sh] s x) ∧
    (mode ≠ s.ml.params.scheduleMode → mode = .auto → s.hc.state = .noDuty → s.hc.shiftOpen = false → s.hc.schedule ≠ [] →
      ∃ x h, exec .writeScheduleMode s = .next x ∧ x.ml = t.ml ∧
        x.hc = { s.hc with state := .onShift, duty := none, shiftOpen := true, missed := 0, queue := x.hc.queue,
                           tx := x.hc.tx } ∧
        x.sh.current = some h ∧ h.start = stampOf s.tb.vals s.tb.e ∧
        (∀ u : UnitNo, x.tu[u] = { s.tu[u] with cur := ShiftSet.zero (some s.tb.e) }) ∧
        Within [.ml, .hc, .eq, .sh, .tu] s x)

/-- WRITE_CHANNEL gives every channel of the set the values of the request, latency at most 255 and chatter limit 2 to 15,
and restarts it; RESTART_CHANNEL restarts it under its entry. A restart clears the runtime items but the raw last look, the
unstable-look counter and the stamp floor; the unit whose mode source restarts enters UNKNOWN, and a unit whose source has
changed derives its mode again. An empty set, a channel above 23 and a MODE channel in group 8 are refused (R68, R69, R82,
R84, R121, R123). The order of restart and derivation is deduced (log entry 31). -/
def Obligations.ChannelTableWritten : Prop :=
  let restarted := fun (x : Channel) (e : ChannelEntry) =>
    { x with entry := e, presence := .unknown, valid := none, candidate := none, runCount := 0, runStart := none,
             recent := [], chatter := none, suppressed := 0, store := [] }
  (∀ (s : State) (set lat lim : Nat) (on : Bool) (role : Role) (g : Group) (trips : BitVec 16),
    set < 2 ^ 32 → lat < 2 ^ 16 → lim < 2 ^ 8 →
    let req := [0x20#8] ++ natOctets 4 set ++ [BitVec.ofNat 8 (boolCode on), BitVec.ofNat 8 (roleCode role),
      BitVec.ofNat 8 g.val] ++ natOctets 2 trips.toNat ++ natOctets 2 lat ++ natOctets 1 lim
    let e : ChannelEntry := { enabled := on, role := role, group := g, tripSet := trips, latency := min lat 255,
                              chatterLimit := max 2 (min lim 15) }
    s.requested req →
    (set = 0 ∨ 2 ^ 24 ≤ set ∨ (role = .mode ∧ g = 8) → exec .writeChannel s = .next (s.replied req [0x20#8, 0x03#8])) ∧
    (0 < set → set < 2 ^ 24 → ¬ (role = .mode ∧ g = 8) →
      ∃ t, exec .writeChannel s = .next t ∧
        t.ml = (s.replied req ([0x20#8, 0x00#8] ++ natOctets 4 set ++ e.octets)).ml ∧
        (∀ ch : Chan, t.cm[ch] = if set.testBit ch.val then restarted s.cm[ch] e else s.cm[ch]) ∧
        (∀ (u : UnitNo) (ch : Chan), modeSource s.cm u = some ch → modeSource t.cm u = some ch → set.testBit ch.val = true →
          t.tu[u].mode = .unknown) ∧
        (∀ u : UnitNo, modeSource s.cm u ≠ modeSource t.cm u → t.tu[u].mode = derivedMode t u) ∧
        (∀ u : UnitNo, modeSource s.cm u = modeSource t.cm u →
          (∀ ch ∈ modeSource s.cm u, set.testBit ch.val = false) → t.tu[u] = s.tu[u]) ∧
        Within [.ml, .cm, .tu, .eq, .sh] s t)) ∧
  ∀ (s : State) (set : Nat), set < 2 ^ 32 →
    let req := [0x22#8] ++ natOctets 4 set
    s.requested req →
    (set = 0 ∨ 2 ^ 24 ≤ set → exec .restartChannel s = .next (s.replied req [0x22#8, 0x03#8])) ∧
    (0 < set → set < 2 ^ 24 →
      ∃ t, exec .restartChannel s = .next t ∧ t.ml = (s.replied req ([0x22#8, 0x00#8] ++ natOctets 4 set)).ml ∧
        (∀ ch : Chan, t.cm[ch] = if set.testBit ch.val then restarted s.cm[ch] s.cm[ch].entry else s.cm[ch]) ∧
        (∀ (u : UnitNo) (ch : Chan), modeSource s.cm u = some ch → set.testBit ch.val = true → t.tu[u].mode = .unknown) ∧
        (∀ u : UnitNo, (∀ ch ∈ modeSource s.cm u, set.testBit ch.val = false) → t.tu[u] = s.tu[u]) ∧
        Within [.ml, .cm, .tu, .eq, .sh] s t)

/-- WRITE_UNIT stores Enabled, the mode map and the start timeout, clamped to 30..900 s, and derives the mode again; a
change credits the old mode up to the tick and fails an open attempt. PRESET_TALLY with a consistent preset sets the
buckets, the counters and the base, closes an open attempt and moves the entry stamp to the tick with the mode kept; an
inconsistent preset is refused with BAD_INDEX (R119, R121, R123, R128, R187). -/
def Obligations.UnitTableWritten : Prop :=
  (∀ (s : State) (u : UnitNo) (on : Bool) (map : Vector UnitMode 16) (timeout : Nat), timeout < 2 ^ 16 →
    let codes := map.toList.map fun m => BitVec.ofNat 8 (modeIdx m).val
    let req := [0x30#8, BitVec.ofNat 8 u.val, BitVec.ofNat 8 (boolCode on)] ++ codes ++ natOctets 2 timeout
    let applied := max 30 (min timeout 900)
    s.requested req →
    ∃ t, exec .writeUnit s = .next t ∧
      t.ml = (s.replied req ([0x30#8, 0x00#8, BitVec.ofNat 8 u.val, BitVec.ofNat 8 (boolCode on)] ++ codes ++
        natOctets 2 applied)).ml ∧
      t.tu[u].enabled = on ∧ t.tu[u].modeMap = map ∧ t.tu[u].timeout = applied ∧ t.tu[u].mode = derivedMode t u ∧
      (t.tu[u].mode = s.tu[u].mode →
        t.tu[u] = { s.tu[u] with enabled := on, modeMap := map, timeout := applied } ∧ t.eq = s.eq) ∧
      (t.tu[u].mode ≠ s.tu[u].mode →
        t.tu[u].entry = s.tb.e ∧ t.tu[u].attempt = none ∧ t.tu[u].starts = s.tu[u].starts ∧
        t.tu[u].successes = s.tu[u].successes ∧
        ∀ k : Fin 8, t.tu[u].buckets[k] =
          s.tu[u].buckets[k] + if k = modeIdx s.tu[u].mode then s.tb.e - s.tu[u].entry else 0) ∧
      (∀ other : UnitNo, other ≠ u → t.tu[other] = s.tu[other]) ∧ Within [.ml, .tu, .eq, .sh] s t) ∧
  ∀ (s : State) (u : UnitNo) (b : Vector Nat 8) (starts successes failures trips loadTrips : Nat),
    (∀ k : Fin 8, b[k] < 2 ^ 32) → starts < 2 ^ 32 → successes < 2 ^ 32 → failures < 2 ^ 32 → trips < 2 ^ 32 →
    loadTrips < 2 ^ 32 →
    let fields := [BitVec.ofNat 8 u.val] ++ b.toList.flatMap (natOctets 4) ++ natOctets 4 starts ++ natOctets 4 successes ++
      natOctets 4 failures ++ natOctets 4 trips ++ natOctets 4 loadTrips
    let consistent := b.toList.sum * 64000 < 2 ^ 47 ∧ starts = successes + failures ∧ loadTrips ≤ trips
    s.requested ([0x32#8] ++ fields) →
    (¬ consistent → exec .presetTally s = .next (s.replied ([0x32#8] ++ fields) [0x32#8, 0x03#8])) ∧
    (consistent →
      ∃ t, exec .presetTally s = .next t ∧ t.ml = (s.replied ([0x32#8] ++ fields) ([0x32#8, 0x00#8] ++ fields)).ml ∧
        (∀ k : Fin 8, t.tu[u].buckets[k] = b[k] * 64000) ∧ t.tu[u].base = b.toList.sum * 64000 ∧
        t.tu[u].baseStamp = s.tb.e ∧ t.tu[u].entry = s.tb.e ∧ t.tu[u].starts = starts ∧ t.tu[u].successes = successes ∧
        t.tu[u].failures = failures ∧ t.tu[u].trips = trips ∧ t.tu[u].loadTrips = loadTrips ∧ t.tu[u].attempt = none ∧
        t.tu[u].mode = s.tu[u].mode ∧ t.tu[u].history = s.tu[u].history ∧
        (∀ other : UnitNo, other ≠ u → t.tu[other] = s.tu[other]) ∧ Within [.ml, .tu] s t)

/-- WRITE_SCHEDULE of 1 to 6 rising minutes below 1,440 is taken in NO_DUTY and ON_SHIFT: the schedule is replaced and the
last reached boundary re-seated when time is set; in AUTO mode with no shift open the opening cut is taken and the shift is
on. Minutes that do not rise or lie above 1,439 are refused with BAD_INDEX, and in any other state REFUSED_STATE is answered
(R137, R138, R141, R152, R154). That nothing re-seats while time is unset is deduced (log entry 42). -/
def Obligations.ScheduleWritten : Prop :=
  ∀ (s : State) (l : List Nat), 1 ≤ l.length → l.length ≤ 6 → (∀ m ∈ l, m < 2 ^ 16) →
    let req := [0x40#8] ++ l.flatMap (natOctets 2)
    let ok := (∀ m ∈ l, m ≤ 1439) ∧ l.Pairwise (· < ·)
    let settled := s.hc.state = .noDuty ∨ s.hc.state = .onShift
    let reply := [0x40#8, 0x00#8, BitVec.ofNat 8 l.length] ++ l.flatMap (natOctets 2)
    let seat := if s.tb.unset then s.hc.lastReached else latestBoundary l
      ((stationSeconds ((s.tb.e : Int) + s.tb.delta) : Int) + s.ml.params.localOffset * 60).toNat
    let opens := s.ml.params.scheduleMode = .auto ∧ s.hc.shiftOpen = false
    s.requested req →
    (¬ ok → exec .writeSchedule s = .next (s.replied req [0x40#8, 0x03#8])) ∧
    (ok → ¬ settled → exec .writeSchedule s = .next (s.replied req [0x40#8, 0x04#8])) ∧
    (ok → settled → ¬ opens →
      exec .writeSchedule s = .next ({ s with hc := { s.hc with schedule := l, lastReached := seat } }.replied req reply)) ∧
    (ok → settled → opens →
      ∃ t h, exec .writeSchedule s = .next t ∧ t.ml = (s.replied req reply).ml ∧
        t.hc = { s.hc with schedule := l, lastReached := seat, missed := 0, shiftOpen := true, state := .onShift,
                           duty := none, queue := t.hc.queue, tx := t.hc.tx } ∧
        t.sh.current = some h ∧ h.start = stampOf s.tb.vals s.tb.e ∧
        (∀ u : UnitNo, t.tu[u] = { s.tu[u] with cur := ShiftSet.zero (some s.tb.e) }) ∧
        Within [.ml, .hc, .eq, .sh, .tu] s t)

/-- WARM_RESTART answers OK and changes nothing; once its reply has ended it acts at a frame boundary of E: the Event Queue,
the Report Arbiter, the console slot, the link of the ML and the open cascades are cleared, the stores recentred, every
channel restarted, every unit brought to UNKNOWN and a running search aborted, whose record is the first after the restart
and which makes a return to A that it held back, while E, Δ, the trim in force, the mode, the slip counters, the parameters,
the tables, the handover of a part that holds nothing and the shift history stay (R42, R49, R61, R62, R104, R118, R136,
R158, R183, R184). When it waits, and the stores in LOF, are deduced (log entries 38 and 39); that nothing happens when it
is not due is the model's choice (log entry 11). -/
def Obligations.WarmRestartKeepsWhatItMust : Prop :=
  (∀ s : State, s.requested [0x60#8] → exec .warmRestart s = .next (s.replied [0x60#8] [0x60#8, 0x00#8])) ∧
  ∀ s : State,
    let due := s.tb.e % 16 = 0 ∧ s.ml.reply = [] ∧ s.ml.request = .executed [0x60#8]
    (¬ due → exec .warmRestartActs s = .next s) ∧
    (due →
      ∃ t, exec .warmRestartActs s = .next t ∧ Within [.tb, .rm, .dl, .up, .down, .cm, .eq, .ra, .ct, .tu, .hc, .sh, .ml] s t ∧
        t.tb = { s.tb with pendingSetting := none, pendingTrim := t.tb.pendingTrim } ∧
        (let back := s.dl.search.isSome ∧ ({ s with dl := { s.dl with search := none } } : State).revertDue
         (¬ back → t.rm = { s.rm with assembly := [], message := none }) ∧
         (back → t.rm = { s.rm with a := { s.rm.a with buildOut := 0 }, assembly := [], message := none } ∧
          t.dl.active = some .a) ∧
         (∀ x, ¬ back → s.dl.search = some x →
          t.dl = { s.dl with confirmed := none, history := [], search := none, integral := x.savedI })) ∧
        (s.dl.search = none → t.tb.pendingTrim = s.tb.pendingTrim ∧ t.dl = { s.dl with confirmed := none, history := [] }) ∧
        (∀ x, s.dl.search = some x → t.tb.pendingTrim = x.savedT ∧ t.dl.search = none ∧ t.dl.integral = x.savedI ∧
          t.dl.confirmed = none ∧ t.dl.history = [] ∧ t.dl.mode = s.dl.mode ∧
          t.eq.records.head? = some (mkRecord .timebase .a (refCode s.dl.active) (tbModeCode s.dl.mode)
            (tbModeCode s.dl.mode) 6 (stampOf s.tb.vals s.tb.e))) ∧
        t.up = { s.up with frames := List.replicate (s.ml.params.storeDepth / 2) s.up.last, recordMade := false } ∧
        t.down = { s.down with frames := List.replicate (s.ml.params.storeDepth / 2) s.down.last, recordMade := false } ∧
        (∀ ch : Chan, t.cm[ch] = { Channel.reset with entry := s.cm[ch].entry, rawLast := s.cm[ch].rawLast,
                                                      floor := s.cm[ch].floor }) ∧
        t.ra = { levelA := .normal, levelB := .normal, idle := 0, lastSender := none, sending := none,
                 abandoned := (match s.ra.sending with | some x => 8 - x.frames | none => s.ra.abandoned) } ∧
        ((∀ g : Group, t.ct.slots[g] = none) ∧ t.ct.holdEnd = none ∧ t.ct.incident = false) ∧
        (∀ u : UnitNo, t.tu[u].mode = .unknown ∧ t.tu[u].enabled = s.tu[u].enabled ∧ t.tu[u].modeMap = s.tu[u].modeMap ∧
          t.tu[u].base = s.tu[u].base ∧ t.tu[u].trips = s.tu[u].trips ∧
          (s.tu[u].mode ≠ .unknown → t.tu[u].attempt = none ∧ t.tu[u].entry = s.tb.e)) ∧
        t.ml = { s.ml with rx := .idle, lastTurn := none, previous := none, request := .empty, tx := .idle, lastEcho := none } ∧
        t.sh.ring = s.sh.ring ∧ t.hc.schedule = s.hc.schedule ∧ t.hc.grant = none ∧
        (∀ c : Console, t.hc.levels[c] = .normal) ∧
        (s.hc.state ≠ .held ∨ s.ct.incident = false →
          t.hc.state = s.hc.state ∧ t.hc.duty = s.hc.duty ∧ t.hc.timer = s.hc.timer ∧ t.hc.queue = []) ∧
        (s.dl.search = none → (∀ u : UnitNo, s.tu[u].attempt = none) → s.hc.state ≠ .held →
          t.eq.records = [] ∧ t.eq.seq = 0 ∧ t.eq.lostA = 0 ∧ t.eq.lostB = 0 ∧ t.eq.lossPending = false))

/-- A request is executed at a frame boundary of E and by its own command alone. A length that its kind does not allow gives
BAD_LENGTH, an index, flag, role, group or mode outside its range BAD_INDEX, as does a WRITE_PARAM above parameter 19 and a
TRIM_SEARCH with neither action, and an unknown kind UNKNOWN_REQUEST with the octet echoed; a refused request changes
nothing (R84, R119, R127, R128, R170, R177, R178, R180). That a request acts by its own command is deduced; what a command
without its request does, and that each of the commands that share a kind answers a request that names none of them, is the
model's choice (log entries 11, 12 and 24). -/
def Obligations.RefusedRequestsChangeNothing : Prop :=
  let kinds : List (Instr × Octet × Nat) :=
    [(.readStatus, 0x01#8, 1), (.readTime, 0x02#8, 1), (.setTime, 0x03#8, 10), (.readParam, 0x11#8, 2),
     (.writeChannel, 0x20#8, 13), (.readChannel, 0x21#8, 2), (.restartChannel, 0x22#8, 5), (.writeUnit, 0x30#8, 21),
     (.readTally, 0x31#8, 2), (.presetTally, 0x32#8, 54), (.readSchedule, 0x41#8, 1), (.readShift, 0x42#8, 3),
     (.warmRestart, 0x60#8, 1)]
  let writes : List (Instr × Nat) :=
    [(.writeP, 0), (.writeQ, 1), (.writeStepThreshold, 2), (.writeJitterLimit, 3), (.writeQualifyCount, 4), (.writeBClass, 5),
     (.writeHoldoverDriftBound, 6), (.writeReferencePolicy, 7), (.writeRevertive, 8), (.writeRevertHoldoff, 9),
     (.writeBuildOut, 10), (.writeSearchOnAcquire, 11), (.writeStoreDepth, 12), (.writeChatterWindow, 13),
     (.writeCascadeWindow, 14), (.writeTripHold, 15), (.writeHandoverWindow, 16), (.writeReleaseLimit, 17),
     (.writeScheduleMode, 18), (.writeLocalOffset, 19)]
  let searches : List (Instr × Nat) := [(.trimSearchStart, 1), (.trimSearchAbort, 2)]
  let all : List (Instr × Octet) :=
    kinds.map (fun x => (x.1, x.2.1)) ++ writes.map (fun x => (x.1, 0x10#8)) ++ searches.map (fun x => (x.1, 0x50#8)) ++
      [(.writeSchedule, 0x40#8)]
  (∀ x ∈ all, ∀ s : State,
    ((∀ req, s.ml.request ≠ .complete req) ∨ s.tb.e % 16 ≠ 0 → exec x.1 s = .next s) ∧
    ∀ req, s.ml.request = .complete req → req.head? ≠ some x.2 → exec x.1 s = .next s) ∧
  (∀ x ∈ kinds, ∀ (s : State) (l : List Octet), s.requested (x.2.1 :: l) → l.length + 1 ≠ x.2.2 →
    exec x.1 s = .next (s.replied (x.2.1 :: l) [x.2.1, 0x02#8])) ∧
  (∀ (s : State) (l : List Octet), s.requested (0x40#8 :: l) → l.length % 2 = 1 ∨ l.length = 0 ∨ 12 < l.length →
    exec .writeSchedule s = .next (s.replied (0x40#8 :: l) [0x40#8, 0x02#8])) ∧
  (∀ x ∈ writes, ∀ (s : State) (l : List Octet), s.requested (0x10#8 :: l) →
    let mine := ∀ k ∈ l.head?, k.toNat = x.2 ∨ 20 ≤ k.toNat
    (¬ mine → exec x.1 s = .next s) ∧
    (mine → l.length ≠ 5 → exec x.1 s = .next (s.replied (0x10#8 :: l) [0x10#8, 0x02#8])) ∧
    (∀ k v, l = k :: v → v.length = 4 → 20 ≤ k.toNat → exec x.1 s = .next (s.replied (0x10#8 :: l) [0x10#8, 0x03#8]))) ∧
  (∀ x ∈ searches, ∀ (s : State) (l : List Octet), s.requested (0x50#8 :: l) →
    let mine := ∀ k ∈ l.head?, k.toNat = x.2 ∨ (k ≠ 0x01#8 ∧ k ≠ 0x02#8)
    (¬ mine → exec x.1 s = .next s) ∧
    (mine → l.length ≠ 1 → exec x.1 s = .next (s.replied (0x50#8 :: l) [0x50#8, 0x02#8])) ∧
    (∀ k, l = [k] → k ≠ 0x01#8 → k ≠ 0x02#8 → exec x.1 s = .next (s.replied (0x50#8 :: l) [0x50#8, 0x03#8]))) ∧
  (∀ (s : State) (k : Octet) (l : List Octet), s.requested (k :: l) →
    (k.toNat ∉ [1, 2, 3, 16, 17, 32, 33, 34, 48, 49, 50, 64, 65, 66, 80, 96] →
      exec .unknownRequest s = .next (s.replied (k :: l) [k, 0x01#8])) ∧
    (k.toNat ∈ [1, 2, 3, 16, 17, 32, 33, 34, 48, 49, 50, 64, 65, 66, 80, 96] → exec .unknownRequest s = .next s)) ∧
  (∀ (s : State) (n : Octet), 20 ≤ n.toNat → s.requested [0x11#8, n] →
    exec .readParam s = .next (s.replied [0x11#8, n] [0x11#8, 0x03#8])) ∧
  (∀ (s : State) (n : Octet), 24 ≤ n.toNat → s.requested [0x21#8, n] →
    exec .readChannel s = .next (s.replied [0x21#8, n] [0x21#8, 0x03#8])) ∧
  (∀ (s : State) (n : Octet), 8 ≤ n.toNat → s.requested [0x31#8, n] →
    exec .readTally s = .next (s.replied [0x31#8, n] [0x31#8, 0x03#8])) ∧
  (∀ (s : State) (set : List Octet) (on role g : Octet) (rest : List Octet), set.length = 4 → rest.length = 5 →
    let req := [0x20#8] ++ set ++ [on, role, g] ++ rest
    s.requested req → 2 ≤ on.toNat ∨ 5 ≤ role.toNat ∨ 9 ≤ g.toNat →
    exec .writeChannel s = .next (s.replied req [0x20#8, 0x03#8])) ∧
  (∀ (s : State) (unit on : Octet) (map timeout : List Octet), map.length = 16 → timeout.length = 2 →
    let req := [0x30#8, unit, on] ++ map ++ timeout
    s.requested req → 8 ≤ unit.toNat ∨ 2 ≤ on.toNat ∨ (∃ m ∈ map, 8 ≤ m.toNat) →
    exec .writeUnit s = .next (s.replied req [0x30#8, 0x03#8])) ∧
  (∀ (s : State) (unit : Octet) (rest : List Octet), rest.length = 52 → 8 ≤ unit.toNat → s.requested (0x32#8 :: unit :: rest) →
    exec .presetTally s = .next (s.replied (0x32#8 :: unit :: rest) [0x32#8, 0x03#8])) ∧
  ∀ (s : State) (i part : Octet), s.requested [0x42#8, i, part] →
    s.sh.ring.length ≤ i.toNat ∨ (8 ≤ part.toNat ∧ part ≠ 0xFF#8) →
    exec .readShift s = .next (s.replied [0x42#8, i, part] [0x42#8, 0x03#8])

end
end

