-- ==== Sys2Proof/Laws/State.lean ====
section
/-! SUPPORT. What each update of the state leaves in each field: one lemma per field per update, true by
`rfl`, so that no later proof unfolds a record update. -/

namespace Sys2Proof.Machine

/-! ### `State.onHc` -/

@[simp] theorem State.onHc_inReset (f : Handover → Handover) (s : State) : (s.onHc f).inReset = s.inReset := rfl
@[simp] theorem State.onHc_tb (f : Handover → Handover) (s : State) : (s.onHc f).tb = s.tb := rfl
@[simp] theorem State.onHc_rm (f : Handover → Handover) (s : State) : (s.onHc f).rm = s.rm := rfl
@[simp] theorem State.onHc_dl (f : Handover → Handover) (s : State) : (s.onHc f).dl = s.dl := rfl
@[simp] theorem State.onHc_sli (f : Handover → Handover) (s : State) : (s.onHc f).sli = s.sli := rfl
@[simp] theorem State.onHc_ubi (f : Handover → Handover) (s : State) : (s.onHc f).ubi = s.ubi := rfl
@[simp] theorem State.onHc_up (f : Handover → Handover) (s : State) : (s.onHc f).up = s.up := rfl
@[simp] theorem State.onHc_down (f : Handover → Handover) (s : State) : (s.onHc f).down = s.down := rfl
@[simp] theorem State.onHc_cm (f : Handover → Handover) (s : State) : (s.onHc f).cm = s.cm := rfl
@[simp] theorem State.onHc_eq (f : Handover → Handover) (s : State) : (s.onHc f).eq = s.eq := rfl
@[simp] theorem State.onHc_ra (f : Handover → Handover) (s : State) : (s.onHc f).ra = s.ra := rfl
@[simp] theorem State.onHc_ct (f : Handover → Handover) (s : State) : (s.onHc f).ct = s.ct := rfl
@[simp] theorem State.onHc_tu (f : Handover → Handover) (s : State) : (s.onHc f).tu = s.tu := rfl
@[simp] theorem State.onHc_hc (f : Handover → Handover) (s : State) : (s.onHc f).hc = f s.hc := rfl
@[simp] theorem State.onHc_sh (f : Handover → Handover) (s : State) : (s.onHc f).sh = s.sh := rfl
@[simp] theorem State.onHc_ml (f : Handover → Handover) (s : State) : (s.onHc f).ml = s.ml := rfl
@[simp] theorem State.onHc_pending (f : Handover → Handover) (s : State) :
    (s.onHc f).pending = s.pending := rfl

/-! ### `State.onCt` -/

@[simp] theorem State.onCt_inReset (f : Cascades → Cascades) (s : State) : (s.onCt f).inReset = s.inReset := rfl
@[simp] theorem State.onCt_tb (f : Cascades → Cascades) (s : State) : (s.onCt f).tb = s.tb := rfl
@[simp] theorem State.onCt_rm (f : Cascades → Cascades) (s : State) : (s.onCt f).rm = s.rm := rfl
@[simp] theorem State.onCt_dl (f : Cascades → Cascades) (s : State) : (s.onCt f).dl = s.dl := rfl
@[simp] theorem State.onCt_sli (f : Cascades → Cascades) (s : State) : (s.onCt f).sli = s.sli := rfl
@[simp] theorem State.onCt_ubi (f : Cascades → Cascades) (s : State) : (s.onCt f).ubi = s.ubi := rfl
@[simp] theorem State.onCt_up (f : Cascades → Cascades) (s : State) : (s.onCt f).up = s.up := rfl
@[simp] theorem State.onCt_down (f : Cascades → Cascades) (s : State) : (s.onCt f).down = s.down := rfl
@[simp] theorem State.onCt_cm (f : Cascades → Cascades) (s : State) : (s.onCt f).cm = s.cm := rfl
@[simp] theorem State.onCt_eq (f : Cascades → Cascades) (s : State) : (s.onCt f).eq = s.eq := rfl
@[simp] theorem State.onCt_ra (f : Cascades → Cascades) (s : State) : (s.onCt f).ra = s.ra := rfl
@[simp] theorem State.onCt_ct (f : Cascades → Cascades) (s : State) : (s.onCt f).ct = f s.ct := rfl
@[simp] theorem State.onCt_tu (f : Cascades → Cascades) (s : State) : (s.onCt f).tu = s.tu := rfl
@[simp] theorem State.onCt_hc (f : Cascades → Cascades) (s : State) : (s.onCt f).hc = s.hc := rfl
@[simp] theorem State.onCt_sh (f : Cascades → Cascades) (s : State) : (s.onCt f).sh = s.sh := rfl
@[simp] theorem State.onCt_ml (f : Cascades → Cascades) (s : State) : (s.onCt f).ml = s.ml := rfl
@[simp] theorem State.onCt_pending (f : Cascades → Cascades) (s : State) :
    (s.onCt f).pending = s.pending := rfl

/-! ### `State.onDl` -/

@[simp] theorem State.onDl_inReset (f : Loop → Loop) (s : State) : (s.onDl f).inReset = s.inReset := rfl
@[simp] theorem State.onDl_tb (f : Loop → Loop) (s : State) : (s.onDl f).tb = s.tb := rfl
@[simp] theorem State.onDl_rm (f : Loop → Loop) (s : State) : (s.onDl f).rm = s.rm := rfl
@[simp] theorem State.onDl_dl (f : Loop → Loop) (s : State) : (s.onDl f).dl = f s.dl := rfl
@[simp] theorem State.onDl_sli (f : Loop → Loop) (s : State) : (s.onDl f).sli = s.sli := rfl
@[simp] theorem State.onDl_ubi (f : Loop → Loop) (s : State) : (s.onDl f).ubi = s.ubi := rfl
@[simp] theorem State.onDl_up (f : Loop → Loop) (s : State) : (s.onDl f).up = s.up := rfl
@[simp] theorem State.onDl_down (f : Loop → Loop) (s : State) : (s.onDl f).down = s.down := rfl
@[simp] theorem State.onDl_cm (f : Loop → Loop) (s : State) : (s.onDl f).cm = s.cm := rfl
@[simp] theorem State.onDl_eq (f : Loop → Loop) (s : State) : (s.onDl f).eq = s.eq := rfl
@[simp] theorem State.onDl_ra (f : Loop → Loop) (s : State) : (s.onDl f).ra = s.ra := rfl
@[simp] theorem State.onDl_ct (f : Loop → Loop) (s : State) : (s.onDl f).ct = s.ct := rfl
@[simp] theorem State.onDl_tu (f : Loop → Loop) (s : State) : (s.onDl f).tu = s.tu := rfl
@[simp] theorem State.onDl_hc (f : Loop → Loop) (s : State) : (s.onDl f).hc = s.hc := rfl
@[simp] theorem State.onDl_sh (f : Loop → Loop) (s : State) : (s.onDl f).sh = s.sh := rfl
@[simp] theorem State.onDl_ml (f : Loop → Loop) (s : State) : (s.onDl f).ml = s.ml := rfl
@[simp] theorem State.onDl_pending (f : Loop → Loop) (s : State) : (s.onDl f).pending = s.pending := rfl

/-! ### `State.onTb` -/

@[simp] theorem State.onTb_inReset (f : Timebase → Timebase) (s : State) : (s.onTb f).inReset = s.inReset := rfl
@[simp] theorem State.onTb_tb (f : Timebase → Timebase) (s : State) : (s.onTb f).tb = f s.tb := rfl
@[simp] theorem State.onTb_rm (f : Timebase → Timebase) (s : State) : (s.onTb f).rm = s.rm := rfl
@[simp] theorem State.onTb_dl (f : Timebase → Timebase) (s : State) : (s.onTb f).dl = s.dl := rfl
@[simp] theorem State.onTb_sli (f : Timebase → Timebase) (s : State) : (s.onTb f).sli = s.sli := rfl
@[simp] theorem State.onTb_ubi (f : Timebase → Timebase) (s : State) : (s.onTb f).ubi = s.ubi := rfl
@[simp] theorem State.onTb_up (f : Timebase → Timebase) (s : State) : (s.onTb f).up = s.up := rfl
@[simp] theorem State.onTb_down (f : Timebase → Timebase) (s : State) : (s.onTb f).down = s.down := rfl
@[simp] theorem State.onTb_cm (f : Timebase → Timebase) (s : State) : (s.onTb f).cm = s.cm := rfl
@[simp] theorem State.onTb_eq (f : Timebase → Timebase) (s : State) : (s.onTb f).eq = s.eq := rfl
@[simp] theorem State.onTb_ra (f : Timebase → Timebase) (s : State) : (s.onTb f).ra = s.ra := rfl
@[simp] theorem State.onTb_ct (f : Timebase → Timebase) (s : State) : (s.onTb f).ct = s.ct := rfl
@[simp] theorem State.onTb_tu (f : Timebase → Timebase) (s : State) : (s.onTb f).tu = s.tu := rfl
@[simp] theorem State.onTb_hc (f : Timebase → Timebase) (s : State) : (s.onTb f).hc = s.hc := rfl
@[simp] theorem State.onTb_sh (f : Timebase → Timebase) (s : State) : (s.onTb f).sh = s.sh := rfl
@[simp] theorem State.onTb_ml (f : Timebase → Timebase) (s : State) : (s.onTb f).ml = s.ml := rfl
@[simp] theorem State.onTb_pending (f : Timebase → Timebase) (s : State) :
    (s.onTb f).pending = s.pending := rfl

/-! ### `State.onSli` -/

@[simp] theorem State.onSli_inReset (f : StationLink → StationLink) (s : State) :
    (s.onSli f).inReset = s.inReset := rfl
@[simp] theorem State.onSli_tb (f : StationLink → StationLink) (s : State) : (s.onSli f).tb = s.tb := rfl
@[simp] theorem State.onSli_rm (f : StationLink → StationLink) (s : State) : (s.onSli f).rm = s.rm := rfl
@[simp] theorem State.onSli_dl (f : StationLink → StationLink) (s : State) : (s.onSli f).dl = s.dl := rfl
@[simp] theorem State.onSli_sli (f : StationLink → StationLink) (s : State) :
    (s.onSli f).sli = f s.sli := rfl
@[simp] theorem State.onSli_ubi (f : StationLink → StationLink) (s : State) :
    (s.onSli f).ubi = s.ubi := rfl
@[simp] theorem State.onSli_up (f : StationLink → StationLink) (s : State) : (s.onSli f).up = s.up := rfl
@[simp] theorem State.onSli_down (f : StationLink → StationLink) (s : State) :
    (s.onSli f).down = s.down := rfl
@[simp] theorem State.onSli_cm (f : StationLink → StationLink) (s : State) : (s.onSli f).cm = s.cm := rfl
@[simp] theorem State.onSli_eq (f : StationLink → StationLink) (s : State) : (s.onSli f).eq = s.eq := rfl
@[simp] theorem State.onSli_ra (f : StationLink → StationLink) (s : State) : (s.onSli f).ra = s.ra := rfl
@[simp] theorem State.onSli_ct (f : StationLink → StationLink) (s : State) : (s.onSli f).ct = s.ct := rfl
@[simp] theorem State.onSli_tu (f : StationLink → StationLink) (s : State) : (s.onSli f).tu = s.tu := rfl
@[simp] theorem State.onSli_hc (f : StationLink → StationLink) (s : State) : (s.onSli f).hc = s.hc := rfl
@[simp] theorem State.onSli_sh (f : StationLink → StationLink) (s : State) : (s.onSli f).sh = s.sh := rfl
@[simp] theorem State.onSli_ml (f : StationLink → StationLink) (s : State) : (s.onSli f).ml = s.ml := rfl
@[simp] theorem State.onSli_pending (f : StationLink → StationLink) (s : State) :
    (s.onSli f).pending = s.pending := rfl

/-! ### `State.onMl` -/

@[simp] theorem State.onMl_inReset (f : MgmtLink → MgmtLink) (s : State) : (s.onMl f).inReset = s.inReset := rfl
@[simp] theorem State.onMl_tb (f : MgmtLink → MgmtLink) (s : State) : (s.onMl f).tb = s.tb := rfl
@[simp] theorem State.onMl_rm (f : MgmtLink → MgmtLink) (s : State) : (s.onMl f).rm = s.rm := rfl
@[simp] theorem State.onMl_dl (f : MgmtLink → MgmtLink) (s : State) : (s.onMl f).dl = s.dl := rfl
@[simp] theorem State.onMl_sli (f : MgmtLink → MgmtLink) (s : State) : (s.onMl f).sli = s.sli := rfl
@[simp] theorem State.onMl_ubi (f : MgmtLink → MgmtLink) (s : State) : (s.onMl f).ubi = s.ubi := rfl
@[simp] theorem State.onMl_up (f : MgmtLink → MgmtLink) (s : State) : (s.onMl f).up = s.up := rfl
@[simp] theorem State.onMl_down (f : MgmtLink → MgmtLink) (s : State) : (s.onMl f).down = s.down := rfl
@[simp] theorem State.onMl_cm (f : MgmtLink → MgmtLink) (s : State) : (s.onMl f).cm = s.cm := rfl
@[simp] theorem State.onMl_eq (f : MgmtLink → MgmtLink) (s : State) : (s.onMl f).eq = s.eq := rfl
@[simp] theorem State.onMl_ra (f : MgmtLink → MgmtLink) (s : State) : (s.onMl f).ra = s.ra := rfl
@[simp] theorem State.onMl_ct (f : MgmtLink → MgmtLink) (s : State) : (s.onMl f).ct = s.ct := rfl
@[simp] theorem State.onMl_tu (f : MgmtLink → MgmtLink) (s : State) : (s.onMl f).tu = s.tu := rfl
@[simp] theorem State.onMl_hc (f : MgmtLink → MgmtLink) (s : State) : (s.onMl f).hc = s.hc := rfl
@[simp] theorem State.onMl_sh (f : MgmtLink → MgmtLink) (s : State) : (s.onMl f).sh = s.sh := rfl
@[simp] theorem State.onMl_ml (f : MgmtLink → MgmtLink) (s : State) : (s.onMl f).ml = f s.ml := rfl
@[simp] theorem State.onMl_pending (f : MgmtLink → MgmtLink) (s : State) :
    (s.onMl f).pending = s.pending := rfl

/-! ### `State.onRa` -/

@[simp] theorem State.onRa_inReset (f : Arbiter → Arbiter) (s : State) : (s.onRa f).inReset = s.inReset := rfl
@[simp] theorem State.onRa_tb (f : Arbiter → Arbiter) (s : State) : (s.onRa f).tb = s.tb := rfl
@[simp] theorem State.onRa_rm (f : Arbiter → Arbiter) (s : State) : (s.onRa f).rm = s.rm := rfl
@[simp] theorem State.onRa_dl (f : Arbiter → Arbiter) (s : State) : (s.onRa f).dl = s.dl := rfl
@[simp] theorem State.onRa_sli (f : Arbiter → Arbiter) (s : State) : (s.onRa f).sli = s.sli := rfl
@[simp] theorem State.onRa_ubi (f : Arbiter → Arbiter) (s : State) : (s.onRa f).ubi = s.ubi := rfl
@[simp] theorem State.onRa_up (f : Arbiter → Arbiter) (s : State) : (s.onRa f).up = s.up := rfl
@[simp] theorem State.onRa_down (f : Arbiter → Arbiter) (s : State) : (s.onRa f).down = s.down := rfl
@[simp] theorem State.onRa_cm (f : Arbiter → Arbiter) (s : State) : (s.onRa f).cm = s.cm := rfl
@[simp] theorem State.onRa_eq (f : Arbiter → Arbiter) (s : State) : (s.onRa f).eq = s.eq := rfl
@[simp] theorem State.onRa_ra (f : Arbiter → Arbiter) (s : State) : (s.onRa f).ra = f s.ra := rfl
@[simp] theorem State.onRa_ct (f : Arbiter → Arbiter) (s : State) : (s.onRa f).ct = s.ct := rfl
@[simp] theorem State.onRa_tu (f : Arbiter → Arbiter) (s : State) : (s.onRa f).tu = s.tu := rfl
@[simp] theorem State.onRa_hc (f : Arbiter → Arbiter) (s : State) : (s.onRa f).hc = s.hc := rfl
@[simp] theorem State.onRa_sh (f : Arbiter → Arbiter) (s : State) : (s.onRa f).sh = s.sh := rfl
@[simp] theorem State.onRa_ml (f : Arbiter → Arbiter) (s : State) : (s.onRa f).ml = s.ml := rfl
@[simp] theorem State.onRa_pending (f : Arbiter → Arbiter) (s : State) :
    (s.onRa f).pending = s.pending := rfl

/-! ### `State.onUbi` -/

@[simp] theorem State.onUbi_inReset (f : UnitBus → UnitBus) (s : State) : (s.onUbi f).inReset = s.inReset := rfl
@[simp] theorem State.onUbi_tb (f : UnitBus → UnitBus) (s : State) : (s.onUbi f).tb = s.tb := rfl
@[simp] theorem State.onUbi_rm (f : UnitBus → UnitBus) (s : State) : (s.onUbi f).rm = s.rm := rfl
@[simp] theorem State.onUbi_dl (f : UnitBus → UnitBus) (s : State) : (s.onUbi f).dl = s.dl := rfl
@[simp] theorem State.onUbi_sli (f : UnitBus → UnitBus) (s : State) : (s.onUbi f).sli = s.sli := rfl
@[simp] theorem State.onUbi_ubi (f : UnitBus → UnitBus) (s : State) : (s.onUbi f).ubi = f s.ubi := rfl
@[simp] theorem State.onUbi_up (f : UnitBus → UnitBus) (s : State) : (s.onUbi f).up = s.up := rfl
@[simp] theorem State.onUbi_down (f : UnitBus → UnitBus) (s : State) : (s.onUbi f).down = s.down := rfl
@[simp] theorem State.onUbi_cm (f : UnitBus → UnitBus) (s : State) : (s.onUbi f).cm = s.cm := rfl
@[simp] theorem State.onUbi_eq (f : UnitBus → UnitBus) (s : State) : (s.onUbi f).eq = s.eq := rfl
@[simp] theorem State.onUbi_ra (f : UnitBus → UnitBus) (s : State) : (s.onUbi f).ra = s.ra := rfl
@[simp] theorem State.onUbi_ct (f : UnitBus → UnitBus) (s : State) : (s.onUbi f).ct = s.ct := rfl
@[simp] theorem State.onUbi_tu (f : UnitBus → UnitBus) (s : State) : (s.onUbi f).tu = s.tu := rfl
@[simp] theorem State.onUbi_hc (f : UnitBus → UnitBus) (s : State) : (s.onUbi f).hc = s.hc := rfl
@[simp] theorem State.onUbi_sh (f : UnitBus → UnitBus) (s : State) : (s.onUbi f).sh = s.sh := rfl
@[simp] theorem State.onUbi_ml (f : UnitBus → UnitBus) (s : State) : (s.onUbi f).ml = s.ml := rfl
@[simp] theorem State.onUbi_pending (f : UnitBus → UnitBus) (s : State) :
    (s.onUbi f).pending = s.pending := rfl

/-! ### `State.onRef` -/

@[simp] theorem State.onRef_inReset (r : Ref) (f : RefState → RefState) (s : State) :
    (s.onRef r f).inReset = s.inReset := rfl
@[simp] theorem State.onRef_tb (r : Ref) (f : RefState → RefState) (s : State) :
    (s.onRef r f).tb = s.tb := rfl
@[simp] theorem State.onRef_rm (r : Ref) (f : RefState → RefState) (s : State) :
    (s.onRef r f).rm = s.rm.put r (f (s.rm.get r)) := rfl
@[simp] theorem State.onRef_dl (r : Ref) (f : RefState → RefState) (s : State) :
    (s.onRef r f).dl = s.dl := rfl
@[simp] theorem State.onRef_sli (r : Ref) (f : RefState → RefState) (s : State) :
    (s.onRef r f).sli = s.sli := rfl
@[simp] theorem State.onRef_ubi (r : Ref) (f : RefState → RefState) (s : State) :
    (s.onRef r f).ubi = s.ubi := rfl
@[simp] theorem State.onRef_up (r : Ref) (f : RefState → RefState) (s : State) :
    (s.onRef r f).up = s.up := rfl
@[simp] theorem State.onRef_down (r : Ref) (f : RefState → RefState) (s : State) :
    (s.onRef r f).down = s.down := rfl
@[simp] theorem State.onRef_cm (r : Ref) (f : RefState → RefState) (s : State) :
    (s.onRef r f).cm = s.cm := rfl
@[simp] theorem State.onRef_eq (r : Ref) (f : RefState → RefState) (s : State) :
    (s.onRef r f).eq = s.eq := rfl
@[simp] theorem State.onRef_ra (r : Ref) (f : RefState → RefState) (s : State) :
    (s.onRef r f).ra = s.ra := rfl
@[simp] theorem State.onRef_ct (r : Ref) (f : RefState → RefState) (s : State) :
    (s.onRef r f).ct = s.ct := rfl
@[simp] theorem State.onRef_tu (r : Ref) (f : RefState → RefState) (s : State) :
    (s.onRef r f).tu = s.tu := rfl
@[simp] theorem State.onRef_hc (r : Ref) (f : RefState → RefState) (s : State) :
    (s.onRef r f).hc = s.hc := rfl
@[simp] theorem State.onRef_sh (r : Ref) (f : RefState → RefState) (s : State) :
    (s.onRef r f).sh = s.sh := rfl
@[simp] theorem State.onRef_ml (r : Ref) (f : RefState → RefState) (s : State) :
    (s.onRef r f).ml = s.ml := rfl
@[simp] theorem State.onRef_pending (r : Ref) (f : RefState → RefState) (s : State) :
    (s.onRef r f).pending = s.pending := rfl

/-! ### `State.onChannel` -/

@[simp] theorem State.onChannel_inReset (ch : Chan) (f : Channel → Channel) (s : State) :
    (s.onChannel ch f).inReset = s.inReset := rfl
@[simp] theorem State.onChannel_tb (ch : Chan) (f : Channel → Channel) (s : State) :
    (s.onChannel ch f).tb = s.tb := rfl
@[simp] theorem State.onChannel_rm (ch : Chan) (f : Channel → Channel) (s : State) :
    (s.onChannel ch f).rm = s.rm := rfl
@[simp] theorem State.onChannel_dl (ch : Chan) (f : Channel → Channel) (s : State) :
    (s.onChannel ch f).dl = s.dl := rfl
@[simp] theorem State.onChannel_sli (ch : Chan) (f : Channel → Channel) (s : State) :
    (s.onChannel ch f).sli = s.sli := rfl
@[simp] theorem State.onChannel_ubi (ch : Chan) (f : Channel → Channel) (s : State) :
    (s.onChannel ch f).ubi = s.ubi := rfl
@[simp] theorem State.onChannel_up (ch : Chan) (f : Channel → Channel) (s : State) :
    (s.onChannel ch f).up = s.up := rfl
@[simp] theorem State.onChannel_down (ch : Chan) (f : Channel → Channel) (s : State) :
    (s.onChannel ch f).down = s.down := rfl
@[simp] theorem State.onChannel_cm (ch : Chan) (f : Channel → Channel) (s : State) :
    (s.onChannel ch f).cm = modifyAt s.cm ch f := rfl
@[simp] theorem State.onChannel_eq (ch : Chan) (f : Channel → Channel) (s : State) :
    (s.onChannel ch f).eq = s.eq := rfl
@[simp] theorem State.onChannel_ra (ch : Chan) (f : Channel → Channel) (s : State) :
    (s.onChannel ch f).ra = s.ra := rfl
@[simp] theorem State.onChannel_ct (ch : Chan) (f : Channel → Channel) (s : State) :
    (s.onChannel ch f).ct = s.ct := rfl
@[simp] theorem State.onChannel_tu (ch : Chan) (f : Channel → Channel) (s : State) :
    (s.onChannel ch f).tu = s.tu := rfl
@[simp] theorem State.onChannel_hc (ch : Chan) (f : Channel → Channel) (s : State) :
    (s.onChannel ch f).hc = s.hc := rfl
@[simp] theorem State.onChannel_sh (ch : Chan) (f : Channel → Channel) (s : State) :
    (s.onChannel ch f).sh = s.sh := rfl
@[simp] theorem State.onChannel_ml (ch : Chan) (f : Channel → Channel) (s : State) :
    (s.onChannel ch f).ml = s.ml := rfl
@[simp] theorem State.onChannel_pending (ch : Chan) (f : Channel → Channel) (s : State) :
    (s.onChannel ch f).pending = s.pending := rfl

/-! ### `State.onUnit` -/

@[simp] theorem State.onUnit_inReset (u : UnitNo) (f : GenUnit → GenUnit) (s : State) :
    (s.onUnit u f).inReset = s.inReset := rfl
@[simp] theorem State.onUnit_tb (u : UnitNo) (f : GenUnit → GenUnit) (s : State) :
    (s.onUnit u f).tb = s.tb := rfl
@[simp] theorem State.onUnit_rm (u : UnitNo) (f : GenUnit → GenUnit) (s : State) :
    (s.onUnit u f).rm = s.rm := rfl
@[simp] theorem State.onUnit_dl (u : UnitNo) (f : GenUnit → GenUnit) (s : State) :
    (s.onUnit u f).dl = s.dl := rfl
@[simp] theorem State.onUnit_sli (u : UnitNo) (f : GenUnit → GenUnit) (s : State) :
    (s.onUnit u f).sli = s.sli := rfl
@[simp] theorem State.onUnit_ubi (u : UnitNo) (f : GenUnit → GenUnit) (s : State) :
    (s.onUnit u f).ubi = s.ubi := rfl
@[simp] theorem State.onUnit_up (u : UnitNo) (f : GenUnit → GenUnit) (s : State) :
    (s.onUnit u f).up = s.up := rfl
@[simp] theorem State.onUnit_down (u : UnitNo) (f : GenUnit → GenUnit) (s : State) :
    (s.onUnit u f).down = s.down := rfl
@[simp] theorem State.onUnit_cm (u : UnitNo) (f : GenUnit → GenUnit) (s : State) :
    (s.onUnit u f).cm = s.cm := rfl
@[simp] theorem State.onUnit_eq (u : UnitNo) (f : GenUnit → GenUnit) (s : State) :
    (s.onUnit u f).eq = s.eq := rfl
@[simp] theorem State.onUnit_ra (u : UnitNo) (f : GenUnit → GenUnit) (s : State) :
    (s.onUnit u f).ra = s.ra := rfl
@[simp] theorem State.onUnit_ct (u : UnitNo) (f : GenUnit → GenUnit) (s : State) :
    (s.onUnit u f).ct = s.ct := rfl
@[simp] theorem State.onUnit_tu (u : UnitNo) (f : GenUnit → GenUnit) (s : State) :
    (s.onUnit u f).tu = modifyAt s.tu u f := rfl
@[simp] theorem State.onUnit_hc (u : UnitNo) (f : GenUnit → GenUnit) (s : State) :
    (s.onUnit u f).hc = s.hc := rfl
@[simp] theorem State.onUnit_sh (u : UnitNo) (f : GenUnit → GenUnit) (s : State) :
    (s.onUnit u f).sh = s.sh := rfl
@[simp] theorem State.onUnit_ml (u : UnitNo) (f : GenUnit → GenUnit) (s : State) :
    (s.onUnit u f).ml = s.ml := rfl
@[simp] theorem State.onUnit_pending (u : UnitNo) (f : GenUnit → GenUnit) (s : State) :
    (s.onUnit u f).pending = s.pending := rfl

/-! ### `State.onParams` -/

@[simp] theorem State.onParams_inReset (f : Params → Params) (s : State) :
    (s.onParams f).inReset = s.inReset := rfl
@[simp] theorem State.onParams_tb (f : Params → Params) (s : State) : (s.onParams f).tb = s.tb := rfl
@[simp] theorem State.onParams_rm (f : Params → Params) (s : State) : (s.onParams f).rm = s.rm := rfl
@[simp] theorem State.onParams_dl (f : Params → Params) (s : State) : (s.onParams f).dl = s.dl := rfl
@[simp] theorem State.onParams_sli (f : Params → Params) (s : State) : (s.onParams f).sli = s.sli := rfl
@[simp] theorem State.onParams_ubi (f : Params → Params) (s : State) : (s.onParams f).ubi = s.ubi := rfl
@[simp] theorem State.onParams_up (f : Params → Params) (s : State) : (s.onParams f).up = s.up := rfl
@[simp] theorem State.onParams_down (f : Params → Params) (s : State) :
    (s.onParams f).down = s.down := rfl
@[simp] theorem State.onParams_cm (f : Params → Params) (s : State) : (s.onParams f).cm = s.cm := rfl
@[simp] theorem State.onParams_eq (f : Params → Params) (s : State) : (s.onParams f).eq = s.eq := rfl
@[simp] theorem State.onParams_ra (f : Params → Params) (s : State) : (s.onParams f).ra = s.ra := rfl
@[simp] theorem State.onParams_ct (f : Params → Params) (s : State) : (s.onParams f).ct = s.ct := rfl
@[simp] theorem State.onParams_tu (f : Params → Params) (s : State) : (s.onParams f).tu = s.tu := rfl
@[simp] theorem State.onParams_hc (f : Params → Params) (s : State) : (s.onParams f).hc = s.hc := rfl
@[simp] theorem State.onParams_sh (f : Params → Params) (s : State) : (s.onParams f).sh = s.sh := rfl
@[simp] theorem State.onParams_ml (f : Params → Params) (s : State) :
    (s.onParams f).ml = { s.ml with params := f s.ml.params } := rfl
@[simp] theorem State.onParams_pending (f : Params → Params) (s : State) :
    (s.onParams f).pending = s.pending := rfl

/-! ### `State.countCurrent` -/

@[simp] theorem State.countCurrent_inReset (f : Header → Header) (s : State) :
    (s.countCurrent f).inReset = s.inReset := rfl
@[simp] theorem State.countCurrent_tb (f : Header → Header) (s : State) :
    (s.countCurrent f).tb = s.tb := rfl
@[simp] theorem State.countCurrent_rm (f : Header → Header) (s : State) :
    (s.countCurrent f).rm = s.rm := rfl
@[simp] theorem State.countCurrent_dl (f : Header → Header) (s : State) :
    (s.countCurrent f).dl = s.dl := rfl
@[simp] theorem State.countCurrent_sli (f : Header → Header) (s : State) :
    (s.countCurrent f).sli = s.sli := rfl
@[simp] theorem State.countCurrent_ubi (f : Header → Header) (s : State) :
    (s.countCurrent f).ubi = s.ubi := rfl
@[simp] theorem State.countCurrent_up (f : Header → Header) (s : State) :
    (s.countCurrent f).up = s.up := rfl
@[simp] theorem State.countCurrent_down (f : Header → Header) (s : State) :
    (s.countCurrent f).down = s.down := rfl
@[simp] theorem State.countCurrent_cm (f : Header → Header) (s : State) :
    (s.countCurrent f).cm = s.cm := rfl
@[simp] theorem State.countCurrent_eq (f : Header → Header) (s : State) :
    (s.countCurrent f).eq = s.eq := rfl
@[simp] theorem State.countCurrent_ra (f : Header → Header) (s : State) :
    (s.countCurrent f).ra = s.ra := rfl
@[simp] theorem State.countCurrent_ct (f : Header → Header) (s : State) :
    (s.countCurrent f).ct = s.ct := rfl
@[simp] theorem State.countCurrent_tu (f : Header → Header) (s : State) :
    (s.countCurrent f).tu = s.tu := rfl
@[simp] theorem State.countCurrent_hc (f : Header → Header) (s : State) :
    (s.countCurrent f).hc = s.hc := rfl
@[simp] theorem State.countCurrent_sh (f : Header → Header) (s : State) :
    (s.countCurrent f).sh = { s.sh with current := s.sh.current.map f } := rfl
@[simp] theorem State.countCurrent_ml (f : Header → Header) (s : State) :
    (s.countCurrent f).ml = s.ml := rfl
@[simp] theorem State.countCurrent_pending (f : Header → Header) (s : State) :
    (s.countCurrent f).pending = s.pending := rfl

/-! ### `State.withPending` -/

@[simp] theorem State.withPending_inReset (q : List Instr) (s : State) :
    (s.withPending q).inReset = s.inReset := rfl
@[simp] theorem State.withPending_tb (q : List Instr) (s : State) : (s.withPending q).tb = s.tb := rfl
@[simp] theorem State.withPending_rm (q : List Instr) (s : State) : (s.withPending q).rm = s.rm := rfl
@[simp] theorem State.withPending_dl (q : List Instr) (s : State) : (s.withPending q).dl = s.dl := rfl
@[simp] theorem State.withPending_sli (q : List Instr) (s : State) : (s.withPending q).sli = s.sli := rfl
@[simp] theorem State.withPending_ubi (q : List Instr) (s : State) : (s.withPending q).ubi = s.ubi := rfl
@[simp] theorem State.withPending_up (q : List Instr) (s : State) : (s.withPending q).up = s.up := rfl
@[simp] theorem State.withPending_down (q : List Instr) (s : State) :
    (s.withPending q).down = s.down := rfl
@[simp] theorem State.withPending_cm (q : List Instr) (s : State) : (s.withPending q).cm = s.cm := rfl
@[simp] theorem State.withPending_eq (q : List Instr) (s : State) : (s.withPending q).eq = s.eq := rfl
@[simp] theorem State.withPending_ra (q : List Instr) (s : State) : (s.withPending q).ra = s.ra := rfl
@[simp] theorem State.withPending_ct (q : List Instr) (s : State) : (s.withPending q).ct = s.ct := rfl
@[simp] theorem State.withPending_tu (q : List Instr) (s : State) : (s.withPending q).tu = s.tu := rfl
@[simp] theorem State.withPending_hc (q : List Instr) (s : State) : (s.withPending q).hc = s.hc := rfl
@[simp] theorem State.withPending_sh (q : List Instr) (s : State) : (s.withPending q).sh = s.sh := rfl
@[simp] theorem State.withPending_ml (q : List Instr) (s : State) : (s.withPending q).ml = s.ml := rfl
@[simp] theorem State.withPending_pending (q : List Instr) (s : State) :
    (s.withPending q).pending = q := rfl

/-! ### `State.writeTrim` -/

@[simp] theorem State.writeTrim_inReset (t : Int) (s : State) : (s.writeTrim t).inReset = s.inReset := rfl
@[simp] theorem State.writeTrim_tb (t : Int) (s : State) :
    (s.writeTrim t).tb = { s.tb with pendingTrim := t } := rfl
@[simp] theorem State.writeTrim_rm (t : Int) (s : State) : (s.writeTrim t).rm = s.rm := rfl
@[simp] theorem State.writeTrim_dl (t : Int) (s : State) : (s.writeTrim t).dl = s.dl := rfl
@[simp] theorem State.writeTrim_sli (t : Int) (s : State) : (s.writeTrim t).sli = s.sli := rfl
@[simp] theorem State.writeTrim_ubi (t : Int) (s : State) : (s.writeTrim t).ubi = s.ubi := rfl
@[simp] theorem State.writeTrim_up (t : Int) (s : State) : (s.writeTrim t).up = s.up := rfl
@[simp] theorem State.writeTrim_down (t : Int) (s : State) : (s.writeTrim t).down = s.down := rfl
@[simp] theorem State.writeTrim_cm (t : Int) (s : State) : (s.writeTrim t).cm = s.cm := rfl
@[simp] theorem State.writeTrim_eq (t : Int) (s : State) : (s.writeTrim t).eq = s.eq := rfl
@[simp] theorem State.writeTrim_ra (t : Int) (s : State) : (s.writeTrim t).ra = s.ra := rfl
@[simp] theorem State.writeTrim_ct (t : Int) (s : State) : (s.writeTrim t).ct = s.ct := rfl
@[simp] theorem State.writeTrim_tu (t : Int) (s : State) : (s.writeTrim t).tu = s.tu := rfl
@[simp] theorem State.writeTrim_hc (t : Int) (s : State) : (s.writeTrim t).hc = s.hc := rfl
@[simp] theorem State.writeTrim_sh (t : Int) (s : State) : (s.writeTrim t).sh = s.sh := rfl
@[simp] theorem State.writeTrim_ml (t : Int) (s : State) : (s.writeTrim t).ml = s.ml := rfl
@[simp] theorem State.writeTrim_pending (t : Int) (s : State) :
    (s.writeTrim t).pending = s.pending := rfl

/-! ### `State.setU` -/

@[simp] theorem State.setU_inReset (u : Nat) (s : State) : (s.setU u).inReset = s.inReset := rfl
@[simp] theorem State.setU_tb (u : Nat) (s : State) :
    (s.setU u).tb = { s.tb with u := min u uTop } := rfl
@[simp] theorem State.setU_rm (u : Nat) (s : State) : (s.setU u).rm = s.rm := rfl
@[simp] theorem State.setU_dl (u : Nat) (s : State) : (s.setU u).dl = s.dl := rfl
@[simp] theorem State.setU_sli (u : Nat) (s : State) : (s.setU u).sli = s.sli := rfl
@[simp] theorem State.setU_ubi (u : Nat) (s : State) : (s.setU u).ubi = s.ubi := rfl
@[simp] theorem State.setU_up (u : Nat) (s : State) : (s.setU u).up = s.up := rfl
@[simp] theorem State.setU_down (u : Nat) (s : State) : (s.setU u).down = s.down := rfl
@[simp] theorem State.setU_cm (u : Nat) (s : State) : (s.setU u).cm = s.cm := rfl
@[simp] theorem State.setU_eq (u : Nat) (s : State) : (s.setU u).eq = s.eq := rfl
@[simp] theorem State.setU_ra (u : Nat) (s : State) : (s.setU u).ra = s.ra := rfl
@[simp] theorem State.setU_ct (u : Nat) (s : State) : (s.setU u).ct = s.ct := rfl
@[simp] theorem State.setU_tu (u : Nat) (s : State) : (s.setU u).tu = s.tu := rfl
@[simp] theorem State.setU_hc (u : Nat) (s : State) : (s.setU u).hc = s.hc := rfl
@[simp] theorem State.setU_sh (u : Nat) (s : State) : (s.setU u).sh = s.sh := rfl
@[simp] theorem State.setU_ml (u : Nat) (s : State) : (s.setU u).ml = s.ml := rfl
@[simp] theorem State.setU_pending (u : Nat) (s : State) : (s.setU u).pending = s.pending := rfl

/-! ### Positions of a vector -/

@[simp] theorem modifyAt_self {α : Type} {n : Nat} (v : Vector α n) (i : Fin n) (f : α → α) :
    (modifyAt v i f)[i] = f v[i] := by simp [modifyAt]

theorem modifyAt_other {α : Type} {n : Nat} (v : Vector α n) (i j : Fin n) (f : α → α) (h : i ≠ j) :
    (modifyAt v i f)[j] = v[j] := by
  have : i.val ≠ j.val := fun e => h (Fin.ext e)
  simp [modifyAt, this]

/-! ### The references -/

@[simp] theorem RefMonitor.get_put (m : RefMonitor) (r : Ref) (x : RefState) : (m.put r x).get r = x := by
  cases r <;> rfl

@[simp] theorem RefMonitor.get_put_other (m : RefMonitor) (r : Ref) (x : RefState) :
    (m.put r x).get (otherRef r) = m.get (otherRef r) := by
  cases r <;> rfl

end Sys2Proof.Machine
end

