-- ==== Sys2Proof/Laws/Footprint.lean ====
section
/-! SUPPORT. The footprint of each shared operation: which blocks of the state it can change. One lemma per
operation, so that a frame is read off and the operation is not unfolded again. -/

namespace Sys2Proof.Machine

variable {l k : List Block} {s t u : State}

theorem Within.refl (l : List Block) (s : State) : Within l s s := ⟨fun b _ => by cases b <;> rfl⟩

theorem Within.trans (h : Within l s t) (g : Within l t u) : Within l s u := ⟨fun b hb => by
  have h := h.out b hb
  have g := g.out b hb
  cases b <;> exact Eq.trans g h⟩

theorem Within.mono (h : Within l s t) (hs : l ⊆ k) : Within k s t :=
  ⟨fun b hb => h.out b fun hm => hb (hs hm)⟩

/-- Two changes in a row stay within the blocks of both. -/
theorem Within.and (h : Within l s t) (g : Within k t u) : Within (l ++ k) s u :=
  (h.mono (by simp)).trans (g.mono (by simp))

/-- A choice stays within the blocks of both branches. -/
theorem Within.ite {p : Prop} [Decidable p] (h : Within l s t) (g : Within l s u) :
    Within l s (if p then t else u) := by
  split <;> assumption

/-! ### The plain updates -/

theorem onHc_within (f) (s : State) : Within [.hc] s (s.onHc f) :=
  ⟨fun b h => by cases b <;> first | exact absurd (by decide) h | rfl⟩
theorem onCt_within (f) (s : State) : Within [.ct] s (s.onCt f) :=
  ⟨fun b h => by cases b <;> first | exact absurd (by decide) h | rfl⟩
theorem onDl_within (f) (s : State) : Within [.dl] s (s.onDl f) :=
  ⟨fun b h => by cases b <;> first | exact absurd (by decide) h | rfl⟩
theorem onTb_within (f) (s : State) : Within [.tb] s (s.onTb f) :=
  ⟨fun b h => by cases b <;> first | exact absurd (by decide) h | rfl⟩
theorem onSli_within (f) (s : State) : Within [.sli] s (s.onSli f) :=
  ⟨fun b h => by cases b <;> first | exact absurd (by decide) h | rfl⟩
theorem onMl_within (f) (s : State) : Within [.ml] s (s.onMl f) :=
  ⟨fun b h => by cases b <;> first | exact absurd (by decide) h | rfl⟩
theorem onRa_within (f) (s : State) : Within [.ra] s (s.onRa f) :=
  ⟨fun b h => by cases b <;> first | exact absurd (by decide) h | rfl⟩
theorem onUbi_within (f) (s : State) : Within [.ubi] s (s.onUbi f) :=
  ⟨fun b h => by cases b <;> first | exact absurd (by decide) h | rfl⟩
theorem onRef_within (r f) (s : State) : Within [.rm] s (s.onRef r f) :=
  ⟨fun b h => by cases b <;> first | exact absurd (by decide) h | rfl⟩
theorem onChannel_within (ch f) (s : State) : Within [.cm] s (s.onChannel ch f) :=
  ⟨fun b h => by cases b <;> first | exact absurd (by decide) h | rfl⟩
theorem onUnit_within (n f) (s : State) : Within [.tu] s (s.onUnit n f) :=
  ⟨fun b h => by cases b <;> first | exact absurd (by decide) h | rfl⟩
theorem onParams_within (f) (s : State) : Within [.ml] s (s.onParams f) :=
  ⟨fun b h => by cases b <;> first | exact absurd (by decide) h | rfl⟩
theorem writeTrim_within (x) (s : State) : Within [.tb] s (s.writeTrim x) :=
  ⟨fun b h => by cases b <;> first | exact absurd (by decide) h | rfl⟩
theorem countCurrent_within (f) (s : State) : Within [.sh] s (s.countCurrent f) :=
  ⟨fun b h => by cases b <;> first | exact absurd (by decide) h | rfl⟩

/-! ### Event records -/

/-- An admission changes the queue and the counts of the current header. -/
theorem enqueue_within (r) (s : State) : Within [.eq, .sh] s (s.enqueue r) :=
  ⟨fun b h => by cases b <;> first | exact absurd (by decide) h | rfl⟩

theorem lose_within (c n) (s : State) : Within [.eq, .sh] s (s.lose c n) :=
  ⟨fun b h => by cases b <;> first | exact absurd (by decide) h | rfl⟩

/-- A non-channel record is admitted when its class is taken at this fill, and otherwise lost (R92, R94). -/
theorem offer_cases (r) (s : State) :
    (s.eq.takes r.cls = true ∧ s.offer r = s.enqueue r) ∨ (s.eq.takes r.cls = false ∧ s.offer r = s.lose r.cls 1) := by
  unfold State.offer; cases s.eq.takes r.cls <;> simp

theorem offer_within (r) (s : State) : Within [.eq, .sh] s (s.offer r) := by
  rcases offer_cases r s with ⟨-, h⟩ | ⟨-, h⟩ <;> rw [h]
  · exact enqueue_within ..
  · exact lose_within ..

theorem takeClass_within (s : State) : Within [.tb, .sh] s s.takeClass := by
  unfold State.takeClass
  exact .ite (.refl ..) ⟨fun b h => by cases b <;> first | exact absurd (by decide) h | rfl⟩

theorem reportClass_within (old) (s : State) : Within [.eq, .sh] s (s.reportClass old) := by
  unfold State.reportClass
  exact .ite (.refl ..) (offer_within ..)

/-! ### The Tally Unit -/

theorem failAttempt_within (n r o m st) (s : State) : Within [.tu, .eq, .sh] s (s.failAttempt n r o m st) := by
  unfold State.failAttempt
  split
  · exact .refl ..
  · exact (onUnit_within ..).and (offer_within ..)

theorem settleAttempt_within (n o m st v) (s : State) :
    Within [.tu, .eq, .sh] s (s.settleAttempt n o m st v) := by
  unfold State.settleAttempt
  split
  · refine .ite ((onUnit_within ..).mono (by decide)) (.ite (failAttempt_within ..) (.ite (failAttempt_within ..) (.refl ..)))
  · refine .ite ?_ (.refl ..)
    exact .ite (((onUnit_within ..).and (onUnit_within ..)).mono (by decide)) ((onUnit_within ..).mono (by decide))

theorem sourceChange_within (n st v) (s : State) : Within [.tu, .eq, .sh] s (s.sourceChange n st v) := by
  unfold State.sourceChange
  exact .ite (.refl ..) (((onUnit_within ..).and (settleAttempt_within ..)).mono (by decide))

theorem eventChange_within (n m) (s : State) : Within [.tu, .eq, .sh] s (s.eventChange n m) := by
  unfold State.eventChange
  exact .ite (.refl ..) (((onUnit_within ..).and (failAttempt_within ..)).mono (by decide))

theorem rederive_within (n) (s : State) : Within [.tu, .eq, .sh] s (s.rederive n) := eventChange_within ..

theorem cascadeOpened_within (n) (s : State) : Within [.tu, .eq, .sh] s (s.cascadeOpened n) :=
  failAttempt_within ..

theorem startTimeout_within (n) (s : State) : Within [.tu, .eq, .sh] s (s.startTimeout n) := by
  unfold State.startTimeout
  split
  · exact .refl ..
  · exact .ite (failAttempt_within ..) (.refl ..)

/-! ### The Shift History -/

theorem openingCut_within (st) (s : State) : Within [.sh, .tu] s (s.openingCut st) :=
  ⟨fun b h => by cases b <;> first | exact absurd (by decide) h | rfl⟩

theorem noteCut_within (k st) (s : State) : Within [.sh, .tu] s (s.noteCut k st) :=
  ⟨fun b h => by cases b <;> first | exact absurd (by decide) h | rfl⟩

theorem attributeCascade_within (g c st f) (s : State) : Within [.sh] s (s.attributeCascade g c st f) := by
  unfold State.attributeCascade
  split
  · exact .ite ⟨fun b h => by cases b <;> first | exact absurd (by decide) h | rfl⟩ (countCurrent_within ..)
  · exact countCurrent_within ..

theorem closeShift_within (s : State) : Within [.eq, .sh, .tu] s s.closeShift := by
  unfold State.closeShift
  split
  · refine ⟨fun b h => ?_⟩
    cases b
    case eq => exact absurd (by decide) h
    case sh => exact absurd (by decide) h
    case tu => exact absurd (by decide) h
    case inReset => exact (offer_within _ _).out .inReset (by decide)
    case tb => exact (offer_within _ _).out .tb (by decide)
    case rm => exact (offer_within _ _).out .rm (by decide)
    case dl => exact (offer_within _ _).out .dl (by decide)
    case sli => exact (offer_within _ _).out .sli (by decide)
    case ubi => exact (offer_within _ _).out .ubi (by decide)
    case up => exact (offer_within _ _).out .up (by decide)
    case down => exact (offer_within _ _).out .down (by decide)
    case cm => exact (offer_within _ _).out .cm (by decide)
    case ra => exact (offer_within _ _).out .ra (by decide)
    case ct => exact (offer_within _ _).out .ct (by decide)
    case hc => exact (offer_within _ _).out .hc (by decide)
    case ml => exact (offer_within _ _).out .ml (by decide)
    case pending => exact (offer_within _ _).out .pending (by decide)
  · exact .refl ..

/-! ### The Handover Controller -/

theorem answer_within (k m) (s : State) : Within [.hc] s (s.answer k m) := onHc_within ..

theorem notice_within (s : State) : Within [.hc] s s.notice := onHc_within ..

theorem announce_within (o c k n) (s : State) : Within [.hc, .eq, .sh] s (s.announce o c k n) :=
  ((offer_within ..).and (notice_within ..)).mono (by decide)

/-- What the handover can change: its own items, the shift history and its sets, and the Event Queue. -/
abbrev handoverBlocks : List Block := [.hc, .eq, .sh, .tu]

theorem makeCut_within (k x) (s : State) : Within handoverBlocks s (s.makeCut k x) :=
  ((noteCut_within ..).and (onHc_within ..)).mono (by decide)

theorem takeCut_within (k c x) (s : State) : Within handoverBlocks s (s.takeCut k c x) :=
  ((makeCut_within ..).and (announce_within ..)).mono (by decide)

theorem takeOpeningCut_within (x) (s : State) : Within handoverBlocks s (s.takeOpeningCut x) :=
  ((openingCut_within ..).and (onHc_within ..)).mono (by decide)

theorem holdAtBoundary_within (x r) (s : State) : Within handoverBlocks s (s.holdAtBoundary x r) :=
  ((onHc_within ..).and (announce_within ..)).mono (by decide)

theorem openWindow_within (r) (s : State) : Within handoverBlocks s (s.openWindow r) := by
  unfold State.openWindow
  exact .ite (holdAtBoundary_within ..) (((onHc_within ..).and (announce_within ..)).mono (by decide))

theorem cutAtBoundary_within (k x r) (s : State) : Within handoverBlocks s (s.cutAtBoundary k x r) := by
  unfold State.cutAtBoundary
  exact .ite (holdAtBoundary_within ..) (takeCut_within ..)

theorem actBoundary_within (b r) (s : State) : Within handoverBlocks s (s.actBoundary b r) := by
  have h : ∀ f, Within handoverBlocks s (s.onHc f) := fun f => (onHc_within f s).mono (by decide)
  unfold State.actBoundary
  split
  · exact .ite ((h _).trans (cutAtBoundary_within ..)) (.refl ..)
  · exact .refl ..
  · exact (h _).trans (openWindow_within ..)
  · exact (h _).trans (cutAtBoundary_within ..)
  · exact h _
  · exact h _
  · exact h _
  · exact (h _).trans (openWindow_within ..)
  · exact h _
  · exact h _

theorem evaluate_within (s : State) : Within handoverBlocks s s.evaluate := by
  unfold State.evaluate
  dsimp only
  split
  · exact .refl ..
  · exact .ite (.refl ..) (((onHc_within ..).mono (by decide)).trans (actBoundary_within ..))

theorem reseat_within (s : State) : Within [.hc] s s.reseat := onHc_within ..

theorem onLocalTime_within (b) (s : State) : Within handoverBlocks s (s.onLocalTime b) := by
  unfold State.onLocalTime
  exact .ite (.refl ..) (.ite ((reseat_within ..).mono (by decide)) (evaluate_within ..))

theorem incidentBegins_within (s : State) : Within handoverBlocks s s.incidentBegins := by
  have h : ∀ x, Within handoverBlocks s (s.holdAtIncident x) := fun x =>
    ((onHc_within ..).and (announce_within ..)).mono (by decide)
  unfold State.incidentBegins
  split <;> first | exact h _ | exact .refl ..

theorem resumeTo_within (x y) (s : State) : Within handoverBlocks s (s.resumeTo x y) :=
  ((onHc_within ..).and (announce_within ..)).mono (by decide)

theorem incidentEnds_within (s : State) : Within handoverBlocks s s.incidentEnds := by
  have h : ∀ (t : State) f, Within handoverBlocks t (t.onHc f) := fun t f => (onHc_within f t).mono (by decide)
  unfold State.incidentEnds
  split
  · dsimp only
    split
    · exact (h ..).trans (resumeTo_within ..)
    · exact (h ..).trans (resumeTo_within ..)
    · exact (h ..).trans (resumeTo_within ..)
    · exact ((h ..).trans (h ..)).trans (takeCut_within ..)
    · exact ((h ..).trans (h ..)).trans (takeCut_within ..)
    · exact h ..
  all_goals exact .refl ..

theorem takeClaim_within (m) (s : State) : Within handoverBlocks s (s.takeClaim m) := by
  have a : ∀ (t : State) k m, Within handoverBlocks t (t.answer k m) := fun t k m =>
    (answer_within k m t).mono (by decide)
  unfold State.takeClaim State.refuseAuto State.refuseMsg
  split
  · exact .ite (a ..) (a ..)
  · split
    · refine Within.trans (t := if s.hc.shiftOpen then s else s.takeOpeningCut m.arrival)
        (.ite (.refl ..) (takeOpeningCut_within ..)) ?_
      exact ((onHc_within ..).and ((answer_within ..).and (announce_within ..))).mono (by decide)
    all_goals exact a ..

theorem acceptFrom_within (m) (s : State) : Within handoverBlocks s (s.acceptFrom m) :=
  ((onHc_within ..).and ((answer_within ..).and (announce_within ..))).mono (by decide)

theorem takeAccept_within (m) (s : State) : Within handoverBlocks s (s.takeAccept m) := by
  have a : ∀ (t : State) k m, Within handoverBlocks t (t.answer k m) := fun t k m =>
    (answer_within k m t).mono (by decide)
  unfold State.takeAccept State.refuseAuto State.refuseMsg
  split
  · exact .ite (a ..) (a ..)
  · split
    · exact a ..
    · exact a ..
    · exact .ite (a ..) (acceptFrom_within ..)
    · exact .ite (a ..) (acceptFrom_within ..)
    · exact .ite (a ..) (.ite (a ..) (a ..))
    · exact a ..
    · exact a ..

theorem releaseCut_within (m) (s : State) : Within handoverBlocks s (s.releaseCut m) :=
  ((makeCut_within ..).and ((answer_within ..).and (announce_within ..))).mono (by decide)

theorem takeRelease_within (m) (s : State) : Within handoverBlocks s (s.takeRelease m) := by
  have a : ∀ (t : State) k m, Within handoverBlocks t (t.answer k m) := fun t k m =>
    (answer_within k m t).mono (by decide)
  unfold State.takeRelease State.refuseAuto State.refuseMsg
  split
  · exact .ite (a ..) (a ..)
  · split
    · exact a ..
    · exact .ite (a ..) (a ..)
    · exact .ite (a ..) (a ..)
    · exact .ite (a ..) (a ..)
    · exact .ite (releaseCut_within ..) (a ..)
    · exact a ..
    · exact a ..

theorem takeQuery_within (m) (s : State) : Within [.hc] s (s.takeQuery m) := by
  unfold State.takeQuery State.refuseAuto State.refuseMsg
  split <;> exact .ite (answer_within ..) (answer_within ..)

theorem takeMessage_within (m) (s : State) : Within handoverBlocks s (s.takeMessage m) := by
  unfold State.takeMessage
  split
  · exact takeClaim_within ..
  · exact takeAccept_within ..
  · exact takeRelease_within ..
  · exact (takeQuery_within ..).mono (by decide)

theorem takeArrived_within (k) (s : State) : Within handoverBlocks s (s.takeArrived k) := by
  unfold State.takeArrived
  split
  · exact .refl ..
  · exact .ite (((onHc_within ..).mono (by decide)).trans (takeMessage_within ..)) (.refl ..)

theorem windowExpires_within (s : State) : Within handoverBlocks s s.windowExpires := by
  unfold State.windowExpires
  split
  · exact .ite (((onHc_within ..).and (announce_within ..)).mono (by decide)) (.refl ..)
  · exact .refl ..

theorem releaseExpires_within (s : State) : Within handoverBlocks s s.releaseExpires := by
  unfold State.releaseExpires
  split
  · exact .ite (takeCut_within ..) (.refl ..)
  · exact .refl ..

theorem leaveSettling_within (k x) (s : State) : Within handoverBlocks s (s.leaveSettling k x) := by
  unfold State.leaveSettling
  have h : ∀ (t : State) f, Within handoverBlocks t (t.onHc f) := fun t f => (onHc_within f t).mono (by decide)
  dsimp only
  split
  · exact (h ..).trans ((announce_within ..).mono (by decide))
  · exact (((h ..).trans ((announce_within ..).mono (by decide))).trans (h ..)).trans (actBoundary_within ..)

theorem settleEnds_within (s : State) : Within handoverBlocks s s.settleEnds := by
  unfold State.settleEnds
  split
  · exact .ite (((closeShift_within ..).mono (by decide)).trans (leaveSettling_within ..)) (.refl ..)
  · exact .refl ..

/-! ### The Cascade Tracker -/

/-- What the Cascade Tracker can change. -/
abbrev cascadeBlocks : List Block := [.ct, .hc, .eq, .sh, .tu]

theorem evalIncident_within (s : State) : Within cascadeBlocks s s.evalIncident := by
  unfold State.evalIncident
  split
  · exact ((onCt_within ..).and (incidentBegins_within ..)).mono (by decide)
  · exact ((onCt_within ..).and (incidentEnds_within ..)).mono (by decide)
  · exact .refl ..
  · exact .refl ..

theorem takeTrips_within (g l) (s : State) : Within cascadeBlocks s (s.takeTrips g l) := by
  have o : Within cascadeBlocks s
      (s.onCt (Cascades.put g (some (openedCascade s.ml.params.cascadeWindow l)))).evalIncident :=
    ((onCt_within ..).mono (by decide)).trans (evalIncident_within ..)
  unfold State.takeTrips
  refine .ite (.refl ..) ?_
  split
  · exact (onCt_within ..).mono (by decide)
  · dsimp only
    split
    · exact o.trans ((cascadeOpened_within ..).mono (by decide))
    · exact o

theorem foldl_within {α : Type} (f : State → α → State) (h : ∀ t a, Within l t (f t a)) (as : List α) (s : State) :
    Within l s (as.foldl f s) := by
  induction as generalizing s with
  | nil => exact .refl ..
  | cons a as ih => exact (h s a).trans (ih _)

theorem takeAllTrips_within (l) (s : State) : Within cascadeBlocks s (s.takeAllTrips l) :=
  foldl_within _ (fun _ _ => takeTrips_within ..) _ _

theorem countTrip_within (g b) (s : State) : Within [.tu] s (s.countTrip g b) := by
  unfold State.countTrip
  split
  · exact onUnit_within ..
  · exact .refl ..

theorem closeCascade_within (g c m) (s : State) : Within cascadeBlocks s (s.closeCascade g c m) := by
  refine Within.trans ?_ (evalIncident_within ..)
  exact ((offer_within ..).and ((countTrip_within ..).and ((attributeCascade_within ..).and (onCt_within ..)))).mono
    (by decide)

theorem cascadeCloses_within (g) (s : State) : Within cascadeBlocks s (s.cascadeCloses g) := by
  unfold State.cascadeCloses
  split
  · exact .refl ..
  · split
    · exact .refl ..
    · exact .ite (closeCascade_within ..) (.refl ..)

theorem holdEnds_within (s : State) : Within cascadeBlocks s s.holdEnds := by
  unfold State.holdEnds
  split
  · exact .refl ..
  · exact .ite (evalIncident_within ..) (.refl ..)

/-! ### The elastic stores -/

/-- The block of a store. -/
def storeBlock : StoreName → Block
  | .up => .up
  | .down => .down

theorem setStore_within (n x) (s : State) : Within [storeBlock n] s (s.setStore n x) := by
  cases n <;> exact ⟨fun b h => by cases b <;> first | rfl | simp [storeBlock] at h⟩

theorem slip_within (n k) (s : State) : Within [storeBlock n, .eq, .sh] s (s.slip n k) := by
  unfold State.slip
  exact .ite ((setStore_within ..).mono (by simp)) ((setStore_within ..).and (offer_within ..))

theorem writeStore_within (n f) (s : State) : Within [storeBlock n, .eq, .sh] s (s.writeStore n f) := by
  unfold State.writeStore
  refine .ite ((setStore_within ..).mono (by simp)) ?_
  exact ((setStore_within ..).mono (by simp)).trans (slip_within ..)

theorem readStore_within (n) (s : State) : Within [storeBlock n, .eq, .sh] s (s.readStore n) := by
  unfold State.readStore
  dsimp only
  split
  · exact (setStore_within ..).mono (by simp)
  · exact slip_within ..

/-! ### The Channel Monitor -/

/-- What a channel record can change: the channels, the Event Queue and the header's counts. -/
abbrev channelBlocks : List Block := [.cm, .eq, .sh]

theorem offerChannel_within (ch r) (s : State) : Within channelBlocks s (s.offerChannel ch r) := by
  unfold State.offerChannel
  exact .ite ((enqueue_within ..).mono (by decide)) ((onChannel_within ..).mono (by decide))

theorem channelRecord_within (ch k c i o n a st v) (s : State) :
    Within channelBlocks s (s.channelRecord ch k c i o n a st v) :=
  ((onChannel_within ..).mono (by decide)).trans (offerChannel_within ..)

theorem endChatter_within (ch c n) (s : State) : Within channelBlocks s (s.endChatter ch c n) :=
  (channelRecord_within ..).trans ((onChannel_within ..).mono (by decide))

theorem recordChange_within (ch c) (s : State) : Within channelBlocks s (s.recordChange ch c) := by
  unfold State.recordChange
  dsimp only
  split
  · exact (onChannel_within ..).mono (by decide)
  · exact .ite ((channelRecord_within ..).trans ((onChannel_within ..).mono (by decide)))
      ((channelRecord_within ..).trans ((onChannel_within ..).mono (by decide)))

theorem quietDeadline_within (ch) (s : State) : Within channelBlocks s (s.quietDeadline ch) := by
  unfold State.quietDeadline
  split
  · exact .refl ..
  · exact .ite (endChatter_within ..) (.refl ..)

theorem validate_within (ch k) (s : State) : Within channelBlocks s (s.validate ch k).1 := by
  unfold State.validate
  dsimp only
  split
  · exact Within.trans ((onChannel_within ..).mono (by decide)) (channelRecord_within ..)
  · exact Within.trans ((onChannel_within ..).mono (by decide)) (channelRecord_within ..)
  · exact Within.trans ((onChannel_within ..).mono (by decide)) (recordChange_within ..)

theorem loseChannel_within (ch r) (s : State) : Within channelBlocks s (s.loseChannel ch r).1 := by
  unfold State.loseChannel
  refine Within.trans (t := match s.cm[ch].chatter with
    | some c => s.endChatter ch c s.cm[ch].valid
    | none => s) ?_ (((onChannel_within ..).mono (by decide)).trans (channelRecord_within ..))
  split
  · exact endChatter_within ..
  · exact .refl ..

theorem channelLook_within (ch o) (s : State) : Within channelBlocks s (s.channelLook ch o).1 := by
  have c : ∀ (t : State) f, Within channelBlocks t (t.onChannel ch f) := fun t f =>
    (onChannel_within ch f t).mono (by decide)
  unfold State.channelLook
  dsimp only
  split
  · split
    · unfold State.noDeviceLook
      dsimp only
      split
      · exact ((c ..).trans (c ..)).trans (loseChannel_within ..)
      · exact (c ..).trans (c ..)
    · unfold State.codeLook
      dsimp only
      split
      · split
        · exact (c ..).trans (c ..)
        · exact ((c ..).trans (c ..)).trans (c ..)
      · split
        · exact ((c ..).trans (c ..)).trans (validate_within ..)
        · exact ((c ..).trans (c ..)).trans (c ..)
  · exact c ..

theorem allLooks_within (v) (s : State) : Within channelBlocks s (s.allLooks v).1 := by
  unfold State.allLooks
  generalize allChannels = chs
  suffices ∀ p : State × List HandOn, Within channelBlocks s p.1 → Within channelBlocks s
      (chs.foldl (fun (p : State × List HandOn) ch =>
        let q := p.1.channelLook ch v[ch]
        (q.1, p.2 ++ q.2)) p).1 from this _ (.refl ..)
  induction chs with
  | nil => exact fun p h => h
  | cons a as ih => exact fun p h => ih _ (h.trans (channelLook_within ..))

theorem handToTally_within (x) (s : State) : Within [.tu, .eq, .sh] s (s.handToTally x) := by
  unfold State.handToTally
  split
  · split
    · exact sourceChange_within ..
    · exact .refl ..
  · split
    · exact rederive_within ..
    · exact .refl ..

theorem takeHandOns_within (o l) (s : State) : Within cascadeBlocks s (s.takeHandOns o l) := by
  have a : ∀ t : State, Within cascadeBlocks t (l.foldl (fun x h => x.handToTally h) t) := fun t =>
    foldl_within _ (fun _ _ => (handToTally_within ..).mono (by decide)) _ _
  unfold State.takeHandOns
  exact .ite ((takeAllTrips_within ..).trans (a _)) ((a _).trans (takeAllTrips_within ..))

/-- What a channel restart can change. -/
abbrev restartBlocks : List Block := [.cm, .eq, .sh, .tu]

theorem restartChannel_within (ch n) (s : State) : Within restartBlocks s (s.restartChannel ch n) := by
  have d : Within restartBlocks s ((s.cm[ch].store.foldl State.discardEntry s).onChannel ch Channel.restart) :=
    (foldl_within _ (fun _ _ => (lose_within ..).mono (by decide)) _ _).trans
      ((onChannel_within ..).mono (by decide))
  unfold State.restartChannel
  dsimp only
  split
  · exact d.trans ((eventChange_within ..).mono (by decide))
  · exact d

theorem restartChannels_within (v l) (s : State) : Within restartBlocks s (s.restartChannels v l) :=
  foldl_within _ (fun _ _ => restartChannel_within ..) _ _

theorem redetermine_within (v) (s : State) : Within [.tu, .eq, .sh] s (s.redetermine v) :=
  foldl_within _ (fun _ _ => .ite (.refl ..) (rederive_within ..)) _ _

theorem writeEntries_within (l e) (s : State) : Within restartBlocks s (s.writeEntries l e) :=
  ((foldl_within _ (fun _ _ => (onChannel_within ..).mono (by decide)) _ _).trans
    (restartChannels_within ..)).trans ((redetermine_within ..).mono (by decide))

theorem afterTurn_within (s : State) : Within channelBlocks s s.afterTurn := by
  unfold State.afterTurn State.releaseTurn
  cases releaseChoice s with
  | none => exact Within.refl _ s
  | some p => exact Within.trans ((enqueue_within p.2 s).mono (by decide)) ((onChannel_within ..).mono (by decide))

theorem releaseTurns_within (n) (s : State) : Within channelBlocks s (releaseTurns n s) := by
  induction n generalizing s with
  | zero => exact Within.refl _ s
  | succ n ih => exact (afterTurn_within s).trans (ih _)

theorem releaseRound_within (s : State) : Within channelBlocks s s.releaseRound := releaseTurns_within ..

/-! ### The Discipline Loop and the Reference Monitor -/

/-- What the Discipline Loop can change. -/
abbrev loopBlocks : List Block := [.rm, .dl, .tb, .eq, .sh]

theorem dropSetting_within (m) (s : State) : Within [.tb] s (s.dropSetting m) := by
  unfold State.dropSetting
  exact .ite ⟨fun b h => by cases b <;> first | exact absurd (by decide) h | rfl⟩ (.refl ..)

theorem setMode_within (m a c) (s : State) : Within loopBlocks s (s.setMode m a c) := by
  unfold State.setMode
  exact .ite (.refl ..) (((dropSetting_within ..).and ((onDl_within ..).and (offer_within ..))).mono (by decide))

theorem startSearch_within (r) (s : State) : Within loopBlocks s (s.startSearch r) :=
  ((onDl_within ..).and (writeTrim_within ..)).mono (by decide)

theorem abortSearch_within (s : State) : Within loopBlocks s s.abortSearch := by
  unfold State.abortSearch
  split
  · exact .refl ..
  · exact ((onDl_within ..).and ((writeTrim_within ..).and (offer_within ..))).mono (by decide)

theorem follow_within (r m b c) (s : State) : Within loopBlocks s (s.follow r m b c) :=
  (((onRef_within ..).and (onDl_within ..)).mono (by decide)).trans (setMode_within ..)

theorem testRevert_within (s : State) : Within loopBlocks s s.testRevert := by
  unfold State.testRevert
  split
  · exact .ite (follow_within ..) (.refl ..)
  · exact .refl ..

theorem endSearch_within (s : State) : Within loopBlocks s s.endSearch :=
  .ite ((abortSearch_within ..).trans (testRevert_within ..)) (.refl ..)

theorem acquire_within (c) (s : State) : Within loopBlocks s (s.acquire c) := by
  unfold State.acquire
  refine .ite (.refl ..) ?_
  split
  · exact .refl ..
  · dsimp only
    refine Within.trans ?_ (testRevert_within ..)
    split
    · exact Within.trans (follow_within ..) (startSearch_within ..)
    · exact follow_within ..

theorem followNone_within (c) (s : State) : Within loopBlocks s (s.followNone c) :=
  (setMode_within ..).trans ((writeTrim_within ..).mono (by decide))

theorem switchTo_within (r c) (s : State) : Within loopBlocks s (s.switchTo r c) := follow_within ..

theorem activeLost_within (r) (s : State) : Within loopBlocks s (s.activeLost r) :=
  (abortSearch_within ..).trans (.ite (switchTo_within ..) (followNone_within ..))

theorem policyChanged_within (s : State) : Within loopBlocks s s.policyChanged := by
  refine Within.trans (t := s.abortSearch) (abortSearch_within ..) ?_
  unfold State.policyChanged
  dsimp only
  refine .ite ?_ ?_
  · split
    · exact followNone_within ..
    · exact .ite (testRevert_within ..)
        (.ite ((switchTo_within ..).trans (testRevert_within ..)) (followNone_within ..))
  · split
    · exact acquire_within ..
    · exact followNone_within ..

theorem confirmStep_within (r w e) (s : State) : Within loopBlocks s (s.confirmStep r w e) := by
  unfold State.confirmStep
  dsimp only
  exact .ite ((onDl_within ..).mono (by decide)) (((onRef_within ..).and (onDl_within ..)).mono (by decide))

theorem completeSearch_within (x y) (s : State) : Within loopBlocks s (s.completeSearch x y) :=
  (((onDl_within ..).and ((writeTrim_within ..).and (offer_within ..))).mono (by decide)).trans
    (testRevert_within ..)

theorem searchSecond_within (e) (s : State) : Within loopBlocks s (s.searchSecond e) := by
  have d : ∀ f, Within loopBlocks s (s.onDl f) := fun f => (onDl_within f s).mono (by decide)
  unfold State.searchSecond
  split
  · exact .refl ..
  · refine .ite ?_ (.refl ..)
    split
    · exact d _
    · refine .ite (d _) ?_
      unfold State.endInterval
      exact .ite (completeSearch_within ..) (((onDl_within ..).and (writeTrim_within ..)).mono (by decide))

theorem runLoop_within (e) (s : State) : Within loopBlocks s (s.runLoop e) := by
  unfold State.runLoop
  dsimp only
  split
  · refine Within.trans ?_ ((setMode_within ..).trans (testRevert_within ..))
    exact ((onDl_within ..).and (writeTrim_within ..)).mono (by decide)
  · exact ((onDl_within ..).and (writeTrim_within ..)).mono (by decide)

theorem loopSecond_within (r g e) (s : State) : Within loopBlocks s (s.loopSecond r g e) := by
  unfold State.loopSecond
  refine .ite ((onDl_within ..).mono (by decide)) ?_
  split
  · refine Within.trans ?_ (searchSecond_within ..)
    exact .ite (confirmStep_within ..) ((onDl_within ..).mono (by decide))
  · exact .ite (confirmStep_within ..) (runLoop_within ..)

theorem changeQual_within (r q x f) (s : State) : Within loopBlocks s (s.changeQual r q x f) :=
  ((onRef_within ..).and (offer_within ..)).mono (by decide)

theorem faultRef_within (r x) (s : State) : Within loopBlocks s (s.faultRef r x) := by
  unfold State.faultRef
  exact (changeQual_within ..).trans (.ite (activeLost_within ..) (.refl ..))

theorem qualifyRef_within (r) (s : State) : Within loopBlocks s (s.qualifyRef r) := by
  unfold State.qualifyRef
  exact (changeQual_within ..).trans (.ite (testRevert_within ..) (acquire_within ..))

theorem qualStep_within (r g p) (s : State) : Within loopBlocks s (s.qualStep r g p) := by
  have o : ∀ f, Within loopBlocks s (s.onRef r f) := fun f => (onRef_within r f s).mono (by decide)
  unfold State.qualStep
  dsimp only
  split
  · exact .refl ..
  · exact .ite (.ite ((o _).trans (qualifyRef_within ..)) (o _)) (o _)
  · exact .ite (faultRef_within ..) (.refl ..)
  · exact .ite (changeQual_within ..) (.refl ..)

theorem clearMessage_within (r) (s : State) : Within [.rm] s (s.clearMessage r) := by
  cases r <;> exact ⟨fun b h => by cases b <;> first | exact absurd (by decide) h | rfl⟩

theorem agreeSeconds_within (r g n) (s : State) : Within [.rm] s (s.agreeSeconds r g n) := by
  unfold State.agreeSeconds
  split
  · exact ⟨fun b h => by cases b <;> first | exact absurd (by decide) h | rfl⟩
  · exact .refl ..

theorem takeMarker_within (r f) (s : State) : Within loopBlocks s (s.takeMarker r f) := by
  have n : ∀ (t : State) e, Within loopBlocks t (t.noteMarker r e) := fun t e =>
    (onRef_within ..).mono (by decide)
  have c : ∀ t : State, Within loopBlocks t (t.clearMessage r) := fun t =>
    (clearMessage_within r t).mono (by decide)
  unfold State.takeMarker
  dsimp only
  split
  · exact ((changeQual_within ..).trans (n ..)).trans (c _)
  · exact (n ..).trans (c _)
  · unfold State.judgeMarker State.followSecond
    dsimp only
    refine Within.trans ?_ (.ite (loopSecond_within ..) (.refl ..))
    refine Within.trans ?_ (c _)
    refine Within.trans ?_ (qualStep_within ..)
    refine Within.trans ?_ ((agreeSeconds_within ..).mono (by decide))
    exact (n ..).trans ((onRef_within ..).mono (by decide))

theorem linkLossA_within (s : State) : Within loopBlocks s s.linkLossA := by
  unfold State.linkLossA
  refine Within.trans (t := { s with rm := { s.rm with assembly := [], message := none } })
    ⟨fun b h => by cases b <;> first | exact absurd (by decide) h | rfl⟩ ?_
  split
  · exact faultRef_within ..
  · exact changeQual_within ..
  · exact .refl ..
  · exact .refl ..

/-! ### The Timebase -/

theorem setOffset_within (d) (s : State) : Within [.tb, .rm] s (s.setOffset d) :=
  ⟨fun b h => by cases b <;> first | exact absurd (by decide) h | rfl⟩

theorem setU_within (n) (s : State) : Within [.tb] s (s.setU n) := onTb_within ..

theorem reportOffset_within (o w r) (s : State) : Within [.tb, .hc, .eq, .sh, .tu] s (s.reportOffset o w r) :=
  ((takeClass_within ..).and ((offer_within ..).and ((reportClass_within ..).and (onLocalTime_within ..)))).mono
    (by decide)

/-- What an application of a step or a time setting can change. -/
abbrev offsetBlocks : List Block := [.tb, .rm, .hc, .eq, .sh, .tu]

theorem applyStep_within (p) (s : State) : Within offsetBlocks s (s.applyStep p) := by
  unfold State.applyStep
  dsimp only
  refine Within.trans ?_ ((reportOffset_within ..).mono (by decide))
  split
  · refine Within.trans ?_ ((setU_within ..).mono (by decide))
    exact ((setOffset_within ..).and (onTb_within ..)).mono (by decide)
  · exact ((setOffset_within ..).and (onTb_within ..)).mono (by decide)

theorem applySetting_within (x) (s : State) : Within offsetBlocks s (s.applySetting x) := by
  unfold State.applySetting
  dsimp only
  refine Within.trans ?_ ((reportOffset_within ..).mono (by decide))
  exact (((setOffset_within ..).and (onTb_within ..)).and (setU_within ..)).mono (by decide)

theorem plainSecond_within (s : State) : Within [.tb, .hc, .eq, .sh, .tu] s s.plainSecond := by
  have r : Within [.tb] s s.recomputeU := by
    unfold State.recomputeU; exact .ite (setU_within ..) (setU_within ..)
  exact (r.and ((takeClass_within ..).and ((reportClass_within ..).and (onLocalTime_within ..)))).mono (by decide)

/-- A local second boundary changes the Timebase, the loop's latches, the stores' flags, the last phase errors and, through
the evaluation of local time, the handover. -/
theorem secondBoundary_within (s : State) :
    Within [.tb, .dl, .up, .down, .rm, .hc, .eq, .sh, .tu] s s.secondBoundary := by
  unfold State.secondBoundary
  refine .ite ?_ (.refl ..)
  have a : Within [.tb, .dl, .up, .down] s s.latchSecond :=
  ⟨fun b h => by cases b <;> first | exact absurd (by decide) h | rfl⟩
  have b : Within [.tb, .dl] s.latchSecond s.latchSecond.handStep := by
    unfold State.handStep
    split
    · exact .refl ..
    · exact (onTb_within ..).and (onDl_within ..)
  unfold State.takeBoundary
  dsimp only
  split
  · exact (a.and (b.and (applySetting_within ..))).mono (by decide)
  · exact (a.and (b.and (plainSecond_within ..))).mono (by decide)

/-! ### The links -/

/-- What a delivered frame can change. -/
theorem takeFrame_within (n f) (s : State) :
    Within [.sli, .ml, .down, .rm, .dl, .tb, .eq, .sh] s (s.takeFrame n f) := by
  unfold State.takeFrame
  refine .ite ?_ (.refl ..)
  unfold State.deliverFrame
  refine Within.trans ?_ ((writeStore_within ..).mono (by decide))
  refine Within.trans ?_ ((onMl_within ..).mono (by decide))
  have o : ∀ t : State, Within [.rm] t (t.takeTimeOctet f.time) := fun t => by
    unfold State.takeTimeOctet
    dsimp only
    refine .ite (.ite ?_ (.refl ..)) (.ite ?_ ?_)
    all_goals exact ⟨fun b h => by cases b <;> first | exact absurd (by decide) h | rfl⟩
  refine Within.trans ?_ ((o _).mono (by decide))
  have m : ∀ t : State, Within [.rm, .dl, .tb, .eq, .sh] t (t.frameMarker n f) := fun t => by
    unfold State.frameMarker
    refine .ite ?_ (.refl ..)
    refine Within.trans (t := t.dropAssembly) ⟨fun b h => by cases b <;> first | exact absurd (by decide) h | rfl⟩ (takeMarker_within ..)
  refine Within.trans ?_ ((m _).mono (by decide))
  exact ((onSli_within ..).and (onSli_within ..)).mono (by decide)

theorem syncAbsent_within (s : State) :
    Within [.sli, .ml, .down, .rm, .dl, .tb, .eq, .sh] s s.syncAbsent := by
  unfold State.syncAbsent
  refine .ite ?_ (.refl ..)
  dsimp only
  have d : ∀ t : State, Within [.rm] t t.dropAssembly := fun t =>
    ⟨fun b h => by cases b <;> first | exact absurd (by decide) h | rfl⟩
  refine Within.trans (t := s.onSli fun x =>
    { x with missing := min (x.missing + 1) 4, syncErrors := satAdd top16 x.syncErrors 1 })
      ((onSli_within ..).mono (by decide)) (.ite ?_ ?_)
  · unfold State.takeBroken
    refine Within.trans ?_ ((writeStore_within ..).mono (by decide))
    refine Within.trans ?_ ((onMl_within ..).mono (by decide))
    refine Within.trans ?_ ((d _).mono (by decide))
    exact (onSli_within ..).mono (by decide)
  · unfold State.enterLof
    exact ((onSli_within ..).and ((linkLossA_within ..).and (onMl_within ..))).mono (by decide)

/-- The reply of a reading request executed at this tick is settled by its own act (R177). -/
theorem settledReply_reading {req act} (h : s.ml.request = .executed req) (he : s.ml.executedAt = some s.tb.e)
    (hk : readingOf (kindOf req) = some act) : s.settledReply = settleReading act req s.ml.reply s := by
  simp [State.settledReply, h, he, hk]

/-- Without a reading request executed at this tick the reply stays. -/
theorem settledReply_other
    (h : ∀ req, s.ml.request = .executed req → s.ml.executedAt = some s.tb.e → readingOf (kindOf req) = none) :
    s.settledReply = s.ml.reply := by
  unfold State.settledReply
  split
  · next req hr => split <;> [(next he => simp [h req hr he]); rfl]
  all_goals rfl

theorem tick_within (s : State) : Within [.tb, .sli, .ml] s s.tick :=
  .ite (.refl ..) ⟨fun b h => by cases b <;> first | exact absurd (by decide) h | rfl⟩

theorem upwardStart_within (s : State) : Within [.ra, .sli, .ml, .up, .eq, .sh] s s.upwardStart := by
  unfold State.upwardStart
  refine .ite ?_ (.refl ..)
  unfold State.startUpward
  dsimp only
  refine Within.trans (t := { s with ra := (decideSlot s.eq s.ra).1 })
    ⟨fun b h => by cases b <;> first | exact absurd (by decide) h | rfl⟩ ?_
  exact ((readStore_within .up _).and ((onSli_within ..).and (onMl_within ..))).mono (by decide)

theorem upwardEnd_within (s : State) : Within [.sli, .ra, .cm, .eq, .sh] s s.upwardEnd := by
  unfold State.upwardEnd
  split
  · exact .refl ..
  · refine .ite (.refl ..) ?_
    unfold State.endUpward State.recordFrameEnds State.leave
    refine Within.trans (t := s.onSli fun x => { x with up := none }) ((onSli_within ..).mono (by decide)) ?_
    dsimp only
    split
    · refine Within.trans (t := (s.onSli fun x => { x with up := none }).onRa fun r => { r with idle := 0 })
        ((onRa_within ..).mono (by decide)) ?_
      split
      · next x _ =>
        refine .ite ?_ (.refl ..)
        refine Within.trans ?_ ((releaseRound_within ..).mono (by decide))
        refine Within.trans (t := ((s.onSli fun x => { x with up := none }).onRa fun r =>
          { r with idle := 0 }).onRa (Arbiter.complete x.record.cls)) ((onRa_within ..).mono (by decide)) ?_
        exact ⟨fun b h => by cases b <;> first | exact absurd (by decide) h | rfl⟩
      · exact .refl ..
    · exact (onRa_within ..).mono (by decide)
    · exact .refl ..

theorem downlinkStart_within (s : State) : Within [.ubi, .hc, .down, .eq, .sh] s s.downlinkStart := by
  unfold State.downlinkStart
  refine .ite ?_ (.refl ..)
  unfold State.startDownlink
  have r : ∀ t : State, Within [.ubi, .hc, .down, .eq, .sh] t t.readDown := fun t => by
    unfold State.readDown
    split
    · exact (readStore_within ..).mono (by decide)
    · exact .refl ..
  refine Within.trans ?_ (r _)
  exact ((onUbi_within ..).and (onHc_within ..)).mono (by decide)

/-- A look reaches the channels, the upward store and everything the handover, the cascades and the tallies change; it
leaves the Timebase, the references, the loop, the links, the arbiter and the downward store. -/
theorem look_within (x o) (s : State) :
    Within [.ubi, .cm, .up, .ct, .hc, .eq, .sh, .tu] s (s.look x o) := by
  have p : ∀ t : State, Within [.ubi, .cm, .up, .ct, .hc, .eq, .sh, .tu] t (t.channelPart x o.openingFirst) := fun t =>
    ((allLooks_within ..).and ((takeHandOns_within ..).and (writeStore_within ..))).mono (by decide)
  unfold State.look
  refine .ite ?_ (.refl ..)
  unfold State.takeLook
  have c : ∀ t : State, Within [.ubi, .cm, .up, .ct, .hc, .eq, .sh, .tu] t (t.consoleFirst x) := fun t => by
    unfold State.consoleFirst
    refine Within.trans (t := t.onHc fun _ => (t.hc.look x t.tb.e).1) ((onHc_within ..).mono (by decide)) ?_
    dsimp only
    split
    · exact (takeMessage_within ..).mono (by decide)
    · exact .refl ..
  refine Within.trans (t := s.onUbi fun y => { y with lastLook := some s.tb.e })
    ((onUbi_within ..).mono (by decide)) (.ite ?_ ?_)
  · exact (c _).trans (p _)
  · exact (p _).trans ((onHc_within ..).mono (by decide))

/-! ### Requests -/

/-- A request command either finds nothing to execute and leaves the state, or executes the one complete request and leaves
its reply (R177). -/
theorem runRequest_cases (mine act) (s : State) :
    (s.executable mine = none ∧ s.runRequest mine act = s) ∨
      ∃ req, s.executable mine = some req ∧
        s.runRequest mine act = (act req s).1.onMl (MgmtLink.answered req (act req s).2 s.tb.e) := by
  unfold State.runRequest
  cases h : s.executable mine with
  | none => exact .inl ⟨rfl, rfl⟩
  | some req => exact .inr ⟨req, rfl, rfl⟩

/-- What makes a request executable (R177). -/
theorem executable_iff (mine) (s : State) (req : List Octet) :
    s.executable mine = some req ↔ s.requested req ∧ mine req = true := by
  unfold State.executable State.requested
  cases h : s.ml.request <;> simp
  constructor
  · rintro ⟨⟨a, b⟩, rfl⟩; exact ⟨⟨rfl, b⟩, a⟩
  · rintro ⟨⟨rfl, b⟩, a⟩; exact ⟨⟨a, b⟩, rfl⟩

end Sys2Proof.Machine
end

