-- ==== Sys2Proof/Laws/PerInstr.lean ====
section
/-! SUPPORT. The family of statements made per command: a command is well formed exactly when a frame that it
brings as taken has its sync. -/

namespace Sys2Proof.Laws.Formed

/-- A command is well formed unless it brings a frame as taken whose sync is absent (R52). -/
def Statement (i : Instr) : Prop :=
  i.wellFormed = true ↔ ∀ fine f, i = .frameTaken fine f → f.hasSync = true

/-- Every command but FRAME_TAKEN is well formed. -/
theorem of_other {i : Instr} (w : i.wellFormed = true) (h : ∀ fine f, i ≠ .frameTaken fine f) : Statement i :=
  ⟨fun _ fine f e => absurd e (h fine f), fun _ => w⟩

theorem powerOnReset (cause : ResetCause) : Statement (.powerOnReset cause) :=
  of_other rfl (by intros; exact Instr.noConfusion)
theorem localSecondBoundary : Statement .localSecondBoundary :=
  of_other rfl (by intros; exact Instr.noConfusion)
theorem stepApplication : Statement .stepApplication :=
  of_other rfl (by intros; exact Instr.noConfusion)
theorem huntSyncFound (pos : Nat) : Statement (.huntSyncFound pos) :=
  of_other rfl (by intros; exact Instr.noConfusion)
theorem huntSyncAbsent : Statement .huntSyncAbsent :=
  of_other rfl (by intros; exact Instr.noConfusion)
theorem frameTaken (fine : Fin 15625) (f : DownFrame) : Statement (.frameTaken fine f) :=
  ⟨fun h _ _ e => by cases e; exact h, fun h => h fine f rfl⟩
theorem syncAbsentFrame : Statement .syncAbsentFrame :=
  of_other rfl (by intros; exact Instr.noConfusion)
theorem bMarker (fine : Fin 15625) (p : Pulse) : Statement (.bMarker fine p) :=
  of_other rfl (by intros; exact Instr.noConfusion)
theorem markerMissingTimeout (r : Ref) : Statement (.markerMissingTimeout r) :=
  of_other rfl (by intros; exact Instr.noConfusion)
theorem markerAbsentTimeout (r : Ref) : Statement (.markerAbsentTimeout r) :=
  of_other rfl (by intros; exact Instr.noConfusion)
theorem revertWaitExpiry : Statement .revertWaitExpiry :=
  of_other rfl (by intros; exact Instr.noConfusion)
theorem upwardFrameStart : Statement .upwardFrameStart :=
  of_other rfl (by intros; exact Instr.noConfusion)
theorem upwardFrameEnd : Statement .upwardFrameEnd :=
  of_other rfl (by intros; exact Instr.noConfusion)
theorem downlinkFrameStart : Statement .downlinkFrameStart :=
  of_other rfl (by intros; exact Instr.noConfusion)
theorem look (u : Uplink) (o : LookOrder) : Statement (.look u o) :=
  of_other rfl (by intros; exact Instr.noConfusion)
theorem quietDeadline (ch : Chan) : Statement (.quietDeadline ch) :=
  of_other rfl (by intros; exact Instr.noConfusion)
theorem cascadeClose (g : Group) : Statement (.cascadeClose g) :=
  of_other rfl (by intros; exact Instr.noConfusion)
theorem incidentHoldEnd : Statement .incidentHoldEnd :=
  of_other rfl (by intros; exact Instr.noConfusion)
theorem startTimeout (u : UnitNo) : Statement (.startTimeout u) :=
  of_other rfl (by intros; exact Instr.noConfusion)
theorem dutyClaim : Statement .dutyClaim :=
  of_other rfl (by intros; exact Instr.noConfusion)
theorem accept : Statement .accept :=
  of_other rfl (by intros; exact Instr.noConfusion)
theorem release : Statement .release :=
  of_other rfl (by intros; exact Instr.noConfusion)
theorem query : Statement .query :=
  of_other rfl (by intros; exact Instr.noConfusion)
theorem windowExpiry : Statement .windowExpiry :=
  of_other rfl (by intros; exact Instr.noConfusion)
theorem releaseExpiry : Statement .releaseExpiry :=
  of_other rfl (by intros; exact Instr.noConfusion)
theorem settleEnd : Statement .settleEnd :=
  of_other rfl (by intros; exact Instr.noConfusion)
theorem replyTimeout : Statement .replyTimeout :=
  of_other rfl (by intros; exact Instr.noConfusion)
theorem readStatus : Statement .readStatus :=
  of_other rfl (by intros; exact Instr.noConfusion)
theorem readTime : Statement .readTime :=
  of_other rfl (by intros; exact Instr.noConfusion)
theorem setTime : Statement .setTime :=
  of_other rfl (by intros; exact Instr.noConfusion)
theorem writeP : Statement .writeP :=
  of_other rfl (by intros; exact Instr.noConfusion)
theorem writeQ : Statement .writeQ :=
  of_other rfl (by intros; exact Instr.noConfusion)
theorem writeStepThreshold : Statement .writeStepThreshold :=
  of_other rfl (by intros; exact Instr.noConfusion)
theorem writeJitterLimit : Statement .writeJitterLimit :=
  of_other rfl (by intros; exact Instr.noConfusion)
theorem writeQualifyCount : Statement .writeQualifyCount :=
  of_other rfl (by intros; exact Instr.noConfusion)
theorem writeBClass : Statement .writeBClass :=
  of_other rfl (by intros; exact Instr.noConfusion)
theorem writeHoldoverDriftBound : Statement .writeHoldoverDriftBound :=
  of_other rfl (by intros; exact Instr.noConfusion)
theorem writeReferencePolicy : Statement .writeReferencePolicy :=
  of_other rfl (by intros; exact Instr.noConfusion)
theorem writeRevertive : Statement .writeRevertive :=
  of_other rfl (by intros; exact Instr.noConfusion)
theorem writeRevertHoldoff : Statement .writeRevertHoldoff :=
  of_other rfl (by intros; exact Instr.noConfusion)
theorem writeBuildOut : Statement .writeBuildOut :=
  of_other rfl (by intros; exact Instr.noConfusion)
theorem writeSearchOnAcquire : Statement .writeSearchOnAcquire :=
  of_other rfl (by intros; exact Instr.noConfusion)
theorem writeStoreDepth : Statement .writeStoreDepth :=
  of_other rfl (by intros; exact Instr.noConfusion)
theorem writeChatterWindow : Statement .writeChatterWindow :=
  of_other rfl (by intros; exact Instr.noConfusion)
theorem writeCascadeWindow : Statement .writeCascadeWindow :=
  of_other rfl (by intros; exact Instr.noConfusion)
theorem writeTripHold : Statement .writeTripHold :=
  of_other rfl (by intros; exact Instr.noConfusion)
theorem writeHandoverWindow : Statement .writeHandoverWindow :=
  of_other rfl (by intros; exact Instr.noConfusion)
theorem writeReleaseLimit : Statement .writeReleaseLimit :=
  of_other rfl (by intros; exact Instr.noConfusion)
theorem writeScheduleMode : Statement .writeScheduleMode :=
  of_other rfl (by intros; exact Instr.noConfusion)
theorem writeLocalOffset : Statement .writeLocalOffset :=
  of_other rfl (by intros; exact Instr.noConfusion)
theorem readParam : Statement .readParam :=
  of_other rfl (by intros; exact Instr.noConfusion)
theorem writeChannel : Statement .writeChannel :=
  of_other rfl (by intros; exact Instr.noConfusion)
theorem readChannel : Statement .readChannel :=
  of_other rfl (by intros; exact Instr.noConfusion)
theorem restartChannel : Statement .restartChannel :=
  of_other rfl (by intros; exact Instr.noConfusion)
theorem writeUnit : Statement .writeUnit :=
  of_other rfl (by intros; exact Instr.noConfusion)
theorem readTally : Statement .readTally :=
  of_other rfl (by intros; exact Instr.noConfusion)
theorem presetTally : Statement .presetTally :=
  of_other rfl (by intros; exact Instr.noConfusion)
theorem writeSchedule : Statement .writeSchedule :=
  of_other rfl (by intros; exact Instr.noConfusion)
theorem readSchedule : Statement .readSchedule :=
  of_other rfl (by intros; exact Instr.noConfusion)
theorem readShift : Statement .readShift :=
  of_other rfl (by intros; exact Instr.noConfusion)
theorem trimSearchStart : Statement .trimSearchStart :=
  of_other rfl (by intros; exact Instr.noConfusion)
theorem trimSearchAbort : Statement .trimSearchAbort :=
  of_other rfl (by intros; exact Instr.noConfusion)
theorem warmRestart : Statement .warmRestart :=
  of_other rfl (by intros; exact Instr.noConfusion)
theorem warmRestartActs : Statement .warmRestartActs :=
  of_other rfl (by intros; exact Instr.noConfusion)
theorem tick : Statement .tick :=
  of_other rfl (by intros; exact Instr.noConfusion)
theorem unknownRequest : Statement .unknownRequest :=
  of_other rfl (by intros; exact Instr.noConfusion)

end Sys2Proof.Laws.Formed
end

