-- ==== Sys2Proof/Laws/Records.lean ====
section
/-! SUPPORT. What making and offering a record leaves: the fields it does not touch, the counts of the current
header, the records that stand in the queue afterwards, and the downlink message that goes with it. -/

namespace Sys2Proof.Machine

variable {s t u : State}

/-! ### Admission, loss and offer -/

@[simp] theorem State.enqueue_tb (r : EventRecord) (s : State) : (s.enqueue r).tb = s.tb := rfl
@[simp] theorem State.enqueue_rm (r : EventRecord) (s : State) : (s.enqueue r).rm = s.rm := rfl
@[simp] theorem State.enqueue_dl (r : EventRecord) (s : State) : (s.enqueue r).dl = s.dl := rfl
@[simp] theorem State.enqueue_sli (r : EventRecord) (s : State) : (s.enqueue r).sli = s.sli := rfl
@[simp] theorem State.enqueue_ubi (r : EventRecord) (s : State) : (s.enqueue r).ubi = s.ubi := rfl
@[simp] theorem State.enqueue_up (r : EventRecord) (s : State) : (s.enqueue r).up = s.up := rfl
@[simp] theorem State.enqueue_down (r : EventRecord) (s : State) : (s.enqueue r).down = s.down := rfl
@[simp] theorem State.enqueue_cm (r : EventRecord) (s : State) : (s.enqueue r).cm = s.cm := rfl
@[simp] theorem State.enqueue_ra (r : EventRecord) (s : State) : (s.enqueue r).ra = s.ra := rfl
@[simp] theorem State.enqueue_ct (r : EventRecord) (s : State) : (s.enqueue r).ct = s.ct := rfl
@[simp] theorem State.enqueue_tu (r : EventRecord) (s : State) : (s.enqueue r).tu = s.tu := rfl
@[simp] theorem State.enqueue_hc (r : EventRecord) (s : State) : (s.enqueue r).hc = s.hc := rfl
@[simp] theorem State.enqueue_ml (r : EventRecord) (s : State) : (s.enqueue r).ml = s.ml := rfl
@[simp] theorem State.enqueue_pending (r : EventRecord) (s : State) : (s.enqueue r).pending = s.pending := rfl
@[simp] theorem State.lose_tb (c : RecClass) (n : Nat) (s : State) : (s.lose c n).tb = s.tb := rfl
@[simp] theorem State.lose_rm (c : RecClass) (n : Nat) (s : State) : (s.lose c n).rm = s.rm := rfl
@[simp] theorem State.lose_dl (c : RecClass) (n : Nat) (s : State) : (s.lose c n).dl = s.dl := rfl
@[simp] theorem State.lose_sli (c : RecClass) (n : Nat) (s : State) : (s.lose c n).sli = s.sli := rfl
@[simp] theorem State.lose_ubi (c : RecClass) (n : Nat) (s : State) : (s.lose c n).ubi = s.ubi := rfl
@[simp] theorem State.lose_up (c : RecClass) (n : Nat) (s : State) : (s.lose c n).up = s.up := rfl
@[simp] theorem State.lose_down (c : RecClass) (n : Nat) (s : State) : (s.lose c n).down = s.down := rfl
@[simp] theorem State.lose_cm (c : RecClass) (n : Nat) (s : State) : (s.lose c n).cm = s.cm := rfl
@[simp] theorem State.lose_ra (c : RecClass) (n : Nat) (s : State) : (s.lose c n).ra = s.ra := rfl
@[simp] theorem State.lose_ct (c : RecClass) (n : Nat) (s : State) : (s.lose c n).ct = s.ct := rfl
@[simp] theorem State.lose_tu (c : RecClass) (n : Nat) (s : State) : (s.lose c n).tu = s.tu := rfl
@[simp] theorem State.lose_hc (c : RecClass) (n : Nat) (s : State) : (s.lose c n).hc = s.hc := rfl
@[simp] theorem State.lose_ml (c : RecClass) (n : Nat) (s : State) : (s.lose c n).ml = s.ml := rfl
@[simp] theorem State.lose_pending (c : RecClass) (n : Nat) (s : State) : (s.lose c n).pending = s.pending := rfl
@[simp] theorem State.offer_tb (r : EventRecord) (s : State) : (s.offer r).tb = s.tb := by
  rcases offer_cases r s with ⟨-, h⟩ | ⟨-, h⟩ <;> rw [h] <;> rfl
@[simp] theorem State.offer_rm (r : EventRecord) (s : State) : (s.offer r).rm = s.rm := by
  rcases offer_cases r s with ⟨-, h⟩ | ⟨-, h⟩ <;> rw [h] <;> rfl
@[simp] theorem State.offer_dl (r : EventRecord) (s : State) : (s.offer r).dl = s.dl := by
  rcases offer_cases r s with ⟨-, h⟩ | ⟨-, h⟩ <;> rw [h] <;> rfl
@[simp] theorem State.offer_sli (r : EventRecord) (s : State) : (s.offer r).sli = s.sli := by
  rcases offer_cases r s with ⟨-, h⟩ | ⟨-, h⟩ <;> rw [h] <;> rfl
@[simp] theorem State.offer_ubi (r : EventRecord) (s : State) : (s.offer r).ubi = s.ubi := by
  rcases offer_cases r s with ⟨-, h⟩ | ⟨-, h⟩ <;> rw [h] <;> rfl
@[simp] theorem State.offer_up (r : EventRecord) (s : State) : (s.offer r).up = s.up := by
  rcases offer_cases r s with ⟨-, h⟩ | ⟨-, h⟩ <;> rw [h] <;> rfl
@[simp] theorem State.offer_down (r : EventRecord) (s : State) : (s.offer r).down = s.down := by
  rcases offer_cases r s with ⟨-, h⟩ | ⟨-, h⟩ <;> rw [h] <;> rfl
@[simp] theorem State.offer_cm (r : EventRecord) (s : State) : (s.offer r).cm = s.cm := by
  rcases offer_cases r s with ⟨-, h⟩ | ⟨-, h⟩ <;> rw [h] <;> rfl
@[simp] theorem State.offer_ra (r : EventRecord) (s : State) : (s.offer r).ra = s.ra := by
  rcases offer_cases r s with ⟨-, h⟩ | ⟨-, h⟩ <;> rw [h] <;> rfl
@[simp] theorem State.offer_ct (r : EventRecord) (s : State) : (s.offer r).ct = s.ct := by
  rcases offer_cases r s with ⟨-, h⟩ | ⟨-, h⟩ <;> rw [h] <;> rfl
@[simp] theorem State.offer_tu (r : EventRecord) (s : State) : (s.offer r).tu = s.tu := by
  rcases offer_cases r s with ⟨-, h⟩ | ⟨-, h⟩ <;> rw [h] <;> rfl
@[simp] theorem State.offer_hc (r : EventRecord) (s : State) : (s.offer r).hc = s.hc := by
  rcases offer_cases r s with ⟨-, h⟩ | ⟨-, h⟩ <;> rw [h] <;> rfl
@[simp] theorem State.offer_ml (r : EventRecord) (s : State) : (s.offer r).ml = s.ml := by
  rcases offer_cases r s with ⟨-, h⟩ | ⟨-, h⟩ <;> rw [h] <;> rfl
@[simp] theorem State.offer_pending (r : EventRecord) (s : State) : (s.offer r).pending = s.pending := by
  rcases offer_cases r s with ⟨-, h⟩ | ⟨-, h⟩ <;> rw [h] <;> rfl
@[simp] theorem State.offer_sh_ring (r : EventRecord) (s : State) : (s.offer r).sh.ring = s.sh.ring := by
  rcases offer_cases r s with ⟨-, h⟩ | ⟨-, h⟩ <;> rw [h] <;> rfl
@[simp] theorem State.offer_sh_number (r : EventRecord) (s : State) : (s.offer r).sh.number = s.sh.number := by
  rcases offer_cases r s with ⟨-, h⟩ | ⟨-, h⟩ <;> rw [h] <;> rfl
@[simp] theorem State.offer_sh_closing (r : EventRecord) (s : State) : (s.offer r).sh.closing = s.sh.closing := by
  rcases offer_cases r s with ⟨-, h⟩ | ⟨-, h⟩ <;> rw [h] <;> rfl
@[simp] theorem State.offer_sh_cut (r : EventRecord) (s : State) : (s.offer r).sh.cut = s.sh.cut := by
  rcases offer_cases r s with ⟨-, h⟩ | ⟨-, h⟩ <;> rw [h] <;> rfl
@[simp] theorem State.offer_sh_openingMissed (r : EventRecord) (s : State) : (s.offer r).sh.openingMissed = s.sh.openingMissed := by
  rcases offer_cases r s with ⟨-, h⟩ | ⟨-, h⟩ <;> rw [h] <;> rfl

/-- An offer leaves the current header set but for its counts. -/
theorem State.offer_sh_current (r : EventRecord) (s : State) :
    ∃ f : Header → Header, (s.offer r).sh.current = s.sh.current.map f ∧
      ∀ h, (f h).start = h.start ∧ (f h).worst = h.worst ∧ (f h).cascades = h.cascades ∧ (f h).units = h.units := by
  rcases offer_cases r s with ⟨-, h⟩ | ⟨-, h⟩ <;> rw [h]
  · exact ⟨_, rfl, fun h => by cases r.cls <;> exact ⟨rfl, rfl, rfl, rfl⟩⟩
  · exact ⟨_, rfl, fun h => by cases r.cls <;> exact ⟨rfl, rfl, rfl, rfl⟩⟩

/-! ### Records that stand in the queue -/

/-- No record has left the queue from `s` to `t`, and what was added stands behind the rest. -/
def Appended (s t : State) : Prop := s.eq.records <+: t.eq.records

theorem Appended.refl (s : State) : Appended s s := List.prefix_rfl
theorem Appended.trans (h : Appended s t) (g : Appended t u) : Appended s u := List.IsPrefix.trans h g
theorem Appended.of_eq (h : t.eq = s.eq) : Appended s t := by unfold Appended; rw [h]
theorem Appended.of_within {l : List Block} (h : Within l s t) (hl : Block.eq ∉ l) : Appended s t :=
  .of_eq (h.out .eq hl)

theorem State.offer_appended (r : EventRecord) (s : State) : Appended s (s.offer r) := by
  rcases offer_cases r s with ⟨-, h⟩ | ⟨-, h⟩ <;> rw [h]
  · exact ⟨_, rfl⟩
  · unfold Appended State.lose; cases r.cls <;> exact List.prefix_rfl

/-- A record that the queue takes stands in it as admitted next. -/
theorem State.offer_admitted {r : EventRecord} (h : s.eq.takes r.cls = true) : s.admittedNext (s.offer r) r := by
  unfold State.admittedNext State.offer
  simp [h, State.enqueue, State.countCurrent, EventQueue.sealRecord]

/-- What stands admitted next stays so as records are appended. -/
theorem State.admittedNext.append {r : EventRecord} (h : s.admittedNext t r) (g : Appended t u) : s.admittedNext u r := by
  obtain ⟨l, g⟩ := g
  unfold State.admittedNext at *
  rw [← g, List.getElem?_append_left (List.getElem?_eq_some_iff.mp h).1]; exact h

/-- What stands admitted next after a state with the same queue. -/
theorem State.admittedNext.of_eq {r : EventRecord} (h : t.admittedNext u r) (e : t.eq = s.eq) : s.admittedNext u r := by
  unfold State.admittedNext at *; rwa [e] at h

/-! ### The downlink messages of a change -/

/-- A message joining the downlink queue leaves the other items of the handover. -/
theorem Handover.enqueue_items (e : Nat) (m : DownMsg) (h : Handover) :
    h.enqueue e m = { h with queue := (h.enqueue e m).queue, tx := (h.enqueue e m).tx } := by
  have f : ∀ e, h.flush e = { h with queue := (h.flush e).queue, tx := (h.flush e).tx } := fun e => by
    unfold Handover.flush; split
    · split <;> rfl
    · rfl
  unfold Handover.enqueue
  dsimp only
  rw [f e]
  split
  · rfl
  · split <;> rfl

theorem State.notice_hc (s : State) :
    s.notice.hc = { s.hc with queue := s.notice.hc.queue, tx := s.notice.hc.tx } := Handover.enqueue_items ..
theorem State.answer_hc (k : DownKind) (m : ConsoleMsg) (s : State) :
    (s.answer k m).hc = { s.hc with queue := (s.answer k m).hc.queue, tx := (s.answer k m).hc.tx } :=
  Handover.enqueue_items ..

/-- A change told of: its record is offered and its notice queued, and nothing else of the handover changes. -/
theorem State.announce_hc (old : HState) (c : HCause) (k : RecClass) (n : Nat) (s : State) :
    (s.announce old c k n).hc =
      { s.hc with queue := (s.announce old c k n).hc.queue, tx := (s.announce old c k n).hc.tx } := by
  unfold State.announce
  exact (State.notice_hc _).trans (by simp)

@[simp] theorem State.notice_tb (s : State) : s.notice.tb = s.tb := rfl
@[simp] theorem State.answer_tb (k : DownKind) (m : ConsoleMsg) (s : State) : (s.answer k m).tb = s.tb := rfl
@[simp] theorem State.notice_rm (s : State) : s.notice.rm = s.rm := rfl
@[simp] theorem State.answer_rm (k : DownKind) (m : ConsoleMsg) (s : State) : (s.answer k m).rm = s.rm := rfl
@[simp] theorem State.notice_dl (s : State) : s.notice.dl = s.dl := rfl
@[simp] theorem State.answer_dl (k : DownKind) (m : ConsoleMsg) (s : State) : (s.answer k m).dl = s.dl := rfl
@[simp] theorem State.notice_sli (s : State) : s.notice.sli = s.sli := rfl
@[simp] theorem State.answer_sli (k : DownKind) (m : ConsoleMsg) (s : State) : (s.answer k m).sli = s.sli := rfl
@[simp] theorem State.notice_ubi (s : State) : s.notice.ubi = s.ubi := rfl
@[simp] theorem State.answer_ubi (k : DownKind) (m : ConsoleMsg) (s : State) : (s.answer k m).ubi = s.ubi := rfl
@[simp] theorem State.notice_up (s : State) : s.notice.up = s.up := rfl
@[simp] theorem State.answer_up (k : DownKind) (m : ConsoleMsg) (s : State) : (s.answer k m).up = s.up := rfl
@[simp] theorem State.notice_down (s : State) : s.notice.down = s.down := rfl
@[simp] theorem State.answer_down (k : DownKind) (m : ConsoleMsg) (s : State) : (s.answer k m).down = s.down := rfl
@[simp] theorem State.notice_cm (s : State) : s.notice.cm = s.cm := rfl
@[simp] theorem State.answer_cm (k : DownKind) (m : ConsoleMsg) (s : State) : (s.answer k m).cm = s.cm := rfl
@[simp] theorem State.notice_eq (s : State) : s.notice.eq = s.eq := rfl
@[simp] theorem State.answer_eq (k : DownKind) (m : ConsoleMsg) (s : State) : (s.answer k m).eq = s.eq := rfl
@[simp] theorem State.notice_ra (s : State) : s.notice.ra = s.ra := rfl
@[simp] theorem State.answer_ra (k : DownKind) (m : ConsoleMsg) (s : State) : (s.answer k m).ra = s.ra := rfl
@[simp] theorem State.notice_ct (s : State) : s.notice.ct = s.ct := rfl
@[simp] theorem State.answer_ct (k : DownKind) (m : ConsoleMsg) (s : State) : (s.answer k m).ct = s.ct := rfl
@[simp] theorem State.notice_tu (s : State) : s.notice.tu = s.tu := rfl
@[simp] theorem State.answer_tu (k : DownKind) (m : ConsoleMsg) (s : State) : (s.answer k m).tu = s.tu := rfl
@[simp] theorem State.notice_sh (s : State) : s.notice.sh = s.sh := rfl
@[simp] theorem State.answer_sh (k : DownKind) (m : ConsoleMsg) (s : State) : (s.answer k m).sh = s.sh := rfl
@[simp] theorem State.notice_ml (s : State) : s.notice.ml = s.ml := rfl
@[simp] theorem State.answer_ml (k : DownKind) (m : ConsoleMsg) (s : State) : (s.answer k m).ml = s.ml := rfl
@[simp] theorem State.notice_pending (s : State) : s.notice.pending = s.pending := rfl
@[simp] theorem State.answer_pending (k : DownKind) (m : ConsoleMsg) (s : State) : (s.answer k m).pending = s.pending := rfl
@[simp] theorem State.announce_tb (old : HState) (c : HCause) (k : RecClass) (n : Nat) (s : State) :
    (s.announce old c k n).tb = s.tb := by simp [State.announce]
@[simp] theorem State.announce_rm (old : HState) (c : HCause) (k : RecClass) (n : Nat) (s : State) :
    (s.announce old c k n).rm = s.rm := by simp [State.announce]
@[simp] theorem State.announce_dl (old : HState) (c : HCause) (k : RecClass) (n : Nat) (s : State) :
    (s.announce old c k n).dl = s.dl := by simp [State.announce]
@[simp] theorem State.announce_sli (old : HState) (c : HCause) (k : RecClass) (n : Nat) (s : State) :
    (s.announce old c k n).sli = s.sli := by simp [State.announce]
@[simp] theorem State.announce_ubi (old : HState) (c : HCause) (k : RecClass) (n : Nat) (s : State) :
    (s.announce old c k n).ubi = s.ubi := by simp [State.announce]
@[simp] theorem State.announce_up (old : HState) (c : HCause) (k : RecClass) (n : Nat) (s : State) :
    (s.announce old c k n).up = s.up := by simp [State.announce]
@[simp] theorem State.announce_down (old : HState) (c : HCause) (k : RecClass) (n : Nat) (s : State) :
    (s.announce old c k n).down = s.down := by simp [State.announce]
@[simp] theorem State.announce_cm (old : HState) (c : HCause) (k : RecClass) (n : Nat) (s : State) :
    (s.announce old c k n).cm = s.cm := by simp [State.announce]
@[simp] theorem State.announce_ra (old : HState) (c : HCause) (k : RecClass) (n : Nat) (s : State) :
    (s.announce old c k n).ra = s.ra := by simp [State.announce]
@[simp] theorem State.announce_ct (old : HState) (c : HCause) (k : RecClass) (n : Nat) (s : State) :
    (s.announce old c k n).ct = s.ct := by simp [State.announce]
@[simp] theorem State.announce_tu (old : HState) (c : HCause) (k : RecClass) (n : Nat) (s : State) :
    (s.announce old c k n).tu = s.tu := by simp [State.announce]
@[simp] theorem State.announce_ml (old : HState) (c : HCause) (k : RecClass) (n : Nat) (s : State) :
    (s.announce old c k n).ml = s.ml := by simp [State.announce]
@[simp] theorem State.announce_pending (old : HState) (c : HCause) (k : RecClass) (n : Nat) (s : State) :
    (s.announce old c k n).pending = s.pending := by simp [State.announce]
@[simp] theorem State.announce_sh_ring (old : HState) (c : HCause) (k : RecClass) (n : Nat) (s : State) :
    (s.announce old c k n).sh.ring = s.sh.ring := by simp [State.announce]
@[simp] theorem State.announce_sh_number (old : HState) (c : HCause) (k : RecClass) (n : Nat) (s : State) :
    (s.announce old c k n).sh.number = s.sh.number := by simp [State.announce]
@[simp] theorem State.announce_sh_closing (old : HState) (c : HCause) (k : RecClass) (n : Nat) (s : State) :
    (s.announce old c k n).sh.closing = s.sh.closing := by simp [State.announce]
@[simp] theorem State.announce_sh_cut (old : HState) (c : HCause) (k : RecClass) (n : Nat) (s : State) :
    (s.announce old c k n).sh.cut = s.sh.cut := by simp [State.announce]
@[simp] theorem State.announce_sh_openingMissed (old : HState) (c : HCause) (k : RecClass) (n : Nat) (s : State) :
    (s.announce old c k n).sh.openingMissed = s.sh.openingMissed := by simp [State.announce]

theorem State.announce_appended (old : HState) (c : HCause) (k : RecClass) (n : Nat) (s : State) :
    Appended s (s.announce old c k n) := State.offer_appended ..

/-- The HANDOVER record of a change told of stands in the queue when the queue takes its class. -/
theorem State.announce_admitted {old : HState} {c : HCause} {k : RecClass} {n : Nat} (h : s.eq.takes k = true) :
    s.admittedNext (s.announce old c k n)
      (mkRecord .handover k n (hStateCode old) (hStateCode s.hc.state) (hCauseCode c) s.tb.now) :=
  State.offer_admitted (r := mkRecord .handover k n (hStateCode old) (hStateCode s.hc.state) (hCauseCode c) s.tb.now) h

/-- With no message in transmission and room in the queue, a message is appended. -/
theorem Handover.enqueue_room {e : Nat} {m : DownMsg} {h : Handover} (a : h.tx = none) (b : h.queue.length < 4) :
    h.enqueue e m = { h with queue := h.queue ++ [m] } := by
  simp [Handover.enqueue, Handover.flush, a, b]

/-! ### Operations that only append records -/

theorem Appended.onHc {f : Handover → Handover} (h : Appended (s.onHc f) t) : Appended s t := h
theorem Appended.onCt {f : Cascades → Cascades} (h : Appended (s.onCt f) t) : Appended s t := h
theorem Appended.onUnit {n : UnitNo} {f : GenUnit → GenUnit} (h : Appended (s.onUnit n f) t) : Appended s t := h
theorem Appended.onDl {f : Loop → Loop} (h : Appended (s.onDl f) t) : Appended s t := h
theorem Appended.onRef {r : Ref} {f : RefState → RefState} (h : Appended (s.onRef r f) t) : Appended s t := h
theorem Appended.ite {p : Prop} [Decidable p] (h : Appended s t) (g : Appended s u) :
    Appended s (if p then t else u) := by
  split <;> assumption

theorem takeCut_appended (k : CloseKind) (c : HCause) (e : Nat) (s : State) : Appended s (s.takeCut k c e) :=
  State.announce_appended (s := s.makeCut k e) ..

theorem holdAtBoundary_appended (x : Resume) (r : Nat) (s : State) : Appended s (s.holdAtBoundary x r) :=
  Appended.onHc (State.announce_appended ..)

theorem openWindow_appended (r : Nat) (s : State) : Appended s (s.openWindow r) := by
  unfold State.openWindow
  exact .ite (holdAtBoundary_appended ..) (Appended.onHc (State.announce_appended ..))

theorem cutAtBoundary_appended (k : CloseKind) (x : Resume) (r : Nat) (s : State) :
    Appended s (s.cutAtBoundary k x r) :=
  .ite (holdAtBoundary_appended ..) (takeCut_appended ..)

theorem actBoundary_appended (b : BoundaryId) (r : Nat) (s : State) : Appended s (s.actBoundary b r) := by
  unfold State.actBoundary
  split
  · exact .ite (Appended.onHc (cutAtBoundary_appended ..)) (.refl _)
  · exact .refl _
  · exact Appended.onHc (openWindow_appended ..)
  · exact Appended.onHc (cutAtBoundary_appended ..)
  · exact Appended.onHc (.refl _)
  · exact Appended.onHc (.refl _)
  · exact Appended.onHc (.refl _)
  · exact Appended.onHc (openWindow_appended ..)
  · exact Appended.onHc (.refl _)
  · exact Appended.onHc (.refl _)

theorem evaluate_appended (s : State) : Appended s s.evaluate := by
  unfold State.evaluate
  dsimp only
  split
  · exact .refl _
  · exact .ite (.refl _) (Appended.onHc (actBoundary_appended ..))

theorem onLocalTime_appended (b : Bool) (s : State) : Appended s (s.onLocalTime b) :=
  .ite (.refl _) (.ite (Appended.onHc (.refl _)) (evaluate_appended _))

theorem incidentBegins_appended (s : State) : Appended s s.incidentBegins := by
  unfold State.incidentBegins State.holdAtIncident
  split <;> first | exact Appended.onHc (State.announce_appended ..) | exact .refl _

theorem resumeTo_appended (x : HState) (y : HTimer) (s : State) : Appended s (s.resumeTo x y) :=
  Appended.onHc (State.announce_appended ..)

theorem incidentEnds_appended (s : State) : Appended s s.incidentEnds := by
  unfold State.incidentEnds
  split
  · dsimp only
    split
    · exact Appended.onHc (resumeTo_appended ..)
    · exact Appended.onHc (resumeTo_appended ..)
    · exact Appended.onHc (resumeTo_appended ..)
    · exact Appended.onHc (Appended.onHc (takeCut_appended ..))
    · exact Appended.onHc (Appended.onHc (takeCut_appended ..))
    · exact Appended.onHc (.refl _)
  all_goals exact .refl _

theorem evalIncident_appended (s : State) : Appended s s.evalIncident := by
  unfold State.evalIncident
  split
  · exact Appended.onCt (incidentBegins_appended _)
  · exact Appended.onCt (incidentEnds_appended _)
  · exact .refl _
  · exact .refl _

theorem leaveSettling_appended (k : CloseKind) (x : Nat) (s : State) : Appended s (s.leaveSettling k x) := by
  unfold State.leaveSettling
  dsimp only
  split
  · exact Appended.onHc (State.announce_appended ..)
  · exact (Appended.onHc (State.announce_appended ..)).trans (Appended.onHc (actBoundary_appended ..))

theorem failAttempt_appended (n : UnitNo) (r : FailReason) (a b : UnitMode) (x : Stamp) (s : State) :
    Appended s (s.failAttempt n r a b x) := by
  unfold State.failAttempt
  split
  · exact .refl _
  · exact Appended.onUnit (State.offer_appended ..)

theorem eventChange_appended (n : UnitNo) (m : UnitMode) (s : State) : Appended s (s.eventChange n m) := by
  unfold State.eventChange
  exact .ite (.refl _) (Appended.onUnit (failAttempt_appended ..))

theorem reportClass_appended (q : Quality) (s : State) : Appended s (s.reportClass q) :=
  .ite (.refl _) (State.offer_appended ..)

theorem setMode_appended (m : TbMode) (a : Option Ref) (c : TbCause) (s : State) : Appended s (s.setMode m a c) := by
  have d : Appended s (s.dropSetting m) := .of_within (dropSetting_within ..) (by decide)
  exact .ite (.refl _) (d.trans (Appended.onDl (State.offer_appended ..)))

theorem abortSearch_appended (s : State) : Appended s s.abortSearch := by
  unfold State.abortSearch
  split
  · exact .refl _
  · next x _ =>
    exact Appended.trans (t := State.writeTrim x.savedT (State.onDl _ s)) (.of_eq rfl) (State.offer_appended ..)

theorem follow_appended (r : Ref) (m : TbMode) (b : Int) (c : TbCause) (s : State) : Appended s (s.follow r m b c) :=
  Appended.onRef (Appended.onDl (setMode_appended ..))

theorem testRevert_appended (s : State) : Appended s s.testRevert := by
  unfold State.testRevert
  split
  · exact .ite (follow_appended ..) (.refl _)
  · exact .refl _

theorem endSearch_appended (s : State) : Appended s s.endSearch :=
  .ite ((abortSearch_appended s).trans (testRevert_appended _)) (.refl _)

theorem followNone_appended (c : TbCause) (s : State) : Appended s (s.followNone c) :=
  Appended.trans (setMode_appended ..) (.of_eq rfl)

theorem activeLost_appended (r : Ref) (s : State) : Appended s (s.activeLost r) := by
  unfold State.activeLost
  exact (abortSearch_appended s).trans (.ite (follow_appended ..) (followNone_appended ..))

/-! ### Stamps -/

/-- A stamp carries the elapsed stamp it was formed from. -/
@[simp] theorem stampOf_elapsed (v : StationVals) (e : Nat) : (stampOf v e).elapsed = e := by
  unfold stampOf; split <;> rfl

/-! ### Cuts -/

/-- The handover items that a cut leaves (R154). -/
theorem takeCut_hc (k : CloseKind) (c : HCause) (e : Nat) (s : State) :
    (s.takeCut k c e).hc =
      { s.hc.cut e with queue := (s.takeCut k c e).hc.queue, tx := (s.takeCut k c e).hc.tx } := by
  unfold State.takeCut
  exact (State.announce_hc ..).trans (by simp [State.makeCut, State.noteCut])

/-- The cut that the Shift History notes (R161). -/
theorem takeCut_cut (k : CloseKind) (c : HCause) (e : Nat) (s : State) :
    (s.takeCut k c e).sh.cut =
      some { stamp := stampOf s.tb.vals e, kind := k, outgoing := s.hc.duty, incoming := s.hc.incoming,
             boundary := s.hc.boundary, missed := s.hc.missed, heldTicks := s.hc.heldTicks } := by
  simp [State.takeCut, State.makeCut, State.noteCut]

end Sys2Proof.Machine
end

