-- ==== Sys2Proof/Tests/Slice0.lean ====
section
/-! SUPPORT. Tests of the model against figures of the spec, and for each statement with hypotheses a state and
operands that meet them. -/

namespace Sys2Proof.Tests

open Sys2Proof Sys2Proof.Machine

-- The kernel evaluates each test as it is read: hundreds of them waiting at once would each hold a thread.
set_option Elab.async false

/-! ### Small states -/

/-- The state that a command leaves; every command answers one. -/
def after (c : Instr) (s : State) : State :=
  match exec c s with
  | .next t => t
  | _ => State.reset

/-- The reset state at E `e` with local offset Δ `delta`, time set, 41 changes of offset and class TQ1. -/
def at_ (e : Nat) (delta : Int) : State :=
  { State.reset with tb := { State.reset.tb with e := e, delta := delta, unset := false, stepCount := 41, u := 1300,
                                                 quality := 1 } }

/-- A complete request waits. -/
def ask (l : List Octet) (s : State) : State := { s with ml := { s.ml with request := .complete l } }

/-- The reply after a command has executed a waiting request. -/
def replyOf (c : Instr) (l : List Octet) (s : State) : List Octet := (after c (ask l s)).ml.reply

/-- A reference that is QUALIFIED, with its last marker one second back. -/
def goodRef (e : Nat) (err : Int) : RefState :=
  { RefState.reset with qual := .qualified, count := 8, lastMarker := some (e - 64000), lastErr := some err,
                        qualifiedSince := some (e - 64000) }

/-- B is followed at E `e`, 16 ticks after a local second boundary. -/
def onB (mode : TbMode) (e : Nat) : State :=
  { at_ e (16 - e) with
    rm := { State.reset.rm with b := goodRef e 0 }
    dl := { State.reset.dl with mode := mode, active := some .b, everLocked := mode == .locked } }

/-- A pulse that the filter takes. -/
def pulse : Pulse := { lowNs := 1000, highNs := 1000 }

/-- A frame with the given flags, time octet and management field. -/
def frame (flags time mgmt control : Octet) : DownFrame :=
  { sync0 := 0x1B#8, sync1 := 0xA7#8, flags := flags, time := time, mgmt := mgmt, control := control,
    commands := Vector.replicate 24 0x5A#8 }

/-- The link is IN_FRAME. -/
def inFrame (s : State) : State :=
  { s with sli := { s.sli with alignment := .inFrame, expected := some 7680, upTiming := .loop } }

/-- An uplink with every channel at one status octet and no console request. -/
def uplink (o : Octet) : Uplink :=
  { status := Vector.replicate 24 o, requests := 0xFF#8, console0 := 0xFF#8, console1 := 0xFF#8 }

/-- Looks in the one order. -/
def plain : LookOrder := { consoleFirst := false, openingFirst := false }

/-- A monitored channel with a role. -/
def channel (role : Role) (g : Group) (latency : Nat) : Channel :=
  { Channel.reset with entry := { enabled := true, role := role, group := g, tripSet := 2#16, latency := latency,
                                  chatterLimit := 4 },
                       presence := .present, valid := some 0 }

/-- One channel placed. -/
def withChannel (ch : Chan) (x : Channel) (s : State) : State := { s with cm := s.cm.set ch.val x ch.isLt }

/-- One unit placed. -/
def withUnit (u : UnitNo) (x : GenUnit) (s : State) : State := { s with tu := s.tu.set u.val x u.isLt }

/-- The handover items replaced. -/
def withHc (h : Handover) (s : State) : State := { s with hc := h }

/-- The mode map of the worked examples: codes 0 to 6 in the mode order, the others UNKNOWN. -/
def plainMap : Vector UnitMode 16 := Vector.ofFn fun k => (modeOfNat k.val).getD .unknown

/-- Kinds of the records in the EQ. -/
def kinds (s : State) : List RecKind := s.eq.records.map (·.kind)

/-! ### Well-formedness and decoding -/

/-- A FRAME_TAKEN without its sync is ill formed, one with it is well formed (R52). -/
theorem test_wellFormed_frame_needs_sync :
    Instr.wellFormed (.frameTaken 0 { frame 0 0 0 0 with sync1 := 0xA6#8 }) = false ∧
      Instr.wellFormed (.frameTaken 0 (frame 0 0 0 0)) = true := by decide

/-- No row of the table has bits: no word spells a command. -/
theorem test_decode_none : decodeTableWord 8 3 = none ∧ decodeTableWord 0 0 = none := by decide

/-- A step takes the front command and keeps the rest. -/
theorem test_step_front :
    (match step (State.reset.withPending [.tick, .look (uplink 0) plain]) with
      | .next t => (t.tb.e, t.pending.length)
      | _ => (0, 0)) = (1, 1) := by decide

/-! ### Timebase (worked examples of chapter 1) -/

/-- The whole-second step: Δ, station time and the TIME_STEP record at E_a = 3,200,016. -/
def stepExample : State :=
  let s := at_ 3200016 48472956799995
  { s with tb := { s.tb with pendingStep := some { amount := 64001, applyAt := 3200016, residual := 7807 } } }

theorem test_step_application :
    let t := after .stepApplication stepExample
    t.tb.delta = 48472956863996 ∧ t.tb.stepCount = 42 ∧ t.tb.pendingStep = none ∧
      t.eq.records.map (fun r => (r.kind, r.aux, r.stamp.seconds, r.stamp.tick, r.stamp.stepCount)) =
        [(.timeStep, 32767, 757390001, 12, 42)] := by decide +kernel

/-- A step clamped at zero while time is unset: Δ, the step count and the unset flag. -/
theorem test_step_clamped_at_zero :
    let s := State.reset
    let t := after .stepApplication
      { s with tb := { s.tb with e := 192016,
                                 pendingStep := some { amount := -192300, applyAt := 192016, residual := 0 } }
               dl := { s.dl with mode := .acquiring, active := some .b } }
    t.tb.delta = -192016 ∧ t.tb.stepCount = 1 ∧ t.tb.unset = false ∧ t.tb.u = 10000 := by decide +kernel

/-- The first setting by SET_TIME at the boundary 5,056,000: Δ, U, the class and the records in order. -/
theorem test_boundary_applies_setting :
    let s := State.reset
    let t := after .localSecondBoundary
      { s with tb := { s.tb with e := 5056000, pendingSetting := some { seconds := 757390000, accuracy := 50000 } } }
    t.tb.delta = 48472954944000 ∧ t.tb.u = 50000 ∧ t.tb.quality = 2 ∧ t.tb.stepCount = 1 ∧
      kinds t = [.timeSet, .quality] := by decide +kernel

/-- U grows by 50,000 ns a second in FREE_RUN: 100,000 ns keeps TQ2, 150,000 ns is TQ3. -/
theorem test_boundary_free_run :
    let f := fun u : Nat =>
      let s := at_ 5120000 48472954944000
      after .localSecondBoundary { s with tb := { s.tb with u := u, quality := 2 } }
    (f 50000).tb.u = 100000 ∧ (f 50000).tb.quality = 2 ∧ kinds (f 50000) = [] ∧
      (f 100000).tb.u = 150000 ∧ (f 100000).tb.quality = 3 ∧ kinds (f 100000) = [.quality] := by decide +kernel

/-- A tick before second 0 has second −1 by floor division, which a field carries as 0 (R8, R187). -/
theorem test_before_second_zero : stationSeconds (-1) = 0 ∧ stationSeconds 63999 = 0 ∧ stationSeconds 64000 = 1 := by decide

/-- A tick at nominal rate; with +200,000 ppb the carried fraction grows by 0.0002 tick. -/
theorem test_tick :
    let s := State.reset
    (after .tick s).tb.e = 1 ∧ (after .tick s).tb.fraction = 0 ∧
      (after .tick { s with tb := { s.tb with trim := 200000 } }).tb.fraction = 200000 := by decide

/-! ### References and loop (tables of chapter 2) -/

/-- Loop computations of chapter 2: floors of ∓344 ns and the clamp of I before T. -/
theorem test_loop_computation :
    let f := fun (i x : Int) =>
      let t := ({ State.reset with dl := { State.reset.dl with integral := i } } : State).runLoop x
      (t.dl.integral, t.tb.pendingTrim)
    f 1200 (-344) = (1198, 1155) ∧ f 1200 344 = (1201, 1244) ∧ f 199990 4000 = (200000, 200000) := by decide +kernel

/-- Step amounts and residuals of chapter 2. -/
theorem test_step_amounts :
    (stepAmount 0 23432, stepResidual 23432) = (1, 7807) ∧ stepAmount 1 23432 = 64001 ∧
      (stepAmount 0 (-23440), stepResidual (-23440)) = (-2, 7810) ∧
      (stepAmount 0 7816, stepResidual 7816) = (1, -7809) := by decide

/-- The switch to B with build-out on when A's markers stop: b = 41,600 − 1,200, mode LOCKED, two records. -/
theorem test_marker_missing_switches :
    let e := 6400736000
    let s := at_ e 0
    let t := after (.markerMissingTimeout .a)
      { s with rm := { s.rm with a := { goodRef e 1200 with lastMarker := some 6400640000 }, b := goodRef e 41600 }
               dl := { s.dl with mode := .locked, active := some .a, everLocked := true } }
    t.rm.a.qual = .faulted ∧ t.rm.a.fault = .missing ∧ t.dl.active = some .b ∧ t.dl.mode = .locked ∧
      t.rm.b.buildOut = 40400 ∧ kinds t = [.refState, .timebase] := by decide +kernel

/-- The next marker of B of the same example: e_B = 41,720 on build-out 40,400 gives I = 1,203 and T = 1,368. -/
theorem test_bMarker_runs_loop :
    let s := onB .locked 64000016
    let t := after (.bMarker 5155 pulse)
      { s with tb := { s.tb with delta := -64000019 }
               rm := { s.rm with b := { s.rm.b with lastErr := some 41600, buildOut := 40400 } }
               dl := { s.dl with integral := 1198 } }
    t.rm.b.lastErr = some 41720 ∧ t.dl.integral = 1203 ∧ t.tb.pendingTrim = 1368 := by decide +kernel

/-- A marker in ABSENT opens QUALIFYING (R28); 3 s without one make it ABSENT again (R28). -/
theorem test_marker_opens_reference :
    let t := after (.bMarker 0 pulse) (at_ 64016 (-64000))
    t.rm.b.qual = .qualifying ∧ t.rm.b.lastErr = some (-250000) ∧
      (after (.markerAbsentTimeout .b) { t with tb := { t.tb with e := 256016 } }).rm.b.qual = .absent := by
  decide +kernel

/-- REVERT_WAIT_EXPIRY: at qualified-since + 60 s A becomes active with the mode kept (R42). -/
theorem test_revert :
    let s := onB .locked 64000016
    let f := fun since : Nat =>
      after .revertWaitExpiry
        { s with rm := { s.rm with a := { goodRef 64000016 0 with qualifiedSince := some since } } }
    (f 60160016).dl.active = some .a ∧ (f 60160016).dl.mode = .locked ∧ (f 60160017).dl.active = some .b := by
  decide +kernel

/-! ### Link, stores and unit bus (chapter 3) -/

/-- Three syncs 768 bits apart bring IN_FRAME; a failed candidate resumes one bit after it began (R51). -/
theorem test_hunt :
    let t := after (.huntSyncFound 868) (after (.huntSyncFound 100) State.reset)
    (after (.huntSyncFound 1636) t).sli.alignment = .inFrame ∧ (after .huntSyncAbsent t).sli.searchFrom = 101 ∧
      (after .huntSyncAbsent t).sli.hunt = .searching := by decide +kernel

/-- The fourth absent sync in a row enters LOF (R53, R54). -/
theorem test_sync_absent :
    let f := fun n : Nat => after .syncAbsentFrame (let s := inFrame (at_ 64 0); { s with sli := { s.sli with missing := n } })
    (f 2).sli.alignment = .inFrame ∧ (f 2).down.frames.getLast? = some onesFrame ∧ (f 3).sli.alignment = .lof ∧
      (f 3).sli.upTiming = .elapsed := by decide +kernel

/-- A frame taken goes to the downward store, and its time octet 0xC5 begins the time message (R25, R52). -/
theorem test_frame_taken :
    let t := after (.frameTaken 0 (frame 0 0xC5 0xFF 0)) (inFrame (at_ 64 0))
    t.rm.assembly = [0xC5#8] ∧ t.down.frames.length = 5 ∧ t.sli.upDue = some 66 ∧ t.sli.expected = some 8448 := by
  decide +kernel

/-- The worked example of time distribution: the frame at 3,200,000 has second-start offset 5, and its message names station
second 757,390,000, TQ1 and step count 41. -/
theorem test_downlink :
    let t := after .downlinkFrameStart (at_ 3200000 48472956799995)
    t.ubi.frame.map (·.flags) = some 197#8 ∧
      t.ubi.distribution.take 7 = natOctets 5 757390000 ++ [1#8, 41#8] := by decide +kernel

/-- The high mark of a full store: the ninth frame slips DROPPED (R63). -/
theorem test_store_slip :
    let s := at_ 64 0
    let t := ({ s with up := { s.up with frames := List.replicate 8 onesFrame } } : State).writeStore .up onesFrame
    t.up.frames.length = 8 ∧ t.up.slips = 1 ∧ t.eq.records.map (fun r => (r.kind, r.source, r.old, r.new, r.aux)) =
      [(.slip, 0, 0, 1, 0)] := by decide +kernel

/-- A record of the given class. -/
def plainRecord (c : RecClass) (e : Nat) : EventRecord := mkRecord .timeSet c 0 0 0 0 (stampOf State.reset.tb.vals e)

/-- The report slot of chapter 5's example at frames 8, 9, 18, 19 and 40: who may start. -/
theorem test_report_slot_choice :
    let q : EventQueue := { State.reset.eq with records := [plainRecord .b 1, plainRecord .a 2] }
    let onlyB : EventQueue := { State.reset.eq with records := [plainRecord .b 1] }
    let ra := fun (a b : Level) (idle : Nat) (last : Option RecClass) =>
      ({ State.reset.ra with levelA := a, levelB := b, idle := idle, lastSender := last } : Arbiter)
    startingClass onlyB (ra .normal .normal 6 none) = some .b ∧
      startingClass q (ra .normal .lowered 0 (some .b)) = none ∧
      startingClass q (ra .normal .lowered 1 (some .b)) = some .a ∧
      startingClass onlyB (ra .lowered .normal 1 (some .a)) = none ∧
      startingClass onlyB (ra .lowered .normal 2 (some .a)) = some .b := by decide +kernel

/-- An upward frame with a class B record to send: Record-start in frame 1, and after frame 8 the record is gone (R103). -/
theorem test_upward_frame :
    let s := at_ 64 0
    let t := after .upwardFrameStart
      { s with ra := { s.ra with idle := 6 }, eq := { s.eq with records := [plainRecord .b 1] } }
    t.sli.up.map (fun u => (u.frame.recordStart, u.frame.report0)) = some (0x80#8, 0xB8#8) ∧
      (let x := { t with ra := { t.ra with sending := t.ra.sending.map fun y => { y with frames := 8 } }
                         tb := { t.tb with e := 80 } }
       let u := after .upwardFrameEnd x
       u.eq.records = [] ∧ u.ra.levelB = .lowered ∧ u.ra.lastSender = some .b) := by decide +kernel

/-- A SLIP record that the frame's own read brings to 480 shows in its status octet; the frame begins with the sync (R57, R186). -/
theorem test_upward_status :
    let s := at_ 64 0
    let t := after .upwardFrameStart
      { s with up := { s.up with frames := [] }, eq := { s.eq with records := List.replicate 479 (plainRecord .a 1) } }
    t.sli.up.map (fun u => (u.frame.octets.take 3, u.frame.octets.length)) = some ([0x1B#8, 0xA7#8, 0x26#8], 96) := by
  decide +kernel

/-- A class change of the frame's start tick that is taken after the start comes into its status octet, TQ1 to TQ2 here, and
one of the next tick does not (R57). -/
theorem test_upward_status_settles :
    let s := after .upwardFrameStart { at_ 128000 0 with tb := { (at_ 128000 0).tb with u := 9000 } }
    let f := fun s : State => (after .tick s).sli.up.map (·.frame.status)
    let later : State := after .tick s
    f (after .localSecondBoundary s) = some 0x44#8 ∧
      f { later with tb := { later.tb with quality := 2 } } = some 0x24#8 := by decide +kernel

/-! ### Channels (worked examples of chapter 4) -/

/-- Dating across a second boundary: elapsed stamp 1,279,966, station stamp 757,382,399 / 63,956. -/
theorem test_look_dates_change :
    let k : Candidate := { code := 9, age := 10, frame := 1280016,
                           vals := { delta := 48472472319990, unset := false, stepCount := 17, quality := 1 } }
    let t := after (.look (uplink 0x90#8) plain)
      (withChannel 3 { channel .status 0 40 with candidate := some k } (at_ 1280032 48472472319990))
    t.cm[3].valid = some 9 ∧ t.eq.records.map (fun r => (r.stamp.elapsed, r.stamp.seconds, r.stamp.tick, r.stamp.stepCount)) =
      [(1279966, 757382399, 63956, 17)] := by decide +kernel

/-- Two no-device looks make a channel ABSENT (R76). -/
theorem test_look_absent :
    let t := after (.look (uplink 0xFF#8) plain)
      (withChannel 3 { channel .status 0 40 with runCount := 1, runStart := some { frame := 16, vals := State.reset.tb.vals } }
        (at_ 32 0))
    t.cm[3].presence = .absent ∧ t.cm[3].valid = none ∧ kinds t = [.channelLost] := by decide +kernel

/-- The chattering contact, seconds 106 to 119: entry, a suppressed change, and the quiet deadline. -/
theorem test_chatter :
    let x : Channel := { channel .status 0 0 with valid := some 3, recent := [6400000, 6528000, 6656000], floor := 6656000 }
    let k := fun (e : Nat) (c : Code) =>
      ({ code := c, age := 0, frame := e, vals := State.reset.tb.vals } : Candidate)
    let t := ((withChannel 3 x (at_ 6784016 0)).validate 3 (k 6784000 2)).1
    let u := (t.validate 3 (k 6848000 3)).1
    let v := after (.quietDeadline 3) { u with tb := { u.tb with e := 7488000 } }
    kinds t = [.chatterOn] ∧ t.cm[3].chatter.map (·.deadline) = some 7424000 ∧
      u.cm[3].suppressed = 1 ∧ u.cm[3].chatter.map (·.deadline) = some 7488000 ∧
      (v.eq.records.map (fun r => (r.kind, r.old, r.new, r.aux, r.stamp.elapsed))).getLast? =
        some (.chatterOff, 2, 3, 1, 6848000) ∧ v.cm[3].chatter = none := by decide +kernel

/-! ### Cascades (worked example of chapter 6) -/

/-- A unit in a mode since a stamp, with its earlier mode. -/
def unitIn (m : UnitMode) (since : Nat) (before : UnitMode) : GenUnit :=
  { GenUnit.reset with enabled := true, modeMap := plainMap, mode := m, entry := since,
                       history := [(m, since), (before, 9000000)] }

/-- A cascade of unit 3 opened by channel 11 and joined by channel 10 with an earlier stamp. -/
def cascadeExample : State :=
  let v := State.reset.tb.vals
  let s := withUnit 3 (unitIn .stopping 9600700 .generating) (at_ 9613132 0)
  { s with ct := { s.ct with incident := true, slots := s.ct.slots.set 3 (some
      { close := 9613132, members := [{ channel := 11, stamp := 9600012, vals := v },
                                      { channel := 10, stamp := 9599998, vals := v }] }) } }

theorem test_cascade_close :
    let t := after (.cascadeClose 3) cascadeExample
    t.eq.records.map (fun r => (r.kind, r.source, r.old, r.new, r.aux, r.stamp.elapsed)) =
        [(.cascade, 3, 3, 10, 2, 9599998)] ∧
      t.tu[3].trips = 1 ∧ t.tu[3].loadTrips = 1 ∧ t.ct.holdEnd = some 48013132 ∧ t.ct.incident = true := by decide +kernel

/-- The incident ends when E reaches the hold end, and not before. -/
theorem test_incident_hold_end :
    let f := fun e : Nat =>
      let s := at_ e 0
      after .incidentHoldEnd { s with ct := { s.ct with incident := true, holdEnd := some 48026237 } }
    (f 48026236).ct.incident = true ∧ (f 48026237).ct.incident = false ∧ (f 48026237).ct.holdEnd = none := by
  decide +kernel

/-- The opening: close time 9,600,012 + 13,120. -/
theorem test_cascade_opens :
    let t := (at_ 9600032 0).takeTrips 3
      [{ channel := 11, old := some 0, new := 1, stamp := 9600012, vals := State.reset.tb.vals }]
    t.ct.slots[3].map (·.close) = some 9613132 ∧ t.ct.incident = true := by decide +kernel

/-! ### Units (worked examples of chapter 7) -/

/-- The second attempt's expiry at 4,300 s: START_FAIL, TIMEOUT, SPIN to SPIN. -/
theorem test_start_timeout :
    let x := { unitIn .spin 257920000 .starting with
               attempt := some { start := 256000000, expiry := 275200000 }, starts := 2, successes := 1 }
    let t := after (.startTimeout 2) (withUnit 2 x (at_ 275200000 0))
    t.tu[2].attempt = none ∧ t.tu[2].failures = 1 ∧
      t.eq.records.map (fun r => (r.kind, r.source, r.old, r.new, r.aux)) = [(.startFail, 2, 2, 2, 0)] := by
  decide +kernel

/-- The change to PUMPING at 1,290 s: SPIN is credited 250 s and the attempt closes successful. -/
theorem test_source_change :
    let x := { unitIn .spin 66560000 .starting with
               attempt := some { start := 64000000, expiry := 83200000 }, starts := 1 }
    let t := (withChannel 6 { channel .mode 2 0 with valid := some 4 } (withUnit 2 x (at_ 82560016 0))).sourceChange 2
      82560000 State.reset.tb.vals
    t.tu[2].mode = .pumping ∧ t.tu[2].buckets[(2 : Fin 8)] = 16000000 ∧ t.tu[2].successes = 1 ∧ t.tu[2].attempt = none := by
  decide +kernel

/-! ### Handover and shifts (worked examples of chapters 8, 9 and 12) -/

/-- A shift is open with console 1 on duty. -/
def onShift (s : State) : State :=
  { s with hc := { s.hc with state := .onShift, shiftOpen := true, duty := some 0 },
           sh := { s.sh with current := some (Header.fresh (stampOf s.tb.vals 16) fun _ => false) } }

/-- A console message has arrived at this tick. -/
def arrived (k : ConsoleKind) (c : Console) (s : State) : State :=
  { s with hc := { s.hc with arrived := some { kind := k, console := c, tag := 7, arrival := s.tb.e } } }

/-- A handover state with its timer. -/
def handing (state : HState) (timer : HTimer) (incoming : Option Console) (s : State) : State :=
  let t := onShift s
  { t with hc := { t.hc with state := state, timer := timer, incoming := incoming } }

/-- A forward step over four boundaries: (8,767, 1) is reached and three count as missed. -/
theorem test_boundary_reached :
    let s := onShift (at_ 64000 (757516400 * 64000 - 64000))
    let t := ({ s with hc := { s.hc with schedule := [360, 840, 1320], lastReached := some (8766, 0),
                                         reachMark := some (8766, 0) }
                       ml := { s.ml with params := { s.ml.params with localOffset := 60 } } } : State).evaluate
    t.hc.lastReached = some (8767, 1) ∧ t.hc.missed = 3 ∧ t.hc.state = .windowOpen ∧
      t.hc.timer = .window (64000 + 115200000) := by decide +kernel

/-- A claim in NO_DUTY opens the shift: CONFIRM, then NOTICE (R147, R160). -/
theorem test_duty_claim :
    let t := after .dutyClaim (arrived .dutyClaim 1 (at_ 64 0))
    t.hc.state = .onShift ∧ t.hc.duty = some 1 ∧ t.hc.shiftOpen = true ∧ t.hc.queue.map (·.kind) = [.confirm, .notice] ∧
      t.sh.current.map (·.start.elapsed) = some 64 := by decide +kernel

/-- Sequence 1 of chapter 12: the ACCEPT of console 2 at 6,460,800,000 has release expiry 6,480,000,000; the duty console's own
is refused. -/
theorem test_accept :
    let s := handing .windowOpen (.window 6553613100) none (at_ 6460800000 0)
    let t := after .accept (arrived .accept 1 s)
    t.hc.state = .accepted ∧ t.hc.incoming = some 1 ∧ t.hc.timer = .release 6480000000 ∧
      (after .accept (arrived .accept 0 s)).hc.queue.map (·.kind) = [.refuse .sameConsole] := by decide +kernel

/-- Sequence 1 of chapter 12: the RELEASE of console 1 at 6,464,000,000 is a NORMAL cut. -/
theorem test_release :
    let t := after .release (arrived .release 0 (handing .accepted (.release 6480000000) (some 1) (at_ 6464000000 0)))
    t.hc.state = .settling ∧ t.hc.settleEnd = some 6464000320 ∧ t.hc.queue.map (·.kind) = [.confirm, .notice] ∧
      t.sh.cut.map (fun c => (c.kind, c.outgoing, c.incoming)) = some (.normal, some 0, some 1) := by decide +kernel

/-- A QUERY is confirmed in CONSOLE mode and refused in AUTO mode (R147). -/
theorem test_query :
    let s := arrived .query 2 (onShift (at_ 64 0))
    (after .query s).hc.queue.map (·.kind) = [.confirm] ∧
      (after .query { s with ml := { s.ml with params := { s.ml.params with scheduleMode := .auto } } }).hc.queue.map
        (·.kind) = [.refuse .autoMode] := by decide +kernel

/-- The window expires into OVERRUN; the release timer forces the cut at its expiry (R149). -/
theorem test_timers :
    let w := after .windowExpiry (handing .windowOpen (.window 1000) none (at_ 1000 0))
    let r := after .releaseExpiry (handing .accepted (.release 140800000) (some 1) (at_ 140800001 0))
    w.hc.state = .overrun ∧ w.hc.overrun = true ∧ r.hc.state = .settling ∧ r.hc.settleEnd = some 140800320 ∧
      r.sh.cut.map (fun c => (c.kind, c.stamp.elapsed)) = some (.forced, 140800000) := by decide +kernel

/-- A unit within a shift from E = 100,000,000, with its next set begun at the cut. -/
def settlingUnit (m : UnitMode) (since : Nat) (k : Fin 8) (n starts : Nat) : GenUnit :=
  { unitIn m since .standstill with
    cur := { ShiftSet.zero (some 100000000) with durations := (Vector.replicate 8 0).set k.val n k.isLt, starts := starts }
    next := some (ShiftSet.zero (some 200000000)) }

/-- Late arrivals at a cut: units 4 and 6 of chapter 9 at the settle end 200,000,320. -/
def settlingExample : State :=
  let s := withUnit 4 (settlingUnit .stopping 199999850 3 99999850 0)
    (withUnit 6 (settlingUnit .starting 199999900 0 99999900 1) (at_ 200000320 0))
  let st := fun e => stampOf s.tb.vals e
  { s with
    hc := { s.hc with state := .settling, shiftOpen := true, incoming := some 1, settleEnd := some 200000320 }
    sh := { s.sh with
      cut := some { stamp := st 200000000, kind := .normal, outgoing := some 0, incoming := some 1, boundary := none,
                    missed := 0, heldTicks := 0 }
      closing := some (Header.fresh (st 100000000) fun _ => false)
      current := some (Header.fresh (st 200000000) fun _ => false) } }

theorem test_settle_end :
    let t := after .settleEnd settlingExample
    t.hc.state = .onShift ∧ t.hc.duty = some 1 ∧ t.sh.number = 2 ∧ kinds t = [.shiftClosed, .handover] ∧
      t.sh.ring.map (fun r => (r.units[(4 : Fin 8)].durations.toList, r.units[(6 : Fin 8)].durations.toList,
          r.units[(6 : Fin 8)].openAtEnd)) =
        [([0, 0, 0, 99999850, 0, 0, 150, 0], [99999900, 100, 0, 0, 0, 0, 0, 0], true)] := by decide +kernel

/-- Two consoles under load: with console 1 LOWERED console 3 is granted; with both LOWERED console 1 again. -/
theorem test_grant :
    let u := { uplink 0 with requests := 0xFA#8 }
    let f := fun (a c : Level) =>
      ({ State.reset.hc with levels := #v[a, .normal, c, .normal] } : Handover).decideGrant u 3
    (f .lowered .normal).grant.map (·.console) = some 2 ∧ (f .lowered .lowered).grant.map (·.console) = some 0 ∧
      (f .lowered .lowered).levels = Vector.replicate 4 .normal := by decide +kernel

/-! ### Management link and requests (chapter 10) -/

/-- A Valid, First and Last octet shown in two frames is taken and completes the request (R173). -/
theorem test_request_received :
    let t := after (.frameTaken 0 (frame 0 0 0x60 0xB0)) (inFrame (at_ 64 0))
    let u := after (.frameTaken 0 (frame 0 0 0x60 0xB0)) { t with tb := { t.tb with e := 80 } }
    t.ml.request = .empty ∧ u.ml.request = .complete [0x60#8] ∧ u.ml.lastTurn = some false ∧ u.ml.rx = .idle := by
  decide +kernel

/-- An octet shown in 80 upward frames without acknowledgement abandons the reply (R176). -/
theorem test_reply_timeout :
    let f := fun n : Nat => after .replyTimeout
      { State.reset with ml := { State.reset.ml with tx := .sending 0 true n, reply := [1#8, 0#8], request := .executed [1#8] } }
    (f 79).ml.tx = .sending 0 true 79 ∧ (f 80).ml.tx = .abandoning 2 ∧ (f 80).ml.request = .empty ∧
      (f 80).ml.abandonedReplies = 1 := by decide +kernel

/-- The lengths of the reading replies (11.5). -/
theorem test_read_status : (replyOf .readStatus [1#8] State.reset).length = 88 := by decide +kernel
theorem test_read_time : (replyOf .readTime [2#8] State.reset).length = 38 := by decide +kernel
theorem test_read_channel : (replyOf .readChannel [0x21#8, 3#8] State.reset).length = 208 := by decide +kernel
theorem test_read_tally : (replyOf .readTally [0x31#8, 3#8] State.reset).length = 232 := by decide +kernel
theorem test_read_schedule : (replyOf .readSchedule [0x41#8] State.reset).length = 77 := by decide +kernel

/-- READ_SHIFT of an empty ring is refused, of a closed shift answered with 79 octets for a unit. -/
theorem test_read_shift :
    replyOf .readShift [0x42#8, 0#8, 0#8] State.reset = [0x42#8, 3#8] ∧
      (replyOf .readShift [0x42#8, 0#8, 4#8] { after .settleEnd settlingExample with tb := State.reset.tb }).length = 79 := by
  decide +kernel

/-- The reply of a reading request executed first at its tick, after another command of the tick and the TICK that ends it. -/
def settledReplyOf (read : Instr) (l : List Octet) (other : Instr) (s : State) : List Octet :=
  (after .tick (after other (after read (ask l s)))).ml.reply

/-- READ_SHIFT taken before the settle end of its tick answers the new record at index 0 once the tick has ended, and no later
change (R170, R177). -/
theorem test_read_shift_settles :
    replyOf .readShift [0x42#8, 0#8, 0xFF#8] settlingExample = [0x42#8, 3#8] ∧
      settledReplyOf .readShift [0x42#8, 0#8, 0xFF#8] .settleEnd settlingExample =
        replyOf .readShift [0x42#8, 0#8, 0xFF#8] (after .settleEnd settlingExample) ∧
      settledReplyOf .readShift [0x42#8, 0#8, 0xFF#8] .tick settlingExample = [0x42#8, 3#8] := by decide +kernel

/-- A start attempt of unit 2 that times out at the tick of a READ_TALLY (R127). -/
theorem test_read_tally_settles :
    let a : GenUnit := { GenUnit.reset with mode := .starting, starts := 3, successes := 2,
                                            attempt := some { start := 256000000, expiry := 275200000 } }
    let s := withUnit 2 a (at_ 275200000 0)
    (after (.startTimeout 2) s).tu[(2 : UnitNo)].failures = 1 ∧
      settledReplyOf .readTally [0x31#8, 2#8] (.startTimeout 2) s =
        replyOf .readTally [0x31#8, 2#8] (after (.startTimeout 2) s) ∧
      settledReplyOf .readTally [0x31#8, 2#8] (.startTimeout 2) s ≠ replyOf .readTally [0x31#8, 2#8] s := by decide +kernel

/-- READ_TIME taken before the time setting of its tick keeps the old time with the setting present, but shows the trim that
comes into force there; READ_STATUS shows the new time (R20, R177, R182). -/
theorem test_read_time_settles :
    let s := { at_ 5056000 0 with
      tb := { (at_ 5056000 0).tb with pendingTrim := 7, pendingSetting := some { seconds := 757390000, accuracy := 50000 } } }
    let old := replyOf .readTime [2#8] s
    let now := replyOf .readTime [2#8] (after .localSecondBoundary s)
    let shown := settledReplyOf .readTime [2#8] .localSecondBoundary s
    shown.take 30 = old.take 30 ∧ shown.drop 30 = now.drop 30 ∧ old.drop 30 ≠ now.drop 30 ∧ old.take 24 ≠ now.take 24 ∧
      showsSetting shown = true ∧
      settledReplyOf .readStatus [1#8] .localSecondBoundary s = replyOf .readStatus [1#8] (after .localSecondBoundary s) := by
  decide +kernel

/-- SET_TIME is taken in FREE_RUN with its accuracy clamped, and refused in LOCKED (R14). -/
theorem test_set_time :
    let req := [3#8, 0#8, 0#8, 0#8, 0#8, 1#8, 0xFF#8, 0xFF#8, 0xFF#8, 0xFF#8]
    (after .setTime (ask req State.reset)).tb.pendingSetting = some { seconds := 1, accuracy := 4000000000 } ∧
      replyOf .setTime req (onB .locked 64016) = [3#8, 4#8] := by decide +kernel

/-- The value −1 for P is clamped to 0; P comes into force at the boundary (R34, R179). -/
theorem test_write_p :
    replyOf .writeP [0x10#8, 0#8, 0xFF#8, 0xFF#8, 0xFF#8, 0xFF#8] State.reset = [0x10#8, 0#8, 0#8, 0#8, 0#8, 0#8, 0#8] ∧
      (after .writeP (ask [0x10#8, 0#8, 0#8, 0#8, 0#8, 5#8] State.reset)).dl.p = 3 := by decide +kernel

/-- READ_PARAM answers the value in force and the value written (R180). -/
theorem test_read_param :
    let s := after .writeP (ask [0x10#8, 0#8, 0#8, 0#8, 0#8, 5#8] State.reset)
    replyOf .readParam [0x11#8, 0#8] s = [0x11#8, 0#8, 0#8, 0#8, 0#8, 0#8, 3#8, 0#8, 0#8, 0#8, 5#8] := by decide +kernel

/-- The other numeric parameters, each at its number, its upper limit applied to 2^31 − 1 (R180). -/
theorem test_write_numbers :
    let req := fun n : Nat => [0x10#8, BitVec.ofNat 8 n, 0x7F#8, 0xFF#8, 0xFF#8, 0xFF#8]
    let t := fun (c : Instr) (n : Nat) => (after c (ask (req n) State.reset)).ml.params
    (t .writeQ 1).q = 20 ∧ (t .writeStepThreshold 2).stepThreshold = 1000000 ∧ (t .writeJitterLimit 3).jitterLimit = 100000 ∧
      (t .writeQualifyCount 4).qualifyCount = 60 ∧ (t .writeBClass 5).bClass = 7 ∧
      (t .writeHoldoverDriftBound 6).driftBound = 100000 ∧ (t .writeRevertHoldoff 9).revertHoldoff = 3600 ∧
      (t .writeStoreDepth 12).storeDepth = 16 ∧ (t .writeChatterWindow 13).chatterWindow = 60 ∧
      (t .writeCascadeWindow 14).cascadeWindow = 1000 ∧ (t .writeTripHold 15).tripHold = 30 ∧
      (t .writeHandoverWindow 16).handoverWindow = 120 ∧ (t .writeReleaseLimit 17).releaseLimit = 30 ∧
      (t .writeLocalOffset 19).localOffset = 840 := by decide +kernel

/-- The settings that must name a value: 1 is taken, 4 is refused with BAD_INDEX (R179). -/
theorem test_write_flags :
    let f := fun (c : Instr) (n v : Nat) =>
      replyOf c [0x10#8, BitVec.ofNat 8 n, 0#8, 0#8, 0#8, BitVec.ofNat 8 v] State.reset
    [(Instr.writeReferencePolicy, 7), (.writeRevertive, 8), (.writeBuildOut, 10), (.writeSearchOnAcquire, 11),
        (.writeScheduleMode, 18)].all (fun x =>
      f x.1 x.2 1 == [0x10#8, 0#8, BitVec.ofNat 8 x.2, 0#8, 0#8, 0#8, 1#8] && f x.1 x.2 4 == [0x10#8, 3#8]) = true := by
  decide +kernel

/-- WRITE_CHANNEL of channels 0 and 23: latency 300 is clamped to 255, chatter limit 1 to 2, and both restart (R84). -/
theorem test_write_channel :
    let req := [0x20#8, 0#8, 0x80#8, 0#8, 1#8, 1#8, 3#8, 8#8, 0#8, 2#8, 0x01#8, 0x2C#8, 1#8]
    let t := after .writeChannel (ask req (withChannel 23 (channel .status 0 0) State.reset))
    t.ml.reply = [0x20#8, 0#8, 0#8, 0x80#8, 0#8, 1#8, 1#8, 3#8, 8#8, 0#8, 2#8, 0#8, 0xFF#8, 2#8] ∧
      t.cm[23].presence = .unknown ∧ t.cm[0].entry.role = .trip ∧ t.cm[1].entry.enabled = false := by decide +kernel

/-- RESTART_CHANNEL keeps the entry; an empty set is refused (R84). -/
theorem test_restart_channel :
    let t := after .restartChannel (ask [0x22#8, 0#8, 0#8, 0#8, 8#8] (withChannel 3 (channel .alarm 0 5) State.reset))
    t.cm[3].presence = .unknown ∧ t.cm[3].entry.role = .alarm ∧ t.ml.reply = [0x22#8, 0#8, 0#8, 0#8, 0#8, 8#8] ∧
      replyOf .restartChannel [0x22#8, 0#8, 0#8, 0#8, 0#8] State.reset = [0x22#8, 3#8] := by decide +kernel

/-- WRITE_UNIT: a start timeout of 5 s is clamped to 30 s (R119). -/
theorem test_write_unit :
    let req := [0x30#8, 2#8, 1#8] ++ (List.range 16).map (fun k => if k < 7 then BitVec.ofNat 8 k else 7#8) ++ [0#8, 5#8]
    let t := after .writeUnit (ask req State.reset)
    t.tu[2].enabled = true ∧ t.tu[2].modeMap = plainMap ∧ t.tu[2].timeout = 30 ∧ t.ml.reply.length = 22 := by decide +kernel

/-- The preset during an open attempt of chapter 7 (its bucket sum here 15,625 s). -/
theorem test_preset :
    let x := { unitIn .starting 8000000 .standstill with
               attempt := some { start := 7936000, expiry := 27136000 }, starts := 12, successes := 10, failures := 1,
               cur := ShiftSet.zero (some 0) }
    let req := [0x32#8, 5#8, 0#8, 0#8, 0x3D#8, 0x09#8] ++ List.replicate 28 0#8 ++
      [0#8, 0#8, 1#8, 0x90#8, 0#8, 0#8, 1#8, 0x7C#8, 0#8, 0#8, 0#8, 20#8, 0#8, 0#8, 0#8, 6#8, 0#8, 0#8, 0#8, 5#8]
    let t := after .presetTally (ask req (withUnit 5 x (at_ 9000000 0)))
    t.tu[5].failures = 20 ∧ t.tu[5].base = 1000000000 ∧ t.tu[5].entry = 9000000 ∧ t.tu[5].attempt = none ∧
      t.tu[5].cur.failures = 1 ∧ t.tu[5].cur.durations[(1 : Fin 8)] = 1000000 ∧ kinds t = [] := by decide +kernel

/-- WRITE_SCHEDULE of 06:00 and 14:00 is taken; minutes that do not rise are refused (R138). -/
theorem test_write_schedule :
    (after .writeSchedule (ask [0x40#8, 1#8, 0x68#8, 3#8, 0x48#8] State.reset)).hc.schedule = [360, 840] ∧
      replyOf .writeSchedule [0x40#8, 1#8, 0x68#8, 1#8, 0x68#8] State.reset = [0x40#8, 3#8] := by decide +kernel

/-- A trim search starts with pending trim 0 and is aborted with the trim in force restored (R47, R49). -/
theorem test_trim_search :
    let s := onB .locked 64016
    let t := after .trimSearchStart (ask [0x50#8, 1#8] { s with tb := { s.tb with trim := 900, pendingTrim := 950 } })
    let u := after .trimSearchAbort (ask [0x50#8, 2#8] t)
    t.tb.pendingTrim = 0 ∧ t.dl.search.map (·.stepSize) = some 102400 ∧ u.tb.pendingTrim = 900 ∧ u.dl.search = none ∧
      kinds u = [.timebase] := by decide +kernel

/-- A return to A that a trim search held back is made when the search is aborted (R42). -/
theorem test_abort_reverts :
    let s := onB .locked 64000016
    let t := after .trimSearchStart (ask [0x50#8, 1#8]
      { s with rm := { s.rm with a := { goodRef 64000016 0 with qualifiedSince := some 64 } } })
    t.dl.active = some .b ∧ (after .trimSearchAbort (ask [0x50#8, 2#8] t)).dl.active = some .a := by decide +kernel

/-- WARM_RESTART answers OK and acts once the reply has ended, at a frame boundary; a slip counter stays (R61, R183, R184). -/
theorem test_warm_restart :
    let s := withUnit 3 (unitIn .generating 20 .standstill) (at_ 64 0)
    let t := after .warmRestart (ask [0x60#8] { s with up := { s.up with slips := 9 } })
    t.ml.reply = [0x60#8, 0#8] ∧ t.tu[3].mode = .generating ∧
      (let u := after .warmRestartActs { t with ml := { t.ml with reply := [] } }
       u.tu[3].mode = .unknown ∧ u.tu[3].entry = 64 ∧ u.ml.request = .empty ∧ u.up.slips = 9) := by decide +kernel

/-- An unknown kind octet is echoed with UNKNOWN_REQUEST (R178). -/
theorem test_unknown_request : replyOf .unknownRequest [0x99#8, 1#8] State.reset = [0x99#8, 1#8] := by decide +kernel

/-- A reset pin low for 9,999 ns is ignored; from 10,000 ns on E stays at 0 through a TICK until the rising edge (R1, R65). -/
theorem test_power_on_reset :
    let held := after (.powerOnReset (.pinLow 10000)) (at_ 64 0)
    (after (.powerOnReset (.pinLow 9999)) (at_ 64 0)).tb.e = 64 ∧ held.inReset = true ∧ held.tb.e = 0 ∧
      (after .tick held).tb.e = 0 ∧ (after .tick (after (.powerOnReset .pinRise) held)).tb.e = 1 := by decide +kernel

/-! ### Witnesses: for each statement with hypotheses, states and operands that meet them

Each theorem is named after its statement and gives, clause by clause, what the clause asks. -/

theorem witness_StepRunsFrontCommand : State.reset.pending = [] := rfl

/-- Held in reset by the pin, with a TICK waiting. -/
def inResetExample : State := { State.reset with inReset := true, pending := [.tick] }

theorem witness_PowerOnResetGivesPowerOnValues :
    (10000 ≤ 10000 ∧ 9999 < 10000) ∧ (inResetExample.inReset = true ∧ State.reset.inReset = false) ∧
    (inResetExample.atPowerOn true ∧ ∀ cause, Instr.tick ≠ .powerOnReset cause) ∧
    (inResetExample.ResetInv ∧ ∃ t, step inResetExample = .next t) :=
  ⟨by decide, ⟨rfl, rfl⟩, ⟨rfl, fun _ => by nofun⟩, fun _ => rfl, _, rfl⟩

/-- A held class B entry of channel 3 behind its class A record. -/
def queueExample : State :=
  let r := fun (c : RecClass) (e : Nat) => mkRecord .state c 3 0 1 0 (stampOf State.reset.tb.vals e)
  { withChannel 3 { channel .status 0 0 with store := [r .b 7], floor := 7 } (at_ 64 0) with
    eq := { State.reset.eq with records := [r .a 5] }
    pending := [.tick] }

theorem witness_QueueOrderKept : queueExample.QueueInv ∧ ∃ t, step queueExample = .next t :=
  ⟨⟨by decide, by decide, by decide +kernel, by decide +kernel, by decide +kernel, by decide +kernel, by decide +kernel,
    by decide +kernel⟩, _, rfl⟩

/-- Unit 3 GENERATING since E = 20, with 20 ticks of UNKNOWN behind it. -/
def tallyExample : State :=
  { withUnit 3 { unitIn .generating 20 .unknown with history := [(.generating, 20), (.unknown, 0)],
                                                     buckets := #v[0, 0, 0, 0, 0, 0, 0, 20] } (at_ 64 0) with
    pending := [.warmRestartActs] }

theorem tallyExample_balanced : ∀ u : UnitNo, tallyExample.tu[u].Balanced 64
  | 0 => ⟨by decide, by decide, by decide, by decide, by decide, by decide⟩
  | 1 => ⟨by decide, by decide, by decide, by decide, by decide, by decide⟩
  | 2 => ⟨by decide, by decide, by decide, by decide, by decide, by decide⟩
  | 3 => ⟨by decide, by decide, by decide, by decide, by decide, by decide⟩
  | 4 => ⟨by decide, by decide, by decide, by decide, by decide, by decide⟩
  | 5 => ⟨by decide, by decide, by decide, by decide, by decide, by decide⟩
  | 6 => ⟨by decide, by decide, by decide, by decide, by decide, by decide⟩
  | 7 => ⟨by decide, by decide, by decide, by decide, by decide, by decide⟩

theorem channels_past (s : State) (h : ∀ ch : Chan, s.cm[ch] = Channel.reset) : ∀ ch : Chan, s.cm[ch].Past s.tb.e :=
  fun ch => by rw [h ch]; exact ⟨Nat.zero_le _, by simp [Channel.reset], by simp [Channel.reset], by simp [Channel.reset]⟩

theorem witness_TallyEqualityKept :
    tallyExample.inService ∧ tallyExample.TallyInv ∧ ∃ t, step tallyExample = .next t :=
  ⟨by unfold State.inService; decide, ⟨channels_past _ (by decide +kernel), tallyExample_balanced⟩, _, rfl⟩

/-- Unit 3 in STARTING with its attempt open. -/
def startExample : State :=
  { withUnit 3 { unitIn .starting 20 .standstill with starts := 3, successes := 1, failures := 1,
                                                      attempt := some { start := 20, expiry := 19200020 } } (at_ 64 0) with
    pending := [.startTimeout 3] }

theorem witness_StartAccountingKept : startExample.StartInv ∧ ∃ t, step startExample = .next t := by
  refine ⟨fun u => ?_, _, rfl⟩
  fin_cases u <;> exact ⟨by decide, by decide⟩

/-- Everything of the loop at its limits. -/
def limitExample : State :=
  let s := onB .locked 64016
  { s with tb := { s.tb with trim := -200000, pendingTrim := 200000, u := 4000000000, stepCount := 255 }
           dl := { s.dl with integral := 200000 }
           pending := [.bMarker 0 pulse] }

theorem witness_TrimRangeKept : limitExample.TrimInv ∧ ∃ t, step limitExample = .next t :=
  ⟨⟨by unfold TrimOk; decide, by unfold TrimOk; decide, by unfold TrimOk; decide, (fun x h => by cases h), by decide,
    by decide⟩, _, rfl⟩

theorem witness_LoopModesKept : limitExample.ModeInv ∧ ∃ t, step limitExample = .next t :=
  ⟨⟨by decide, by decide, by decide, by decide⟩, _, rfl⟩

/-- Full stores at the greatest depth. -/
def storeExample : State :=
  let s := inFrame (at_ 64 0)
  let full := { s.up with frames := List.replicate 16 onesFrame, slips := 65535 }
  { s with up := full, down := full, ml := { s.ml with params := { s.ml.params with storeDepth := 16 } },
           pending := [.frameTaken 0 (frame 0 0 0 0)] }

theorem witness_StoreFillKept : storeExample.StoreInv ∧ ∃ t, step storeExample = .next t :=
  ⟨⟨by decide, by decide, by decide, by decide⟩, _, rfl⟩

/-- ACCEPTED, at the release timer's expiry. -/
def acceptedExample : State :=
  { handing .accepted (.release 64) (some 1) (at_ 64 0) with pending := [.releaseExpiry] }

theorem witness_HandoverItemsKept : acceptedExample.HandoverInv ∧ ∃ t, step acceptedExample = .next t :=
  ⟨⟨⟨rfl, rfl⟩, by decide, by decide, by decide, by decide, by decide, by decide, by decide, by decide,
    by decide, by decide, by decide, by decide, by decide⟩, _, rfl⟩

/-- One closed shift of 400 ticks, and an open one from E = 500, with nothing of the handover due. -/
def shiftExample : State :=
  let s := at_ 1000 0
  let st := fun e => stampOf s.tb.vals e
  let ticks : Vector Nat 8 := #v[0, 0, 0, 0, 0, 0, 0, 400]
  let part : ShiftUnit := { durations := ticks, starts := 0, successes := 0, failures := 0, trips := 0, loadTrips := 0,
                            firstOut := none, openAtStart := false, openAtEnd := false }
  { s with
    tu := Vector.replicate 8 { GenUnit.reset with cur := ShiftSet.zero (some 500) }
    hc := { s.hc with state := .onShift, shiftOpen := true, duty := some 0 }
    sh := { s.sh with
      number := 2
      current := some (Header.fresh (st 500) fun _ => false)
      ring := [{ number := 1, kind := .normal, start := st 100, stop := st 500, worst := 1, boundary := none, missed := 0,
                 outgoing := some 1, incoming := some 0, heldTicks := 0, admittedA := 0, admittedB := 0, lostA := 0,
                 lostB := 0, cascades := 0, units := Vector.replicate 8 part }] }
    pending := [.tick] }

theorem witness_ShiftRecordsKept :
    (shiftExample.inService ∧ shiftExample.frontInTime ∧ shiftExample.HandoverInv) ∧
      (shiftExample.TallyInv ∧ shiftExample.Prompt ∧ shiftExample.ShiftInv) ∧ ∃ t, step shiftExample = .next t := by
  refine ⟨⟨by unfold State.inService; decide, fun _ => ⟨rfl, (fun x h => by cases h), (fun x h => by cases h),
      (fun x h => by cases h)⟩, ⟨⟨rfl, rfl⟩, by decide, by decide, by decide, by decide, by decide,
      by decide, by decide, by decide, by decide, by decide, by decide, by decide, by decide⟩⟩,
    ⟨⟨channels_past _ (by decide +kernel), fun u => ?_⟩, ⟨(fun x h => by cases h), (fun x h => by cases h),
      (fun x h => by cases h), (fun x h => by cases h)⟩, ⟨by decide, fun r h => ?_, trivial, by decide, fun u => ?_,
      by decide⟩⟩, _, rfl⟩
  · fin_cases u <;> exact ⟨by decide, by decide, by decide, by decide, by decide, by decide⟩
  · cases h with
    | head => exact ⟨by decide, by decide +kernel⟩
    | tail _ h => cases h
  · fin_cases u <;> exact ⟨by decide, by decide, by decide⟩

theorem witness_TimebaseMovesOnlyAtItsInstants :
    ((Instr.settleEnd ≠ .tick ∧ ∀ cause, Instr.settleEnd ≠ .powerOnReset cause) ∧
      Instr.tick ≠ .stepApplication ∧ Instr.tick ≠ .localSecondBoundary ∧ ∀ cause, Instr.tick ≠ .powerOnReset cause) :=
  ⟨⟨by decide, fun _ => by nofun⟩, by decide, by decide, fun _ => by nofun⟩

/-- The last tick but one of E, at the greatest trim, with the most carried. -/
def lastTicks : State :=
  { State.reset with tb := { State.reset.tb with e := 281474976710654, trim := 200000, fraction := 1000199999 } }

theorem witness_TickRaisesElapsedCountByOne :
    ((∀ u ∈ lastTicks.sli.up, u.start ≠ lastTicks.tb.e) ∧
      ∃ u, (after .upwardFrameStart { lastTicks with tb := { lastTicks.tb with e := 64 } }).sli.up = some u ∧ u.start = 64) ∧
    ((after .readTime (ask [2#8] (at_ 64 0))).ml.executedAt = some 64 ∧ lastTicks.ml.request = .empty) ∧
    inResetExample.inReset = true ∧ lastTicks.inReset = false ∧ lastTicks.tb.e + 1 < 281474976710656 ∧
    TrimOk lastTicks.tb.trim ∧ lastTicks.tb.fraction < 1000200000 := by
  refine ⟨⟨by decide, _, rfl, rfl⟩, by decide, ?_⟩
  unfold TrimOk; decide

/-- Two ticks at the greatest trim. -/
def twoTicks (i : Nat) : State :=
  Nat.iterate (after .tick) i { lastTicks with tb := { lastTicks.tb with e := 281474976710653, fraction := 0 } }

theorem witness_TicksFollowTrim :
    (∀ i < 2, exec .tick (twoTicks i) = .next (twoTicks (i + 1))) ∧ (twoTicks 0).inReset = false ∧ (twoTicks 0).tb.e + 2 < 281474976710656 ∧
      TrimOk (twoTicks 0).tb.trim ∧ (twoTicks 0).tb.fraction < 1000000000 ∧ (twoTicks 2).tb.fraction < 1000000000 := by
  refine ⟨fun i h => ?_, by unfold TrimOk; decide⟩
  interval_cases i <;> rfl

/-- The pending step of the worked example, with time set or not, under an active B. -/
def stepUnset : State :=
  { stepExample with tb := { stepExample.tb with unset := true }
                     dl := { stepExample.dl with mode := .acquiring, active := some .b } }

theorem witness_StepAppliedAtItsTick :
    (stepExample.tb.pendingStep = some { amount := 64001, applyAt := stepExample.tb.e, residual := 7807 } ∧
      stepExample.tb.unset = false ∧ stepExample.eq.records.length < 512) ∧
    (stepUnset.tb.pendingStep.isSome = true ∧ stepUnset.tb.unset = true ∧ stepUnset.dl.active = some .b ∧
      accuracyNs (stepUnset.refClass .b) = some 10000) ∧
    (State.reset.tb.pendingStep = none ∧
      ∀ p ∈ ({ stepExample with tb := { stepExample.tb with e := 3200015 } } : State).tb.pendingStep,
        (3200015 : Nat) < p.applyAt) := by decide +kernel

/-- A step of one whole second, with last phase errors at the ends of their range. -/
def wholeStep : State :=
  { stepExample with
    tb := { stepExample.tb with pendingStep := some { amount := -64000, applyAt := 3200016, residual := 0 } }
    rm := { stepExample.rm with a := goodRef 64000 (-500000000), b := goodRef 64000 499999999 } }

theorem witness_PhaseErrorsMoveWithOffset :
    (after .stepApplication wholeStep).tb.stepCount ≠ wholeStep.tb.stepCount ∧
    ((after .localSecondBoundary wholeStep).tb.stepCount = wholeStep.tb.stepCount ∧ wholeStep.tb.stepCount < 256) ∧
    ((∀ x ∈ wholeStep.rm.a.lastErr, -500000000 ≤ x ∧ x < 500000000) ∧
      (∀ x ∈ wholeStep.rm.b.lastErr, -500000000 ≤ x ∧ x < 500000000) ∧
      ((after .stepApplication wholeStep).tb.delta - wholeStep.tb.delta) % 64000 = 0) := by decide +kernel

/-- A local second boundary at E = 128,000 in a mode, on an active reference of class 3 or 7. -/
def boundary (mode : TbMode) (active : Option Ref) (agree : Nat) (bClass : Nat) : State :=
  let s := at_ 128000 0
  { s with rm := { s.rm with a := goodRef 128000 1200, b := goodRef 128000 1200, aClass := 0, agree := agree }
           dl := { s.dl with mode := mode, active := active }
           ml := { s.ml with params := { s.ml.params with bClass := bClass } } }

theorem witness_UncertaintyRecomputedAtBoundary :
    (∀ mode ∈ [TbMode.freeRun, .acquiring, .holdover, .locked], ∀ active ∈ [none, some Ref.a, some .b],
      ∀ agree ∈ [0, 1], ∀ cls ∈ [3, 7],
        let s := boundary mode active agree cls
        (s.atBoundary ∧ s.tb.pendingSetting = none ∧ s.modeSettled) ∧ s.tb.unset = false ∧
          s.closingMode = (mode, active)) ∧
    (let s := (boundary .locked (some .b) 0 3).setMode .holdover none .fault
     s.atBoundary ∧ ¬ s.modeSettled ∧ s.dl.mode = .holdover ∧ s.closingMode = (.locked, some .b)) ∧
    (let s := (boundary .locked (some .b) 0 3).setMode .holdover none .fault
     s.inReset = false ∧ s.tb.e + 1 < 281474976710656 ∧ s.dl.before.isSome = true ∧ ∀ b ∈ s.dl.before, b.tick ≤ s.tb.e) ∧
    (let s := boundary .locked (some .b) 0 3
     accuracyNs (s.refClass .b) = some 10000 ∧ (s.rm.get .b).lastErr = some 1200) ∧
    (let s := boundary .locked (some .a) 1 3
     accuracyNs (s.refClass .a) = some 100 ∧ (s.rm.get .a).lastErr = some 1200 ∧ s.rm.agree ≠ 0) ∧
    ((boundary .locked (some .b) 0 7).refClass .b = 7 ∧ (boundary .locked (some .a) 0 3).rm.agree = 0) ∧
    (let s := boundary .freeRun none 0 3
     (after .localSecondBoundary s).tb.quality ≠ s.tb.quality ∧ s.eq.records.length < 512) ∧
    (let s := ({ boundary .freeRun none 0 3 with tb := { State.reset.tb with e := 128000 } } : State)
     (s.atBoundary ∧ s.tb.pendingSetting = none ∧ s.modeSettled) ∧ s.tb.unset = true) := by
  unfold State.atBoundary State.modeSettled; decide +kernel

/-- The boundary of the first setting by SET_TIME. -/
def settingExample : State :=
  { State.reset with
    tb := { State.reset.tb with e := 5056000, pendingSetting := some { seconds := 757390000, accuracy := 50000 } } }

theorem witness_TimeSettingAppliedAtBoundary :
    settingExample.atBoundary ∧ settingExample.tb.pendingSetting = some { seconds := 757390000, accuracy := 50000 } ∧
      settingExample.eq.records.length < 512 := by
  unfold State.atBoundary; decide

/-- A confirmed step at the boundary, with a step pending or not. -/
def confirmedExample (pending : Option PendingStep) : State :=
  let s := boundary .acquiring (some .b) 0 3
  { s with dl := { s.dl with confirmed := some (3, -5155) }, tb := { s.tb with pendingStep := pending } }

theorem witness_SecondBoundaryLatches :
    ((confirmedExample none).atBoundary ∧ (confirmedExample none).dl.confirmed = some (3, -5155) ∧
      (confirmedExample none).tb.pendingStep = none) ∧
    ((confirmedExample (some { amount := 1, applyAt := 128000, residual := 0 })).atBoundary ∧
      (confirmedExample (some { amount := 1, applyAt := 128000, residual := 0 })).tb.pendingStep =
        some { amount := 1, applyAt := 128000, residual := 0 }) ∧
    ¬ (at_ 128001 0).atBoundary ∧ ¬ (after .localSecondBoundary (at_ 128000 0)).atBoundary := by
  unfold State.atBoundary; decide +kernel

/-! Both references at the limits of a good second: the marker at E = 96,016, 1.5 s after the last one and 250,000 ns after the
boundary of second 0, with the phase at the jitter limit. -/

/-- A command that brings a marker of a reference. -/
def markOf : Ref → Instr
  | .a => .frameTaken 0 (frame 0x80 0 0xFF 0)
  | .b => .bMarker 0 pulse

theorem marks_example (r : Ref) (s : State) (ha : s.sli.alignment = .inFrame) (hr : s.inReset = false) :
    s.marks (markOf r) 0 r :=
  match r with
  | .a => ⟨_, rfl, ha, by decide, by decide⟩
  | .b => ⟨_, rfl, by unfold Pulse.passes; decide, hr⟩

/-- A reference is followed in a mode, 16 ticks after the boundary of second 0, with A's message naming second `m`. -/
def followed (r : Ref) (mode : TbMode) (m : Nat) : State :=
  let s := inFrame (at_ 96016 (-96000))
  { s with rm := { s.rm with message := some { seconds := m, cls := 2, correct := true } }
           dl := { s.dl with mode := mode, active := some r, everLocked := mode == .locked } }

/-- A reference in a qualification state with its count, last marker, last phase error and build-out. -/
def refIn (r : Ref) (q : Qual) (count last : Nat) (err buildOut : Int) (s : State) : State :=
  s.onRef r fun _ => { goodRef 64016 err with qual := q, count := count, lastMarker := some last, holdoffEnd := some 96016,
                                              buildOut := buildOut }

/-- A marker at fine 0 in the tick 16 after a boundary gives −250,000 ns. -/
theorem errAt_example (s : State) (r : Ref) (h : s.tb.e = 96016) (hd : s.tb.delta = -96000) : s.errAt r 0 = -250000 := by
  have x : exactPhase s.tb 0 = -250000 := by simp [exactPhase, tickOfSecond, Timebase.station, h, hd]
  simp [State.errAt, Machine.measure, quantise, x]

theorem goodSecond_example (r : Ref) (mode : TbMode) (m : Nat) (q : Qual) (count : Nat) (b : Int) :
    (refIn r q count 16 (-252000) b (followed r mode m)).GoodSecond r 0 := by
  refine ⟨⟨16, by cases r <;> rfl, by cases r <;> exact Nat.le_refl 96016⟩, fun p hp => ?_, ?_⟩
  · rw [show ((refIn r q count 16 (-252000) b (followed r mode m)).rm.get r).lastErr = some (-252000) by cases r <;> rfl] at hp
    cases hp
    rw [errAt_example _ r (by cases r <;> rfl) (by cases r <;> rfl)]
    cases r <;> change (wrapPhase (-250000 - -252000)).natAbs ≤ 2000 <;> decide
  · cases r
    · exact ⟨_, rfl, rfl, by change 2 ≠ 7; decide⟩
    · change 3 ≠ 7; decide

theorem badSecond_example (r : Ref) (s : State) (h : s.tb.e = 96016) (hm : (s.rm.get r).lastMarker = some 15) :
    ¬ s.GoodSecond r 0 := by
  rintro ⟨⟨m, hm', hl⟩, -, -⟩
  rw [hm] at hm'
  cases hm'
  omega

/-- There the nearest boundary is that of second 0: A disagrees by the second that its message names. -/
theorem apart_example (s : State) (r : Ref) (m : TimeMessage) (h : s.tb.e = 96016) (hd : s.tb.delta = -96000)
    (hm : s.rm.message = some m) : s.secondsApart 0 r = match r with | .a => (m.seconds : Int) | .b => 0 := by
  cases r <;> simp [State.secondsApart, State.boundarySeconds, h, hd, hm]

theorem witness_MarkerMeasuresPhase :
    (∀ r, (followed r .locked 0).marks (markOf r) 0 r) ∧
    ¬ ({ pulse with lowNs := 999 } : Pulse).passes ∧ ¬ ({ pulse with highNs := 999 } : Pulse).passes ∧
    inResetExample.inReset = true :=
  ⟨fun r => marks_example r _ rfl rfl, by unfold Pulse.passes; decide⟩

theorem witness_MarkersQualifyOrFaultReference :
    (∀ r q count,
      let s := refIn r q count 15 (-252000) 0 (followed r .locked 0)
      s.marks (markOf r) 0 r ∧ ¬ s.GoodSecond r 0 ∧ (s.rm.get r).qual = q ∧ (s.rm.get r).lastMarker.isSome = true ∧
        (s.rm.get r).prevBad = false ∧ s.vouched r) ∧
    (∀ r q count m,
      let s := refIn r q count 16 (-252000) 0 (followed r .locked m)
      s.marks (markOf r) 0 r ∧ s.GoodSecond r 0 ∧ (s.rm.get r).qual = q ∧ (s.rm.get r).count = count) ∧
    (∀ r,
      let s := (refIn r .qualified 0 15 0 0 (followed r .locked 0)).onRef r fun x => { x with prevBad := true }
      s.marks (markOf r) 0 r ∧ (s.rm.get r).qual = .qualified ∧ (s.rm.get r).prevBad = true ∧ ¬ s.GoodSecond r 0) ∧
    ¬ State.reset.vouched .a ∧
    (6 + 1 < Params.default.qualifyCount ∧ Params.default.qualifyCount ≤ 7 + 1) ∧
    ((∀ h ∈ (refIn .b .faulted 0 16 0 0 (followed .b .locked 0)).rm.b.holdoffEnd, h ≤ 96016) ∧
      ∃ h, (refIn .b .faulted 0 16 0 0 (followed .b .locked 0)).rm.b.holdoffEnd = some h ∧ 96015 < h) ∧
    (∀ m, (followed .a .locked m).secondsApart 0 .a = m) ∧
    (followed .b .locked 0).rm.b.qual = .absent ∧ State.reset.eq.records.length < 480 := by
  refine ⟨fun r q count => ⟨marks_example r _ (by cases r <;> rfl) (by cases r <;> rfl),
      badSecond_example r _ (by cases r <;> rfl) (by cases r <;> rfl), by cases r <;> rfl, by cases r <;> rfl,
      by cases r <;> rfl, ?_⟩,
    fun r q count m => ⟨marks_example r _ (by cases r <;> rfl) (by cases r <;> rfl), goodSecond_example r .locked m q count 0,
      by cases r <;> rfl, by cases r <;> rfl⟩, fun r => ⟨marks_example r _ (by cases r <;> rfl) (by cases r <;> rfl),
      by cases r <;> rfl, by cases r <;> rfl, badSecond_example r _ (by cases r <;> rfl) (by cases r <;> rfl)⟩, fun ⟨_, h, _⟩ => (nomatch h), by decide,
    by decide +kernel, fun m => apart_example _ .a { seconds := m, cls := 2, correct := true } rfl rfl rfl, by decide, by decide⟩
  have v := (goodSecond_example r .locked 0 q count 0).vouched
  cases r <;> exact v

/-- A is active with its last marker 1.5 s back, with or without a search, and with B usable or not. -/
def lostExample (q : Qual) (search : Option Search) (e : Nat) : State :=
  let s := at_ e 0
  { s with rm := { s.rm with a := { goodRef 64016 0 with lastMarker := some 16 }, b := { goodRef 64016 0 with qual := q } }
           dl := { s.dl with mode := .locked, active := some .a, everLocked := true, search := search } }

/-- A search on a reference. -/
def searchOn (r : Ref) (step : Nat) (start : Option (Int × Nat)) : Search :=
  { ref := r, stepSize := step, trim := 0, armed := true, start := start, savedI := 7, savedT := 9, deferred := none }

theorem witness_MarkerTimeoutsLoseReference :
    ((lostExample .qualified none 96015).rm.a.qual = .qualified ∧ (lostExample .qualified none 96015).tb.e < 16 + 96000) ∧
    (16 + 96000 ≤ (lostExample .qualified none 96016).tb.e ∧ (lostExample .qualified none 96016).usable .b = true ∧
      (lostExample .qualified none 96016).rm.a.lastMarker = some 16 ∧
      (lostExample .qualified none 96016).dl.active = some .a) ∧
    (let s := lostExample .qualified none 96016
     s.dl.mode = .locked ∧ s.ml.params.buildOut = true ∧ s.rm.a.lastErr = some 0 ∧ s.rm.b.lastErr = some 0) ∧
    (lostExample .faulted (some (searchOn .a 100 none)) 96016).usable .b = false ∧
    ((lostExample .qualified none 1000000).rm.b.qual = .qualified ∧
      (lostExample .qualified none 1000000).dl.active ≠ some .b) ∧
    (let s := fun e => ({ lostExample .qualified none e with rm := { State.reset.rm with
        a := { RefState.reset with qual := .qualifying, lastMarker := some 16 },
        b := { RefState.reset with qual := .faulted, lastMarker := some 16 } } } : State)
     ((s 192015).rm.a.qual = .qualifying ∧ (s 192015).tb.e < 16 + 192000) ∧ (s 192016).rm.b.qual = .faulted ∧
      16 + 192000 ≤ (s 192016).tb.e ∧ (s 192016).eq.records.length < 480) := by decide +kernel

/-- B is followed, A QUALIFIED since a tick. -/
def revertExample (since : Nat) : State :=
  let s := onB .locked 64000016
  { s with rm := { s.rm with a := { goodRef 64000016 0 with qualifiedSince := some since } } }

theorem witness_RevertWaitReturnsToA : (revertExample 60160016).revertDue ∧ ¬ (revertExample 60160017).revertDue ∧
    (revertExample 60160016).eq.records.length < 512 := by
  refine ⟨⟨by decide, by decide, by decide, by decide, by decide, by decide, _, rfl, by decide⟩, ?_, by decide⟩
  rintro ⟨-, -, -, -, -, -, q, h, hq⟩
  cases h
  revert hq; decide

theorem witness_LoopComputationSetsTrim : (boundary .locked (some .b) 0 3).atBoundary := by
  unfold State.atBoundary; decide +kernel

/-- A followed QUALIFIED reference, in its good second, whose loop input is `x`, with the history and search given; A's message
names second `m`. -/
def goodExample (r : Ref) (mode : TbMode) (m : Nat) (x : Int) (history : List (Int × Int)) (search : Option Search) : State :=
  let s := followed r mode m
  refIn r .qualified 0 16 (-252000) (-250000 - x) { s with dl := { s.dl with history := history, search := search } }

theorem goodExample_holds (r : Ref) (mode : TbMode) (h : mode = .acquiring ∨ mode = .locked) (m : Nat) (x : Int)
    (hx : -500000000 ≤ x ∧ x < 500000000) (history : List (Int × Int)) (search : Option Search) :
    let s := goodExample r mode m x history search
    s.marks (markOf r) 0 r ∧ s.Follows r ∧ s.GoodSecond r 0 ∧ s.dl.history = history ∧ s.dl.search = search ∧
      wrapPhase (s.errAt r 0 - (s.rm.get r).buildOut) = x ∧ s.ml.params.stepThreshold = 20000 ∧
      s.secondsApart 0 r = match r with | .a => (m : Int) | .b => 0 := by
  have he : (goodExample r mode m x history search).errAt r 0 = -250000 :=
    errAt_example _ r (by cases r <;> rfl) (by cases r <;> rfl)
  have g := goodSecond_example r mode m .qualified 0 (-250000 - x)
  have a := apart_example (goodExample r mode m x history search) r _ (by cases r <;> rfl) (by cases r <;> rfl)
    (show _ = some { seconds := m, cls := 2, correct := true } by cases r <;> rfl)
  cases r
  · exact ⟨marks_example .a _ rfl rfl, ⟨h, rfl, rfl, rfl⟩, ⟨g.timely, g.steady, g.vouched⟩, rfl, rfl, by
      rw [he]; change wrapPhase (-250000 - (-250000 - x)) = x; unfold wrapPhase; omega, rfl, a⟩
  · exact ⟨marks_example .b _ rfl rfl, ⟨h, rfl, rfl, rfl⟩, ⟨g.timely, g.steady, g.vouched⟩, rfl, rfl, by
      rw [he]; change wrapPhase (-250000 - (-250000 - x)) = x; unfold wrapPhase; omega, rfl, a⟩

theorem witness_LoopRunsOnGoodSecondsAlone :
    (∀ r mode, mode = .acquiring ∨ mode = .locked →
      let s := refIn r .qualified 0 15 (-252000) 0 (followed r mode 0)
      s.marks (markOf r) 0 r ∧ (s.dl.mode = .acquiring ∨ s.dl.mode = .locked) ∧ s.dl.active = some r ∧
        (s.rm.get r).qual = .qualified ∧ (s.rm.get r).lastMarker.isSome = true ∧ (s.rm.get r).prevBad = false ∧
        ¬ s.GoodSecond r 0) ∧
    stepExample.tb.pendingStep.isSome = true ∧
    ∀ r mode, mode = .acquiring ∨ mode = .locked →
      let s := goodExample r mode 0 20000 [] none
      s.marks (markOf r) 0 r ∧ s.Follows r ∧ s.GoodSecond r 0 ∧ s.dl.search = none ∧
        (wrapPhase (s.errAt r 0 - (s.rm.get r).buildOut)).natAbs ≤ s.ml.params.stepThreshold ∧ s.secondsApart 0 r = 0 := by
  refine ⟨fun r _ h => ⟨marks_example r _ (by cases r <;> rfl) (by cases r <;> rfl), by cases r <;> exact h, by cases r <;> rfl,
      by cases r <;> rfl, by cases r <;> rfl, by cases r <;> rfl,
      badSecond_example r _ (by cases r <;> rfl) (by cases r <;> rfl)⟩, rfl, fun r mode h => ?_⟩
  obtain ⟨h1, h2, h3, -, h4, h5, h6, h7⟩ := goodExample_holds r mode h 0 20000 (by decide) [] none
  exact ⟨h1, h2, h3, h4, by rw [h5, h6]; decide, by rw [h7]; cases r <;> rfl⟩

theorem witness_ThreeAgreeingSecondsConfirmStep :
    (∀ r history,
      let s := goodExample r .locked 0 20001 history none
      s.marks (markOf r) 0 r ∧ s.Follows r ∧ s.GoodSecond r 0 ∧ s.dl.history = history ∧ s.dl.search = none ∧
        s.ml.params.stepThreshold < (wrapPhase (s.errAt r 0 - (s.rm.get r).buildOut)).natAbs) ∧
    (∀ history, (goodExample .a .locked 5 0 history none).secondsApart 0 .a ≠ 0) ∧
    (wrapPhase (-250000 - -252000)).natAbs ≤ 2000 ∧ 2000 < (wrapPhase (-250000 - -252001)).natAbs := by
  refine ⟨fun r history => ?_, fun history => ?_, by decide, by decide⟩
  · obtain ⟨h1, h2, h3, h4, h5, h6, h7, -⟩ := goodExample_holds r .locked (.inr rfl) 0 20001 (by decide) history none
    exact ⟨h1, h2, h3, h4, h5, by rw [h6, h7]; decide⟩
  · rw [(goodExample_holds .a .locked (.inr rfl) 5 0 (by decide) history none).2.2.2.2.2.2.2]; decide

theorem witness_TrimSearchMovesByStepSize :
    (∀ r step start,
      let s := goodExample r .locked 0 0 [] (some (searchOn r step start))
      s.marks (markOf r) 0 r ∧ s.Follows r ∧ s.GoodSecond r 0 ∧ s.dl.search = some (searchOn r step start) ∧
        (searchOn r step start).armed = true ∧
        (wrapPhase (s.errAt r 0 - (s.rm.get r).buildOut)).natAbs ≤ s.ml.params.stepThreshold ∧ s.secondsApart 0 r = 0) ∧
    (wrapPhase (-250000 - -250000) = 0 ∧ wrapPhase (-250000 - -250008) ≠ 0) := by
  refine ⟨fun r step start => ?_, by decide⟩
  obtain ⟨h1, h2, h3, -, h4, h5, h6, h7⟩ := goodExample_holds r .locked (.inr rfl) 0 0 (by decide) []
    (some (searchOn r step start))
  exact ⟨h1, h2, h3, h4, rfl, by rw [h5, h6]; decide, by rw [h7]; cases r <;> rfl⟩

/-- The link IN_FRAME with a time message under assembly. -/
def assembling (l : List Octet) : State :=
  let s := inFrame (at_ 64 0)
  { s with rm := { s.rm with assembly := l } }

theorem witness_TimeMessageAssembled :
    (∀ l, (assembling l).sli.alignment = .inFrame ∧ (assembling l).rm.assembly = l) ∧
      (frame 0 0xC5 0 0).hasSync = true ∧ markerFlag (frame 0x7F 0xC5 0 0) = false ∧
      (frame 0 0xC5 0 0).time = 0xC5#8 ∧ (frame 0 0xC4 0 0).time ≠ 0xC5#8 ∧
      ([0xC5#8] ≠ [] ∧ (List.replicate 6 (0#8 : Octet)).length < 7) :=
  ⟨fun _ => ⟨rfl, rfl⟩, by decide⟩

/-- IN_FRAME with an upward frame in progress from E = 48. -/
def upwardFrom (source : UpTiming) (e : Nat) : State :=
  let s := inFrame (at_ e 0)
  let frame : UpFrame := { sync := frameSync, fill := idleFill, status := 0, report0 := 0xFF#8, report1 := 0xFF#8, recordStart := 0, mgmt := 0xFF#8,
                           control := 0, passthrough := onesFrame }
  { s with sli := { s.sli with up := some { start := 48, source := source, slot := .idle, frame := frame } } }

theorem witness_FrameTakenIsDelivered :
    ((frame 0 0 0 0).hasSync = true ∧ State.reset.sli.alignment = .lof) ∧
    ((upwardFrom .elapsed 63).sli.alignment = .inFrame ∧
      ∃ u, (upwardFrom .elapsed 63).sli.up = some u ∧ u.source = .elapsed ∧ 63 < u.start + 16) ∧
    (∀ u, (upwardFrom .elapsed 64).sli.up = some u → u.source = .loop ∨ u.start + 16 ≤ 64) ∧
    ((upwardFrom .elapsed 64).down.frames.length < (upwardFrom .elapsed 64).ml.params.storeDepth) ∧
    (storeExample.ml.params.storeDepth ≤ storeExample.down.frames.length ∧ storeExample.sli.alignment = .inFrame) := by
  refine ⟨by decide, ⟨rfl, _, rfl, rfl, by decide⟩, fun u h => ?_, by decide, by decide⟩
  cases h
  exact .inr (by decide)

/-- IN_FRAME with absent syncs counted, A in a qualification state, and the request buffer given. -/
def fading (missing : Nat) (q : Qual) (b : RequestBuffer) : State :=
  let s := inFrame (at_ 64 0)
  { s with sli := { s.sli with missing := missing }, rm := { s.rm with a := { goodRef 64 0 with qual := q } },
           ml := { s.ml with request := b } }

/-- LOF in a hunt phase. -/
def hunting (h : Hunt) (expected : Option Nat) : State :=
  { State.reset with sli := { State.reset.sli with hunt := h, expected := expected, searchFrom := 100 } }

theorem witness_AlignmentFoundAndLost :
    (State.reset.sli.alignment = .lof ∧ State.reset.inReset = false ∧ inResetExample.inReset = true ∧
      inResetExample.sli.hunt = .searching) ∧
    (∀ q b, (fading 2 q b).sli.alignment = .inFrame ∧ (fading 2 q b).sli.missing < 3 ∧
      (fading 2 q b).down.frames.length < (fading 2 q b).ml.params.storeDepth ∧ 3 ≤ (fading 3 q b).sli.missing ∧
      (fading 3 q b).sli.expected = some 7680 ∧ (fading 3 q b).rm.a.qual = q ∧ (fading 3 q b).ml.request = b) ∧
    ((hunting .searching none).sli.hunt = .searching ∧ 99 < (hunting .searching none).sli.searchFrom ∧
      (hunting .searching none).sli.searchFrom ≤ 100) ∧
    (∀ n, (hunting (.confirming n) (some 1636)).sli.hunt = .confirming n ∧
      (hunting (.confirming n) (some 1636)).sli.expected = some 1636) ∧ (1 < 2 ∧ 2 ≤ 2 ∧ 1635 ≠ 1636) := by
  refine ⟨by decide, fun q b => ?_, by decide, fun n => ⟨rfl, rfl⟩, by decide⟩
  exact ⟨rfl, by change 2 < 3; decide, by change 4 < 8; decide, by change 3 ≤ 3; decide, rfl, rfl, rfl⟩

/-- The upward store with n frames, and the record of this second made or not. -/
def upStore (n : Nat) (made : Bool) : State :=
  let s := at_ 64 0
  { s with up := { s.up with frames := List.replicate n onesFrame, recordMade := made } }

theorem witness_StoresSlipAtTheirEnds :
    ((upStore 7 false).store .up).frames.length < 8 ∧
    (((upStore 8 false).store .up).frames.length = (upStore 8 false).ml.params.storeDepth ∧
      0 < (upStore 8 false).ml.params.storeDepth ∧ ((upStore 8 false).store .up).recordMade = false ∧
      (upStore 8 false).eq.records.length < 480) ∧
    ((upStore 1 false).store .up).frames = [onesFrame] ∧ ((upStore 0 false).store .up).frames = [] ∧
    ((upStore 8 true).store .up).recordMade = true ∧ State.reset.sli.alignment = .lof ∧
    (∀ n, ({ upStore 8 false with eq := { State.reset.eq with records := List.replicate n (plainRecord .a 1) } } :
      State).eq.records.length = n) ∧ (boundary .freeRun none 0 3).atBoundary := by
  refine ⟨by decide, by decide, by decide, by decide, by decide, by decide, fun n => List.length_replicate, ?_⟩
  unfold State.atBoundary; decide +kernel

/-- An upward frame is due at E = 64 by E. -/
def upwardExample (r : Arbiter) (l : List EventRecord) (n : Nat) : State :=
  { upStore n false with ra := r, eq := { State.reset.eq with records := l } }

theorem witness_UpwardFrameHasItsContents :
    (∀ r l n, (upwardExample r l n).upwardDueNow) ∧ ¬ (at_ 65 0).upwardDueNow ∧ ¬ inResetExample.upwardDueNow ∧
    (∀ r l, (upwardExample r l 0).up.frames = [] ∧ (upwardExample r l 0).up.recordMade = false ∧
      (upwardExample r l 1).up.frames = [onesFrame]) ∧
    (∃ x, (inFrame (at_ 66 0)).sli.up = none ∧ ({ (inFrame (at_ 66 0)) with
      sli := { (inFrame (at_ 66 0)).sli with upDue := some 66 } } : State).sli.upDue = some x ∧ x ≤ 66) ∧
    (∀ k, 1 ≤ k → k < 8 → ({ State.reset.ra with sending := some { record := plainRecord .a 1, frames := k } } :
      Arbiter).sending = some { record := plainRecord .a 1, frames := k }) ∧
    ({ State.reset.ra with abandoned := 1 } : Arbiter).sending = none ∧
    (upwardExample { State.reset.ra with idle := 1 } [plainRecord .a 1] 1).turnOf .a ∧
    (upwardExample { State.reset.ra with idle := 2, lastSender := some .a } [plainRecord .a 1, plainRecord .b 2] 1).turnOf .b ∧
    (¬ (upwardExample State.reset.ra [plainRecord .a 1] 1).mayStart .a ∧
      ¬ (upwardExample State.reset.ra [plainRecord .a 1] 1).mayStart .b) := by
  refine ⟨fun _ _ _ => ⟨rfl, rfl, by change 64 % 16 = 0; decide⟩, ?_, fun h => (nomatch h.1), fun _ _ => ⟨rfl, rfl, rfl⟩,
    ⟨66, rfl, rfl, by decide⟩, fun _ _ _ => rfl, rfl, ?_, ?_, ?_⟩
  · rintro ⟨-, -, h⟩; exact absurd (show 65 % 16 = 0 from h) (by decide)
  · exact ⟨⟨⟨_, .head _, rfl⟩, by decide⟩, fun h => by nofun⟩
  · exact ⟨⟨⟨_, .tail _ (.head _), rfl⟩, by decide⟩, fun h => absurd rfl h⟩
  · exact ⟨fun h => absurd h.2 (by decide), fun h => absurd h.2 (by decide)⟩

/-- A frame that ends at E = 64, with the record in transmission. -/
def endingFrame (slot : SlotUse) (source : UpTiming) (e frames : Nat) : State :=
  let s := upwardFrom source e
  { s with sli := { s.sli with up := s.sli.up.map fun u => { u with slot := slot } }
           ra := { s.ra with idle := 3, sending := some { record := plainRecord .a 1, frames := frames } }
           eq := { s.eq with records := [plainRecord .a 1] } }

theorem witness_UpwardFrameEndCounts :
    State.reset.sli.up = none ∧
    (∃ u, (endingFrame .idle .elapsed 63 1).sli.up = some u ∧ u.source = .elapsed ∧ 63 < u.start + 16) ∧
    (∃ u, (endingFrame .idle .elapsed 64 1).sli.up = some u ∧ u.start + 16 ≤ 64 ∧ u.slot = .idle) ∧
    (∃ u, (endingFrame .abandoned .loop 63 1).sli.up = some u ∧ u.source = .loop ∧ u.slot = .abandoned) ∧
    (∃ u, (endingFrame .record .loop 63 7).sli.up = some u ∧ u.slot = .record ∧
      ∃ x, (endingFrame .record .loop 63 7).ra.sending = some x ∧ x.frames ≠ 8) ∧
    (∃ x, (endingFrame .record .loop 63 8).ra.sending = some x ∧ x.frames = 8) :=
  ⟨rfl, ⟨_, rfl, rfl, by decide⟩, ⟨_, rfl, by decide, rfl⟩, ⟨_, rfl, rfl, rfl⟩, ⟨_, rfl, rfl, _, rfl, by decide⟩, ⟨_, rfl, rfl⟩⟩

/-- A downlink frame is due at E = 144, in the frame numbered 9, with the handover items and downward store given. -/
def downlinkExample (h : Handover) (l : List (Vector Octet 24)) : State :=
  let s := inFrame (at_ 144 0)
  { s with hc := h, down := { s.down with frames := l } }

theorem witness_DownlinkFrameHasItsContents :
    (∀ h l, (downlinkExample h l).frameDue ∧ (downlinkExample h l).sli.alignment = .inFrame ∧
      (downlinkExample h l).tb.e / 16 % 8 ≠ 0 ∧ (downlinkExample h l).hc = h ∧ (downlinkExample h l).down.frames = l) ∧
    ¬ (at_ 145 0).frameDue ∧ ¬ inResetExample.frameDue ∧ (at_ 128 0).tb.e / 16 % 8 = 0 ∧ (at_ 128 0).sli.alignment = .lof ∧
    (∃ g, ({ Handover.reset with grant := some { console := 2, frame := 8, half := none } } : Handover).grant = some g ∧
      g.frame + 1 = 144 / 16) ∧
    (∀ g, ({ Handover.reset with grant := some { console := 2, frame := 7, half := none } } : Handover).grant = some g →
      g.frame + 1 ≠ 144 / 16) ∧
    (Handover.reset.gap = false ∧ Handover.reset.tx = none ∧ Handover.reset.queue = [] ∧ 128 + 16 ≤ 144) := by
  refine ⟨fun h l => ⟨⟨rfl, by change 144 % 16 = 0; decide, fun f hf => by cases hf⟩, rfl,
    by change 144 / 16 % 8 ≠ 0; decide, rfl, rfl⟩, fun h => absurd h.2.1 (by decide), fun h => (nomatch h.1), by decide, rfl, ⟨_, rfl, by decide⟩, fun g h => ?_, by decide⟩
  cases h; decide

/-- IN_FRAME with the previous management field, the receive state, the last taken Turn and the request buffer given. -/
def receiving (p : MgmtField) (rx : RxState) (turn : Option Bool) (b : RequestBuffer) : State :=
  let s := inFrame (at_ 64 0)
  { s with ml := { s.ml with previous := some p, rx := rx, lastTurn := turn, request := b } }

theorem witness_RequestOctetsTakenOnce :
    (∀ p rx turn b, (receiving p rx turn b).sli.alignment = .inFrame ∧ (receiving p rx turn b).ml.previous = some p ∧
      (∀ i t n, (receiving p rx turn b).ml.tx ≠ .sending i t n) ∧ (receiving p rx turn b).ml.rx = rx ∧
      (receiving p rx turn b).ml.lastTurn = turn ∧ (receiving p rx turn b).ml.request = b) ∧
    (let g := mgmtFieldOf (frame 0 0 0x60 0xB0)
     g.valid = true ∧ g.first = true ∧ g.last = true ∧ g.turn = false) ∧
    (let g := mgmtFieldOf (frame 0 0 0x60 0xC0)
     g.valid = true ∧ g.first = false ∧ g.last = false ∧ g.turn = true) ∧
    (mgmtFieldOf (frame 0 0 0 0)).valid = false ∧ (63 < 64 ∧ 64 ≤ 64) :=
  ⟨fun _ _ _ _ => ⟨rfl, rfl, fun i t n => by change TxState.idle ≠ .sending i t n; simp, rfl, rfl, rfl⟩, by decide⟩

/-- A reply in a transmit state, at a due upward frame and in IN_FRAME. -/
def replying (tx : TxState) (rx : RxState) (reply : List Octet) (p : MgmtField) : State :=
  let s := inFrame (at_ 64 0)
  { s with sli := { s.sli with upDue := some 64 }
           ml := { s.ml with tx := tx, rx := rx, reply := reply, previous := some p, request := .executed [1#8] } }

theorem witness_ReplyShownAndEnded :
    (∀ tx rx reply p, (replying tx rx reply p).upwardDueNow ∧ (replying tx rx reply p).sli.alignment = .inFrame ∧
      (replying tx rx reply p).ml.tx = tx ∧ (replying tx rx reply p).ml.rx = rx ∧ (replying tx rx reply p).ml.reply = reply ∧
      (replying tx rx reply p).ml.previous = some p ∧ (replying tx rx reply p).ml.request = .executed [1#8]) ∧
    (let p := mgmtFieldOf (frame 0 0 0 0x08)
     p.readable = true ∧ p.echo = true ∧ p.stop = false ∧ p.valid = false) ∧
    (let p := mgmtFieldOf (frame 0 0 0 0x04)
     p.readable = true ∧ p.echo = false ∧ p.stop = true) ∧ (79 < 80 ∧ 80 ≤ 80) :=
  ⟨fun _ _ _ _ => ⟨⟨rfl, rfl, 64, rfl, by change 64 ≤ 64; decide⟩, rfl, rfl, rfl, rfl, rfl, rfl⟩, by decide⟩

/-- A look is due at E = 64 with channel 3 as given. -/
def lookExample (x : Channel) : State := withChannel 3 x (at_ 64 0)

/-- A look is due in the frame numbered 4, with a grant and the levels of the consoles. -/
def grantExample (g : Option Grant) (levels : Vector Level 4) : State :=
  { at_ 64 0 with hc := { Handover.reset with grant := g, levels := levels } }

theorem lookNow_example (s : State) (h : s.tb.e = 64) (hl : s.ubi.lastLook = none) : s.lookNow :=
  ⟨by rw [h], by rw [h, hl]; simp, fun x => absurd (h.symm.trans x.1) (by decide)⟩

theorem witness_LookJudgesEveryChannel :
    (∀ x, (lookExample x).lookNow ∧ (lookExample x).cm[(3 : Chan)] = x) ∧ ¬ (at_ 65 0).lookNow ∧ ¬ (at_ 0 0).lookNow ∧
    (∀ g levels, (grantExample g levels).lookNow ∧ (grantExample g levels).hc.grant = g ∧
      (grantExample g levels).hc.levels = levels ∧ (grantExample g levels).hc.arrived = none ∧
      (grantExample g levels).tb.e / 16 = 4) ∧
    ((∀ c : Console, ¬ (0xFF#8 : Octet).toNat.testBit c.val = false) ∧
      (∀ c : Console, (0xFA#8 : Octet).toNat.testBit c.val = false ↔ c = 0 ∨ c = 2)) ∧
    (4 < 3 + 2 ∧ 2 + 2 ≤ 4 ∧ 4 < 2 + 3 ∧ 1 + 3 ≤ 4) ∧
    ((1 ≤ (2#8 : Octet).toNat ∧ (2#8 : Octet).toNat ≤ 4) ∧ (1#8 : Octet).toNat = (0 : Console).val + 1 ∧
      (10#8 : Octet) = 2#8 + 1#8 + 7#8 ∧ (11#8 : Octet) ≠ 2#8 + 1#8 + 7#8) ∧
    (at_ 64 0).up.frames.length < (at_ 64 0).ml.params.storeDepth ∧
    ((channel .status 0 0).entry.monitored = true ∧ Channel.reset.entry.monitored = false) ∧
    ((channel .status 0 0).candidate = none ∧ (channel .status 0 0).valid = some (codeOf 0x05#8) ∧
      (channel .status 0 0).valid ≠ some (codeOf 0xFE#8) ∧ (0xFE#8 : Octet) ≠ 0xFF#8) ∧
    ((channel .status 0 0).runCount = 0 ∧ (channel .status 0 0).presence ≠ .absent) := by
  refine ⟨fun x => ⟨lookNow_example _ rfl rfl, ?_⟩, fun h => absurd h.1 (by decide), fun h => h.2.2 ⟨rfl, rfl⟩,
    fun g levels => ⟨lookNow_example _ rfl rfl, rfl, rfl, rfl, by change 64 / 16 = 4; decide⟩, by decide, by decide, by decide, by decide, by decide,
    by decide, by decide⟩
  simp [lookExample, withChannel]

/-- Channel 3 PRESENT with its recent changes and chatter given. -/
def changing (recent : List Nat) (c : Option Chatter) (e : Nat) : State :=
  withChannel 3 { channel .status 0 0 with recent := recent, chatter := c } (at_ e 0)

/-- Chatter with its deadline at E = 7,424,000. -/
def chatterExample : Chatter :=
  { codeAtEntry := 2, deadline := 7424000, lastStamp := 6784000, lastVals := State.reset.tb.vals }

/-- The candidate of channel 3 with code 1. -/
def candidateExample : Candidate := { code := 1, age := 3, frame := 48, vals := State.reset.tb.vals }

/-- A look is due with channel 3, in a role and presence state of unit and group 2, in no-device run 1 with a candidate, and
with the cascade of the group as given. -/
def changeLook (role : Role) (p : Presence) (c : Option Chatter) (slot : Option Cascade) : State :=
  let s := withChannel 3 { channel role 2 0 with presence := p, candidate := some candidateExample, runCount := 1,
                                                 runStart := some { frame := 48, vals := State.reset.tb.vals }, chatter := c }
    (at_ 64 0)
  { s with ct := { s.ct with slots := s.ct.slots.set 2 slot } }

theorem still_example (s : State) (u : Uplink) (ch : Chan) (h : s.cm[ch].entry.monitored = false) : s.stillAt u ch :=
  ⟨fun _ hk => (nomatch h.symm.trans hk.1), fun hl => (nomatch h.symm.trans hl.1)⟩

theorem witness_ChangesDatedAndChatterBounded_looks :
    (∀ role ∈ [Role.status, .alarm, .trip, .mode], ∀ p ∈ [Presence.unknown, .present], ∀ c ∈ [none, some chatterExample],
      let s := changeLook role p c none
      s.tb.e = 64 ∧ s.ubi.lastLook = none ∧ s.validatesAt (uplink 0x10) 3 candidateExample ∧ s.losesAt (uplink 0xFF) 3 ∧
        s.cm[(3 : Chan)].chatter = c ∧ s.cm[(3 : Chan)].presence = p) ∧
    (∀ (u : Uplink) (d : Chan), d ≠ 3 → (changeLook .mode .present none none).stillAt u d) ∧
    (changeLook .alarm .absent none none).validatesAt (uplink 0x10) 3 candidateExample ∧
    (modeSource (changeLook .mode .present none none).cm 2 = some 3 ∧ modeSource (changeLook .alarm .present none none).cm 2 = none) ∧
    ((changeLook .trip .present none none).cm[(3 : Chan)].valid = some 0 ∧
      (changeLook .trip .present none none).cm[(3 : Chan)].entry.tripSet.getLsbD 0 = false ∧
      (changeLook .trip .present none none).cm[(3 : Chan)].entry.tripSet.getLsbD 1 = true) ∧
    (changeLook .trip .present none none).ct.slots[(2 : Group)] = none ∧
    (changeLook .trip .present none (some { close := 99, members := [] })).ct.slots[(2 : Group)].isSome = true := by
  refine ⟨?_, fun u d h => still_example _ u d (by revert d; decide +kernel), ?_⟩ <;> unfold State.validatesAt
  · unfold State.losesAt; decide +kernel
  · decide +kernel

theorem witness_ChangesDatedAndChatterBounded :
    (∀ recent c e, (changing recent c e).cm[(3 : Chan)].presence = .present ∧
      (changing recent c e).cm[(3 : Chan)].recent = recent ∧ (changing recent c e).cm[(3 : Chan)].chatter = c ∧
      (changing recent c e).tb.e = e) ∧
    (changing [] none 64).admitsNow 3 .b ∧
    ((channel .status 0 0).entry.chatterLimit ≤ [6528000, 6656000].length + 2 ∧ 7040000 - 6400000 ≤ 10 * 64000 ∧
      10 * 64000 < 7040001 - 6400000 ∧ [6400000, 6528000].length + 1 < (channel .status 0 0).entry.chatterLimit) ∧
    (7423999 < chatterExample.deadline ∧ chatterExample.deadline ≤ 7424000) := by
  refine ⟨fun _ _ _ => ?_, ⟨by decide, by decide, fun q hq => by cases hq⟩, by decide, by decide⟩
  simp [changing, withChannel, channel, at_]

/-- The EQ with n records of class A. -/
def filled (n : Nat) (s : State) : State :=
  { s with eq := { s.eq with records := List.replicate n (plainRecord .a 1), seq := 65535 } }

theorem filled_length (n : Nat) (s : State) : (filled n s).eq.records.length = n := List.length_replicate

theorem witness_AdmissionFollowsFillAndRoute :
    (∀ n, (filled n (at_ 64 0)).eq.seq < 65536) ∧ (filled 511 (at_ 64 0)).eq.records.length < 512 ∧
    ¬ (filled 512 (at_ 64 0)).eq.records.length < 512 ∧ (filled 479 (at_ 64 0)).eq.records.length < 480 ∧
    ¬ (filled 480 (at_ 64 0)).eq.records.length < 480 ∧ (at_ 64 0).cm[(3 : Chan)].store = [] ∧
    queueExample.cm[(3 : Chan)].store.length = 1 ∧
    (∀ q ∈ (filled 4 (at_ 64 0)).eq.records, isChannelKind q.kind = true → q.source = 3 → q.cls = .a) ∧
    (∃ q ∈ queueExample.eq.records, isChannelKind q.kind = true ∧ q.source = 3 ∧ q.cls ≠ .b) := by
  simp only [filled_length]
  exact ⟨fun _ => by change 65535 < 65536; decide, by decide, by decide, by decide, by decide, by decide, by decide, by decide,
    by decide⟩

/-- Channels 3 and 5 hold entries with equal stamps, channel 7 one with a later stamp. -/
def heldExample : State :=
  let r := fun (ch e : Nat) => mkRecord .state .b ch 0 1 0 (stampOf State.reset.tb.vals e)
  withChannel 5 { channel .status 0 0 with store := [r 5 9] } (withChannel 3 { channel .status 0 0 with store := [r 3 9] }
    (withChannel 7 { channel .status 0 0 with store := [r 7 10] } (at_ 64 0)))

theorem witness_ReleaseTakesEarliestEntry :
    (∃ r, releaseChoice heldExample = some (3, r) ∧ releasable heldExample 3 = some r) ∧
      (releasable heldExample 5).isSome = true ∧ releaseChoice State.reset = none :=
  ⟨⟨_, rfl, rfl⟩, by decide, by decide⟩

/-- Trips of channels 11 and 10 of group 3. -/
def tripExample : List Change :=
  [{ channel := 11, old := some 0, new := 1, stamp := 9600012, vals := State.reset.tb.vals },
   { channel := 10, old := some 0, new := 1, stamp := 9600012, vals := State.reset.tb.vals }]

theorem witness_TripsOpenCascadeWithFirstOut :
    tripExample ≠ [] ∧ (at_ 9600032 0).ct.slots[(3 : Group)] = none ∧
    (∃ c m, cascadeExample.ct.slots[(3 : Group)] = some c ∧ c.firstOut = some m ∧ m.channel = 10 ∧
      (c.members.map Member.channel).Nodup) ∧
    (let ms := membersOf tripExample
     ms.Perm ms.reverse ∧ (ms.map Member.channel).Nodup ∧ (firstOutOf ms).map (·.channel) = some 10) :=
  ⟨by decide, rfl, ⟨_, _, rfl, rfl, rfl, by decide⟩, by decide⟩

/-- The cascade example at E `e` as a cascade of group `g`, with another open or not. -/
def closing (e : Nat) (other : Bool) (s : State) : State :=
  { s with tb := { s.tb with e := e }
           ct := { s.ct with slots := if other then s.ct.slots.set 8 s.ct.slots[3] else s.ct.slots } }

theorem witness_CascadeCloseReports :
    State.reset.ct.slots[(3 : Group)] = none ∧
    (∀ e other, ∃ c m, (closing e other cascadeExample).ct.slots[(3 : Group)] = some c ∧ c.firstOut = some m ∧
      c.close = 9613132 ∧ (closing e other cascadeExample).tb.e = e ∧ (closing e other cascadeExample).ct.incident = true) ∧
    ((closing 9613132 true cascadeExample).ct.slots[(8 : Group)].isSome = true ∧
      9613132 < 0 + 9613132 + cascadeExample.ml.params.tripHold * 3840000) ∧
    (let s := ({ cascadeExample with ml := { cascadeExample.ml with params := { Params.default with tripHold := 0 } } } : State)
     ¬ s.tb.e < max (s.ct.holdEnd.getD 0) (s.tb.e + s.ml.params.tripHold * 3840000)) ∧
    cascadeExample.eq.records.length < 512 := by
  refine ⟨rfl, fun e other => ?_, by decide, by decide, by decide⟩
  cases other <;> exact ⟨_, _, rfl, rfl, rfl, rfl, rfl⟩

/-- The hold end is reached, in a handover state with its resume item. -/
def holdExample (e : Nat) (state : HState) (resume : Resume) : State :=
  let s := onShift (at_ e 0)
  { s with ct := { s.ct with incident := true, holdEnd := some 64 },
           hc := { s.hc with state := state, resume := resume, heldSince := some 16 } }

theorem witness_IncidentHoldsHandover :
    ((∀ h, State.reset.ct.holdEnd = some h → 0 < h) ∧
      ∀ h, (holdExample 63 .held .overrun).ct.holdEnd = some h → (holdExample 63 .held .overrun).tb.e < h) ∧
    (∀ state resume, (holdExample 64 state resume).ct.holdEnd = some 64 ∧ 64 ≤ (holdExample 64 state resume).tb.e ∧
      (holdExample 64 state resume).ct.incident = true ∧ (holdExample 64 state resume).hc.state = state ∧
      (holdExample 64 state resume).hc.heldSince = some 16 ∧ (holdExample 64 state resume).hc.resume = resume) ∧
    (∀ g : Group, (holdExample 64 .held .overrun).ct.slots[g] = none) ∧
    (let s := ({ cascadeExample with ct := { cascadeExample.ct with holdEnd := some 9613132 } } : State)
     s.ct.holdEnd = some 9613132 ∧ 9613132 ≤ s.tb.e ∧ s.ct.incident = true ∧ s.ct.slots[(3 : Group)].isSome = true) ∧
    (∀ state timer, (handing state timer none (at_ 64 0)).hc.state = state ∧ (handing state timer none (at_ 64 0)).hc.timer = timer) := by
  refine ⟨⟨fun h e => ?_, fun h e => ?_⟩, fun _ _ => ⟨rfl, by change 64 ≤ 64; decide, rfl, rfl, rfl, rfl⟩, by decide, by decide,
    fun _ _ => ⟨rfl, rfl⟩⟩
  · cases e
  · cases e; decide

/-- Unit 2 in a mode with its source at a code, with an attempt and a shift or not. -/
def sourceExample (m : UnitMode) (code : Code) (a : Option Attempt) (shift : Option Nat) : State :=
  withChannel 6 { channel .mode 2 0 with valid := some code }
    (withUnit 2 { unitIn m 20 .unknown with attempt := a, cur := ShiftSet.zero shift } (at_ 64 0))

theorem witness_SourceChangesCreditAndCount :
    (∀ m a shift, (sourceExample m 0 a shift).tu[(2 : UnitNo)].mode = m ∧
      (sourceExample m 0 a shift).tu[(2 : UnitNo)].attempt = a ∧
      (sourceExample m 0 a shift).tu[(2 : UnitNo)].cur.start = shift ∧
      (sourceExample m 0 a shift).tu[(2 : UnitNo)].next = none) ∧
    (∀ k : Fin 8, derivedMode (sourceExample .standstill ⟨k.val, by omega⟩ none none) 2 = plainMap[k]) ∧
    (isLoad .generating = true ∧ isLoad .spin = false) ∧
    (let a : Attempt := { start := 20, expiry := 64 }
     63 < a.expiry ∧ a.expiry ≤ 64) ∧ (at_ 64 0).eq.records.length < 512 := by
  refine ⟨fun m a shift => ?_, by decide, by decide, by decide, by decide⟩
  simp [sourceExample, withChannel, withUnit, unitIn, ShiftSet.zero, GenUnit.reset]

theorem witness_ConsoleMessagesTaken :
    (∀ k c state timer incoming, ∃ m, (arrived k c (handing state timer incoming (at_ 64 0))).hc.arrived = some m ∧
      m.kind = k ∧ m.console = c) ∧
    (let f := fun (k : ConsoleKind) (c : Console) (s : State) => refusalOf s.ml.params.scheduleMode s.hc k c
     let h := fun (state : HState) (incoming : Option Console) => handing state .none incoming (at_ 64 0)
     f .dutyClaim 1 (at_ 64 0) = none ∧ f .dutyClaim 1 (withHc { (h .noDuty none).hc with duty := none } (h .noDuty none)) = none ∧
      f .accept 1 (h .windowOpen none) = none ∧ f .accept 1 (h .overrun none) = none ∧ f .accept 1 (h .accepted (some 1)) = none ∧
      f .release 0 (h .accepted (some 1)) = none ∧ f .query 3 (h .held none) = none) ∧
    ((at_ 64 0).hc.shiftOpen = false ∧ (handing .noDuty .none none (at_ 64 0)).hc.shiftOpen = true) ∧
    (onShift (at_ 64 0)).hc.queue.length ≤ 2 ∧ (onShift (at_ 64 0)).eq.records.length < 480 :=
  ⟨fun _ _ _ _ _ => ⟨_, rfl, rfl, rfl⟩, by decide, by decide, by decide, by decide⟩

/-- A queue of messages of the given kinds. -/
def queueOf (l : List DownKind) (tx : Option ConsoleTx) : Handover :=
  { Handover.reset with queue := l.map fun k => { kind := k, answered := none, state := .noDuty, duty := none }, tx := tx }

theorem witness_ConsoleMessagesRefused :
    (∃ m, (arrived .release 0 (onShift (at_ 64 0))).hc.arrived = some m ∧
      refusalOf .console (arrived .release 0 (onShift (at_ 64 0))).hc m.kind m.console = some .noWindow) ∧
    (∀ m ∈ (arrived .query 0 (at_ 64 0)).hc.arrived, m.kind ≠ .accept) ∧
    (let h := queueOf [.confirm, .confirm, .notice, .notice] (some { frames := 1, start := 48 })
     h.queue.length = 4 ∧ (∀ x ∈ h.tx, x.frames = 1 ∧ h.queue ≠ [])) ∧
    (let h := queueOf [.notice, .confirm, .confirm] none
     h.queue.length < 4 ∧ ∀ x ∈ h.tx, x.frames = 1 ∧ h.queue ≠ []) :=
  ⟨⟨_, rfl, rfl⟩, by decide, by decide, by decide⟩

theorem witness_HandoverTimersExpire :
    (onShift (at_ 64 0)).hc.state ≠ .windowOpen ∧ (onShift (at_ 64 0)).hc.state ≠ .accepted ∧
    (∀ state timer e, (handing state timer (some 1) (at_ e 0)).hc.state = state ∧
      (handing state timer (some 1) (at_ e 0)).hc.timer = timer ∧ (handing state timer (some 1) (at_ e 0)).tb.e = e) ∧
    (63 < 64 ∧ 64 ≤ 64) ∧ (handing .windowOpen (.window 64) none (at_ 64 0)).hc.queue.length < 4 ∧
    (handing .windowOpen (.window 64) none (at_ 64 0)).eq.records.length < 480 :=
  ⟨by decide, by decide, fun _ _ _ => ⟨rfl, rfl, rfl⟩, by decide, by decide, by decide⟩

theorem witness_SettleEndClosesShift :
    (∃ x c h, settlingExample.hc.state = .settling ∧ settlingExample.hc.settleEnd = some x ∧ settlingExample.sh.cut = some c ∧
      settlingExample.sh.closing = some h ∧ x = settlingExample.tb.e) ∧
    ({ settlingExample with tb := { settlingExample.tb with e := 200000319 } } : State).tb.e < 200000320 ∧
    settlingExample.hc.deferred = none ∧ settlingExample.tu[(4 : UnitNo)].cur.start = some 100000000 ∧
    settlingExample.tu[(4 : UnitNo)].next = some (ShiftSet.zero (some 200000000)) ∧
    settlingExample.eq.records.length < 480 :=
  ⟨⟨_, _, _, rfl, rfl, rfl, rfl, rfl⟩, by decide, rfl, by decide, by decide, by decide⟩

/-- A handover state in a schedule mode, with the incident active or not. -/
def reaching (state : HState) (mode : SchedMode) (incident : Bool) (opened : Bool) : State :=
  let s := onShift (at_ 64000 0)
  { s with hc := { s.hc with state := state, shiftOpen := opened }, ct := { s.ct with incident := incident },
           ml := { s.ml with params := { s.ml.params with scheduleMode := mode } } }

theorem witness_BoundaryActsByState :
    ∀ state mode incident opened, (reaching state mode incident opened).hc.state = state ∧
      (reaching state mode incident opened).ml.params.scheduleMode = mode ∧
      (reaching state mode incident opened).ct.incident = incident ∧
      (reaching state mode incident opened).hc.shiftOpen = opened :=
  fun _ _ _ _ => ⟨rfl, rfl, rfl, rfl⟩

/-- A boundary of a schedule at 00:00, at local second 2. -/
def midnight (setting : Option TimeSetting) (unset : Bool) : State :=
  let s := boundary .freeRun none 0 3
  { s with tb := { s.tb with unset := unset, pendingSetting := setting }, hc := { s.hc with schedule := [0] } }

theorem witness_BoundaryActsByState_evaluated :
    ([360, 840].Pairwise (· < ·) ∧ (∀ m ∈ [360, 840], m ≤ 1439) ∧ latestBoundary [360, 840] 50400 = some (0, 1) ∧
      latestBoundary [360, 840] 21599 = none) ∧
    (∀ setting unset, (midnight setting unset).inReset = false ∧ (midnight setting unset).tb.lastBoundary = none ∧
      (midnight setting unset).tb.pendingSetting = setting ∧ (midnight setting unset).tb.unset = unset) ∧
    (midnight none false).atBoundary ∧
    (let t := after .localSecondBoundary (midnight none false)
     stationSeconds ((t.tb.e : Int) + t.tb.delta) = 2 ∧ latestBoundary [0] 2 = some (0, 0) ∧
      passedCount 1 (some (0, 0)) none none ≠ 0 ∧ passedCount 1 (some (0, 0)) (some (0, 0)) none = 0) ∧
    (stepExample.tb.pendingStep = some { amount := 64001, applyAt := stepExample.tb.e, residual := 7807 } ∧
      stepExample.tb.unset = false ∧ stepUnset.tb.unset = true) := by
  unfold State.atBoundary
  exact ⟨by decide +kernel, fun _ _ => ⟨rfl, rfl, rfl, rfl⟩, by decide +kernel, by decide +kernel, by decide⟩

/-! For the statements on requests: any request can wait at a frame boundary, in any state. -/

theorem requested_example (req : List Octet) (s : State) (h : s.tb.e % 16 = 0) : (ask req s).requested req := ⟨rfl, h⟩

theorem witness_ReadsChangeNothing :
    ((∀ req, (ask req (at_ 64 0)).requested req) ∧
    (let s := after .settleEnd settlingExample
     ∃ r, s.sh.ring[0]? = some r ∧ s.tb.e % 16 = 0) ∧ 0 < 20 ∧ 19 < 20 ∧ 0 < 256) ∧
    (∀ req, let s := (at_ 64 0).replied req []
      s.inReset = false ∧ s.tb.e % 16 = 0 ∧ s.ml.request = .executed req ∧ s.ml.executedAt = some s.tb.e) ∧
    ∀ req, let s := (at_ 64 0).replied req (replyOf .readTime [2#8] settingExample)
      s.inReset = false ∧ s.tb.e % 16 = 0 ∧ s.ml.request = .executed req ∧ s.ml.executedAt = some s.tb.e ∧
        showsSetting s.ml.reply = true ∧ s.tb.pendingSetting = none :=
  ⟨⟨fun req => requested_example req _ (by decide), ⟨_, rfl, by decide⟩, by decide, by decide, by decide⟩,
    fun _ => ⟨rfl, show 64 % 16 = 0 by decide, rfl, rfl⟩,
    fun _ => ⟨rfl, show 64 % 16 = 0 by decide, rfl, rfl,
      show showsSetting (replyOf .readTime [2#8] settingExample) = true by decide +kernel, rfl⟩⟩

theorem witness_TimeAndSearchRequests :
    (∀ req, (ask req (onB .locked 64016)).requested req ∧ (ask req (at_ 64 0)).requested req) ∧
    (1099511627775 < 2 ^ 40 ∧ 4294967295 < 2 ^ 32 ∧ 4000000000 < 2 ^ 32) ∧
    (((at_ 64 0).dl.mode = .freeRun ∧ (at_ 64 0).tb.pendingStep = none) ∧ stepExample.tb.pendingStep.isSome = true) ∧
    ((onB .locked 64016).dl.search = none ∧ (onB .locked 64016).dl.mode = .locked ∧ (onB .locked 64016).dl.active = some .b) ∧
    (∃ x, ({ onB .locked 64016 with dl := { (onB .locked 64016).dl with search := some (searchOn .b 100 none) } } :
      State).dl.search = some x) ∧ (at_ 64 0).eq.records.length < 512 ∧
    (∀ since x req,
      let s := ask req { revertExample since with dl := { (revertExample since).dl with search := some x } }
      s.requested req ∧ s.dl.search = some x ∧
        (({ s with dl := { s.dl with search := none } } : State).revertDue ↔ (revertExample since).revertDue)) ∧
    (revertExample 60160016).revertDue ∧ ¬ (revertExample 60160017).revertDue :=
  ⟨fun req => ⟨requested_example req _ (by decide), requested_example req _ (by decide)⟩, by decide, by decide, by decide,
    ⟨_, rfl⟩, by decide, fun _ _ req => ⟨requested_example req _ (by change 64000016 % 16 = 0; decide), rfl, Iff.rfl⟩,
    witness_RevertWaitReturnsToA.1, witness_RevertWaitReturnsToA.2.1⟩

theorem witness_NumericParametersWritten :
    (∀ n v, (ask (writeRequest n v) (at_ 64 0)).requested (writeRequest n v)) ∧
      ((0#32 : BitVec 32) ≠ 1#32 ∧ (2#32 : BitVec 32) ≠ 0#32 ∧ (2#32 : BitVec 32) ≠ 1#32) :=
  ⟨fun _ _ => requested_example _ _ (by decide), by decide⟩

/-- A request waits while B is followed in LOCKED and A is QUALIFIED since a tick. -/
def policyExample (since : Nat) (p : Policy) (q : Qual) (req : List Octet) : State :=
  let s := revertExample since
  ask req { s with rm := { s.rm with a := { s.rm.a with qual := q } },
                   ml := { s.ml with params := { s.ml.params with policy := p } } }

theorem witness_ReferenceParametersAct :
    (∀ since p q req, (policyExample since p q req).requested req ∧ (policyExample since p q req).ml.params.policy = p ∧
      (policyExample since p q req).rm.a.qual = q ∧ (policyExample since p q req).rm.b.qual = .qualified ∧
      (policyExample since p q req).dl.active = some .b ∧ (policyExample since p q req).dl.mode = .locked) ∧
    (3 < (4#32 : BitVec 32).toNat ∧ 1 < (2#32 : BitVec 32).toNat) ∧
    (Policy.allows .forceA .b = false ∧ Policy.allows .forceA .a = true ∧ Policy.allows .auto .a = true) ∧
    (∀ req,
      let s := policyExample 64 .auto .qualified req
      let t := ({ s with dl := { s.dl with active := some .a } } : State)
      t.requested req ∧ t.ml.params.policy = .auto ∧ t.dl.mode = .locked ∧ t.dl.active = some .a ∧
        t.rm.b.qual = .qualified ∧ t.ml.params.buildOut = true ∧ t.rm.a.lastErr = some 0 ∧ t.rm.b.lastErr = some 0) ∧
    (Policy.allows .forceB .a = false ∧ Policy.allows .forceB .b = true) ∧
    (revertExample 60160016).revertDue ∧ ¬ (revertExample 60160017).revertDue ∧
    ((at_ 64 0).dl.search = none ∧ (at_ 64 0).ml.params.searchOnAcquire = false ∧ isFollowing (at_ 64 0).dl.mode = false) :=
  ⟨fun since p q req => ⟨requested_example req _ (by change 64000016 % 16 = 0; decide), rfl, rfl, rfl, rfl, rfl⟩, by decide, by decide,
    fun req => ⟨requested_example req _ (by change 64000016 % 16 = 0; decide), rfl, rfl, rfl, rfl, rfl, rfl, rfl⟩, by decide,
    witness_RevertWaitReturnsToA.1, witness_RevertWaitReturnsToA.2.1, by decide⟩

theorem witness_DepthOffsetAndModeAct :
    (∀ v, (ask (writeRequest 12 v) (inFrame (at_ 64 0))).requested (writeRequest 12 v)) ∧
    ((inFrame (at_ 64 0)).sli.alignment = .inFrame ∧ State.reset.sli.alignment = .lof) ∧
    (State.reset.tb.unset = true ∧ (at_ 64 0).tb.unset = false) ∧
    ((0 : Int) - 60 < 0 ∧ latestBoundary [360] 21599 = none ∧ latestBoundary [360] 21600 = some (0, 0) ∧
      passedCount 1 (some (0, 0)) none none ≠ 0 ∧ passedCount 1 (some (0, 0)) (some (0, 0)) none = 0) ∧
    1 < (2#32 : BitVec 32).toNat ∧
    (∀ state mode opened req, (ask req (reaching state mode false opened)).requested req ∧
      (ask req (reaching state mode false opened)).hc.state = state ∧
      (ask req (reaching state mode false opened)).hc.schedule = [] ∧
      (ask req (reaching state mode false opened)).ml.params.scheduleMode = mode) :=
  ⟨fun v => requested_example _ _ (by decide), by decide, by decide, by decide, by decide,
    fun _ _ _ req => ⟨requested_example req _ (by change 64000 % 16 = 0; decide), rfl, rfl, rfl⟩⟩

theorem witness_ChannelTableWritten :
    (∀ req, (ask req (withChannel 23 (channel .mode 2 0) (at_ 64 0))).requested req) ∧
    (0 < 1 ∧ 8388608 < 2 ^ 24 ∧ 2 ^ 24 ≤ 16777216 ∧ 16777216 < 2 ^ 32 ∧ 65535 < 2 ^ 16 ∧ 255 < 2 ^ 8) ∧
    ¬ (Role.mode = .mode ∧ (7 : Group) = 8) ∧ (Nat.testBit 8388608 23 = true) ∧
    modeSource (withChannel 23 (channel .mode 2 0) (at_ 64 0)).cm 2 = some 23 :=
  ⟨fun req => requested_example req _ (by decide +revert), by decide, by decide, by decide, by decide⟩

theorem witness_UnitTableWritten :
    (∀ req, (ask req (sourceExample .standstill 0 none none)).requested req) ∧ 65535 < 2 ^ 16 ∧
    (let b : Vector Nat 8 := #v[1, 2, 3, 4, 5, 6, 7, 4294967295]
     (∀ k : Fin 8, b[k] < 2 ^ 32) ∧ ¬ b.toList.sum * 64000 < 2 ^ 47) ∧
    (let b : Vector Nat 8 := #v[0, 0, 0, 0, 0, 0, 0, 2199023255]
     (∀ k : Fin 8, b[k] < 2 ^ 32) ∧ b.toList.sum * 64000 < 2 ^ 47) ∧ ((400 = 380 + 20) ∧ 5 ≤ 6 ∧ 400 < 2 ^ 32) :=
  ⟨fun req => requested_example req _ (by decide +revert), by decide, by decide, by decide, by decide⟩

theorem witness_ScheduleWritten :
    (∀ state mode opened req, (ask req (reaching state mode false opened)).requested req ∧
      (ask req (reaching state mode false opened)).hc.state = state ∧
      (ask req (reaching state mode false opened)).hc.shiftOpen = opened) ∧
    (let l := [0, 1, 2, 3, 4, 1439]
     1 ≤ l.length ∧ l.length ≤ 6 ∧ (∀ m ∈ l, m < 2 ^ 16) ∧ (∀ m ∈ l, m ≤ 1439) ∧ l.Pairwise (· < ·)) ∧
    (¬ (∀ m ∈ [1440], m ≤ 1439) ∧ ¬ [5, 5].Pairwise (· < ·)) :=
  ⟨fun _ _ _ req => ⟨requested_example req _ (by change 64000 % 16 = 0; decide), rfl, rfl⟩, by decide, by decide⟩

/-- A taken WARM_RESTART whose reply has ended. -/
def restarting (e : Nat) (search : Option Search) (sending : Option Sending) : State :=
  let s := onB .locked e
  { s with dl := { s.dl with search := search }, ra := { s.ra with sending := sending }
           ml := { s.ml with request := .executed [0x60#8] } }

theorem witness_WarmRestartKeepsWhatItMust :
    (ask [0x60#8] (at_ 64 0)).requested [0x60#8] ∧
    (∀ search sending, ((restarting 64016 search sending).tb.e % 16 = 0 ∧ (restarting 64016 search sending).ml.reply = [] ∧
      (restarting 64016 search sending).ml.request = .executed [0x60#8]) ∧ (restarting 64016 search sending).dl.search = search ∧
      (restarting 64016 search sending).ra.sending = sending ∧ (restarting 64016 search sending).hc.state ≠ .held ∧
      (restarting 64016 search sending).ct.incident = false ∧
      ∀ u : UnitNo, (restarting 64016 search sending).tu[u].attempt = none) ∧
    ¬ (restarting 64017 none none).tb.e % 16 = 0 ∧ tallyExample.tu[(3 : UnitNo)].mode ≠ .unknown ∧
    (∀ since x,
      let r := revertExample since
      let s := ({ r with dl := { r.dl with search := some x }, ml := { r.ml with request := .executed [0x60#8] } } : State)
      (s.tb.e % 16 = 0 ∧ s.ml.reply = [] ∧ s.ml.request = .executed [0x60#8]) ∧ s.dl.search = some x ∧
        (({ s with dl := { s.dl with search := none } } : State).revertDue ↔ r.revertDue)) := by
  refine ⟨requested_example _ _ (by decide), fun _ _ => ⟨⟨by change 64016 % 16 = 0; decide, rfl, rfl⟩, rfl, rfl, ?_, rfl, fun u => ?_⟩,
    by decide, by decide, fun _ _ => ⟨⟨by change 64000016 % 16 = 0; decide, rfl, rfl⟩, rfl, Iff.rfl⟩⟩
  · change HState.noDuty ≠ .held; decide
  · change State.reset.tu[u].attempt = none
    revert u; decide

theorem witness_RefusedRequestsChangeNothing :
    (∀ req, (ask req (at_ 64 0)).requested req) ∧ (at_ 65 0).tb.e % 16 ≠ 0 ∧ State.reset.ml.request = .empty ∧
    (∃ req, (ask [2#8] (at_ 64 0)).ml.request = .complete req ∧ req.head? ≠ some 1#8) ∧
    (((0 : Nat) + 1 ≠ 2) ∧ (13 % 2 = 1 ∧ 12 < 13) ∧ 0x99 ∉ [1, 2, 3, 16, 17, 32, 33, 34, 48, 49, 50, 64, 65, 66, 80, 96]) ∧
    (20 ≤ (20#8 : Octet).toNat ∧ 24 ≤ (24#8 : Octet).toNat ∧ 8 ≤ (8#8 : Octet).toNat ∧ (8#8 : Octet) ≠ 0xFF#8) ∧
    State.reset.sh.ring.length ≤ (0#8 : Octet).toNat ∧
    (2 ≤ (2#8 : Octet).toNat ∧ 5 ≤ (5#8 : Octet).toNat ∧ 9 ≤ (9#8 : Octet).toNat ∧ ∃ m ∈ [7#8, 8#8], 8 ≤ m.toNat) ∧
    (¬ (∀ k ∈ ([3#8] : List Octet).head?, k.toNat = 4 ∨ 20 ≤ k.toNat) ∧
      (∀ k ∈ ([3#8, 0#8] : List Octet).head?, k.toNat = 3 ∨ 20 ≤ k.toNat) ∧
      (∀ k ∈ ([20#8] : List Octet).head?, k.toNat = 0 ∨ 20 ≤ k.toNat)) ∧
    (¬ (∀ k ∈ ([1#8] : List Octet).head?, k.toNat = 2 ∨ (k ≠ 1#8 ∧ k ≠ 2#8)) ∧
      (∀ k ∈ ([3#8, 0#8] : List Octet).head?, k.toNat = 2 ∨ (k ≠ 1#8 ∧ k ≠ 2#8))) := by
  refine ⟨fun req => requested_example req _ (by decide), by decide, rfl, ⟨_, rfl, by decide⟩, by decide, by decide, by decide,
    by decide, by decide, by decide⟩

end Sys2Proof.Tests
end

/-! The loop computation (R37): what it makes of I and of the pending trim, what the lock and the return to A that may
follow it leave of them, and the boundary that brings the pending trim into force. -/

section
namespace Sys2Proof.Machine

/-! ### What a change of mode or reference leaves of the trims -/

/-- The trim in force, the pending trim and the integral are the same in two states. -/
structure SameTrims (s t : State) : Prop where
  trim : t.tb.trim = s.tb.trim
  pendingTrim : t.tb.pendingTrim = s.tb.pendingTrim
  integral : t.dl.integral = s.dl.integral

theorem SameTrims.refl (s : State) : SameTrims s s := ⟨rfl, rfl, rfl⟩

theorem SameTrims.trans {s t u : State} (h : SameTrims s t) (g : SameTrims t u) : SameTrims s u :=
  ⟨g.trim.trans h.trim, g.pendingTrim.trans h.pendingTrim, g.integral.trans h.integral⟩

theorem sameTrims_dropSetting (m : TbMode) (s : State) : SameTrims s (s.dropSetting m) := by
  unfold State.dropSetting
  split
  · exact ⟨rfl, rfl, rfl⟩
  · exact .refl s

theorem sameTrims_offer (r : EventRecord) (s : State) : SameTrims s (s.offer r) :=
  ⟨by rw [State.offer_tb], by rw [State.offer_tb], by rw [State.offer_dl]⟩

theorem sameTrims_setMode (m : TbMode) (a : Option Ref) (c : TbCause) (s : State) : SameTrims s (s.setMode m a c) := by
  unfold State.setMode
  split
  · exact .refl s
  · refine SameTrims.trans ?_ (sameTrims_offer ..)
    exact (sameTrims_dropSetting m s).trans ⟨rfl, rfl, rfl⟩

theorem sameTrims_follow (r : Ref) (m : TbMode) (b : Int) (c : TbCause) (s : State) : SameTrims s (s.follow r m b c) := by
  unfold State.follow
  refine SameTrims.trans ?_ (sameTrims_setMode ..)
  exact ⟨rfl, rfl, rfl⟩

theorem sameTrims_testRevert (s : State) : SameTrims s s.testRevert := by
  unfold State.testRevert
  split
  · split
    · exact sameTrims_follow ..
    · exact .refl s
  · exact .refl s

/-! ### The values of a loop computation -/

theorem trimOk_clampTrim (x : Int) : TrimOk (clampTrim x) := by
  unfold TrimOk clampTrim clampInt
  omega

/-- The division of R37 rounds toward minus infinity: its divisor is positive. -/
theorem fdiv_two_pow (x : Int) (n : Nat) : Int.fdiv x (2 ^ n) = x / (2 ^ n : Nat) := by
  rw [Int.fdiv_eq_ediv_of_nonneg x (by positivity)]
  norm_cast

theorem newIntegral_eq (i x : Int) (q : Nat) :
    newIntegral i x q = max (-200000) (min 200000 (i + Int.fdiv x (2 ^ q))) := by
  rw [fdiv_two_pow]; rfl

theorem newTrim_eq (i x : Int) (p : Nat) :
    newTrim i x p = max (-200000) (min 200000 (i + Int.fdiv x (2 ^ p))) := by
  rw [fdiv_two_pow]; rfl

/-- The part of a loop computation that works in every mode. -/
def State.computeTrim (x : Int) (s : State) : State :=
  let i := newIntegral s.dl.integral x s.dl.q
  (s.onDl fun d => { d with integral := i, history := [] }).writeTrim (newTrim i x s.dl.p)

/-- Nothing that the end of acquisition brings with it touches what the computation wrote. -/
theorem sameTrims_runLoop (x : Int) (s : State) : SameTrims (s.computeTrim x) (s.runLoop x) := by
  unfold State.runLoop
  dsimp only
  split
  · exact (sameTrims_setMode ..).trans (sameTrims_testRevert _)
  · exact .refl _

theorem runLoop_integral (x : Int) (s : State) : (s.runLoop x).dl.integral = newIntegral s.dl.integral x s.dl.q :=
  (sameTrims_runLoop x s).integral

theorem runLoop_pendingTrim (x : Int) (s : State) :
    (s.runLoop x).tb.pendingTrim = newTrim (newIntegral s.dl.integral x s.dl.q) x s.dl.p :=
  (sameTrims_runLoop x s).pendingTrim

theorem runLoop_trim (x : Int) (s : State) : (s.runLoop x).tb.trim = s.tb.trim := (sameTrims_runLoop x s).trim

/-! ### The boundary latches the pending trim -/

@[simp] theorem takeClass_trim (s : State) : s.takeClass.tb.trim = s.tb.trim := by
  unfold State.takeClass
  split <;> rfl

@[simp] theorem reportClass_tb (old : Quality) (s : State) : (s.reportClass old).tb = s.tb :=
  (reportClass_within old s).out .tb (by decide)

@[simp] theorem onLocalTime_tb (b : Bool) (s : State) : (s.onLocalTime b).tb = s.tb :=
  (onLocalTime_within b s).out .tb (by decide)

@[simp] theorem reportOffset_trim (old : Quality) (unset : Bool) (r : Stamp → EventRecord) (s : State) :
    (s.reportOffset old unset r).tb.trim = s.tb.trim := by
  simp [State.reportOffset]

theorem applySetting_trim (x : TimeSetting) (s : State) : (s.applySetting x).tb.trim = s.tb.trim := by
  simp [State.applySetting, State.setOffset]

@[simp] theorem recomputeU_trim (s : State) : s.recomputeU.tb.trim = s.tb.trim := by
  unfold State.recomputeU
  split <;> rfl

theorem plainSecond_trim (s : State) : s.plainSecond.tb.trim = s.tb.trim := by
  simp [State.plainSecond]

theorem handStep_trim (s : State) : s.handStep.tb.trim = s.tb.trim := by
  unfold State.handStep
  split <;> rfl

theorem takeBoundary_trim (s : State) : s.takeBoundary.tb.trim = s.tb.pendingTrim := by
  have latched : s.latchSecond.handStep.tb.trim = s.tb.pendingTrim := handStep_trim s.latchSecond
  unfold State.takeBoundary
  split
  · exact (applySetting_trim ..).trans latched
  · exact (plainSecond_trim _).trans latched

theorem exec_localSecondBoundary (s : State) : exec .localSecondBoundary s = .next s.secondBoundary := rfl

theorem boundaryDue_iff (t : Timebase) :
    t.boundaryDue = true ↔ ((t.e : Int) + t.delta) % 64000 = 0 ∧ t.lastBoundary ≠ some t.e := by
  simp [Timebase.boundaryDue, Timebase.station]

theorem secondBoundary_of_atBoundary {s : State} (h : s.atBoundary) : s.secondBoundary = s.takeBoundary := by
  obtain ⟨running, due⟩ := h
  simp [State.secondBoundary, running, (boundaryDue_iff s.tb).mpr due]

/-- Settles O25: the lock and the return to A that may follow the computation keep what it wrote, and a boundary latches
the pending trim before anything else. -/
theorem loopComputationSetsTrim : Obligations.LoopComputationSetsTrim := by
  unfold Obligations.LoopComputationSetsTrim
  intro s x i
  have integral : (s.runLoop x).dl.integral = i := (runLoop_integral x s).trans (newIntegral_eq ..)
  have pending : (s.runLoop x).tb.pendingTrim = newTrim i x s.dl.p := by
    rw [runLoop_pendingTrim, newIntegral_eq]
  refine ⟨integral, pending.trans (newTrim_eq ..), ?_, ?_, runLoop_trim x s, fun b h => ?_⟩
  · rw [runLoop_integral]; exact trimOk_clampTrim _
  · rw [pending]; exact trimOk_clampTrim _
  · refine ⟨b.secondBoundary, exec_localSecondBoundary b, ?_⟩
    rw [secondBoundary_of_atBoundary h, takeBoundary_trim]

end Sys2Proof.Machine
end

/-! The elastic stores (R63, R64): what a write, a read and a slip make of a store and of the Event Queue, the second
boundary that clears the record-made flags, and the commands that leave the downward store alone in LOF. -/

section
namespace Sys2Proof.Machine

/-! ### A store replaced, and an offer beside it -/

@[simp] theorem store_setStore (n : StoreName) (x : Elastic) (s : State) : (s.setStore n x).store n = x := by
  cases n <;> rfl

@[simp] theorem setStore_setStore (n : StoreName) (x y : Elastic) (s : State) :
    (s.setStore n x).setStore n y = s.setStore n y := by
  cases n <;> rfl

@[simp] theorem setStore_eq (n : StoreName) (x : Elastic) (s : State) : (s.setStore n x).eq = s.eq := by
  cases n <;> rfl

@[simp] theorem setStore_tb (n : StoreName) (x : Elastic) (s : State) : (s.setStore n x).tb = s.tb := by
  cases n <;> rfl

@[simp] theorem setStore_ml (n : StoreName) (x : Elastic) (s : State) : (s.setStore n x).ml = s.ml := by
  cases n <;> rfl

@[simp] theorem store_offer (n : StoreName) (r : EventRecord) (s : State) : (s.offer r).store n = s.store n := by
  cases n
  · exact s.offer_up r
  · exact s.offer_down r

/-- A record of class B that the queue does not admit is counted as lost (R92, R94). -/
theorem offer_eq_of_full {r : EventRecord} {s : State} (b : r.cls = .b) (full : 480 ≤ s.eq.records.length) :
    (s.offer r).eq = { s.eq with lostB := min (s.eq.lostB + 1) 65535, lossPending := true } := by
  have refused : s.eq.takes r.cls = false := by simp [b, EventQueue.takes, full]
  rcases offer_cases r s with ⟨taken, -⟩ | ⟨-, lost⟩
  · simp [refused] at taken
  · rw [lost, b]; rfl

/-! ### A slip -/

/-- A store after a slip: the counter is one higher, up to its top, and the record of this second is made. -/
def Elastic.slipped (x : Elastic) : Elastic := { x with slips := min (x.slips + 1) 65535, recordMade := true }

theorem slip_of_recordMade {n : StoreName} {s : State} (k : SlipType) (made : (s.store n).recordMade = true) :
    s.slip n k = s.setStore n (s.store n).slipped :=
  if_pos made

theorem slip_of_first {n : StoreName} {s : State} (k : SlipType) (first : (s.store n).recordMade = false) :
    s.slip n k = (s.setStore n (s.store n).slipped).offer
      (slipRecord n k (s.store n).slips (min ((s.store n).slips + 1) 65535) s.tb.now) :=
  if_neg (by simp [first])

theorem slip_eq_of_recordMade {n : StoreName} {s : State} (k : SlipType) (made : (s.store n).recordMade = true) :
    (s.slip n k).eq = s.eq := by
  rw [slip_of_recordMade k made, setStore_eq]

@[simp] theorem store_slip (n : StoreName) (k : SlipType) (s : State) :
    (s.slip n k).store n = (s.store n).slipped := by
  cases made : (s.store n).recordMade
  · simp [slip_of_first k made]
  · simp [slip_of_recordMade k made]

/-- What a slip of type `k` of the store in `s` must leave in `t`: the flag set, and the record of the first slip of the
second admitted, or lost and counted (R64, R92, R94). -/
def SlipReported (n : StoreName) (k : SlipType) (s t : State) : Prop :=
  (t.store n).recordMade = true ∧ ((s.store n).recordMade = false →
    (s.eq.records.length < 480 →
      s.admittedNext t (slipRecord n k (s.store n).slips (min ((s.store n).slips + 1) 65535) s.tb.now)) ∧
    (480 ≤ s.eq.records.length →
      t.eq = { s.eq with lostB := min (s.eq.lostB + 1) 65535, lossPending := true }))

theorem slip_reported (n : StoreName) (k : SlipType) (s : State) : SlipReported n k s (s.slip n k) := by
  refine ⟨by rw [store_slip]; rfl, fun first => ?_⟩
  rw [slip_of_first k first]
  constructor
  · intro room
    refine .of_eq (State.offer_admitted ?_) (setStore_eq n (s.store n).slipped s)
    simpa [slipRecord, mkRecord, EventQueue.takes] using room
  · intro full
    rw [offer_eq_of_full rfl (by simpa using full), setStore_eq]

/-! ### A write and a read -/

theorem writeStore_of_room {n : StoreName} {s : State} (f : Vector Octet 24)
    (room : (s.store n).frames.length < s.ml.params.storeDepth) :
    s.writeStore n f = s.setStore n { s.store n with frames := (s.store n).frames ++ [f] } :=
  if_pos room

theorem writeStore_of_full {n : StoreName} {s : State} (f : Vector Octet 24)
    (full : (s.store n).frames.length = s.ml.params.storeDepth) :
    s.writeStore n f = (s.setStore n { s.store n with frames := (s.store n).frames.tail ++ [f] }).slip n .dropped :=
  if_neg (by omega)

theorem readStore_of_cons {n : StoreName} {s : State} {g : Vector Octet 24} {r : List (Vector Octet 24)}
    (h : (s.store n).frames = g :: r) : s.readStore n = s.setStore n { s.store n with frames := r, last := g } := by
  simp [State.readStore, h]

theorem readStore_of_nil {n : StoreName} {s : State} (h : (s.store n).frames = []) :
    s.readStore n = s.slip n .repeated := by
  simp [State.readStore, h]

/-- The frame that a read gives is the oldest, or the one read before where there is none. -/
theorem last_readStore (n : StoreName) (s : State) :
    ((s.readStore n).store n).last = (s.store n).frames.head?.getD (s.store n).last := by
  cases h : (s.store n).frames with
  | nil => simp [readStore_of_nil h, Elastic.slipped]
  | cons g r => simp [readStore_of_cons h]

theorem store_writeStore_of_full {n : StoreName} {s : State} (f : Vector Octet 24)
    (full : (s.store n).frames.length = s.ml.params.storeDepth) :
    (s.writeStore n f).store n =
      { (s.store n).slipped with frames := (s.store n).frames.tail ++ [f] } := by
  rw [writeStore_of_full f full, store_slip, store_setStore]; rfl

theorem writeStore_reported {n : StoreName} {s : State} (f : Vector Octet 24)
    (full : (s.store n).frames.length = s.ml.params.storeDepth) :
    SlipReported n .dropped s (s.writeStore n f) := by
  rw [writeStore_of_full f full]
  simpa [SlipReported, State.admittedNext] using
    slip_reported n .dropped (s.setStore n { s.store n with frames := (s.store n).frames.tail ++ [f] })

/-- Later slips of a second make no record (R64). -/
theorem writeStore_eq_of_recordMade {n : StoreName} {s : State} (f : Vector Octet 24)
    (made : (s.store n).recordMade = true) : (s.writeStore n f).eq = s.eq := by
  unfold State.writeStore
  dsimp only
  split
  · exact setStore_eq ..
  · rw [slip_eq_of_recordMade .dropped (by simpa using made), setStore_eq]

theorem readStore_eq_of_recordMade {n : StoreName} {s : State} (made : (s.store n).recordMade = true) :
    (s.readStore n).eq = s.eq := by
  cases h : (s.store n).frames with
  | nil => rw [readStore_of_nil h, slip_eq_of_recordMade .repeated made]
  | cons g r => rw [readStore_of_cons h, setStore_eq]

/-! ### A write and a read at one tick act in the order taken -/

theorem slips_writeStore_readStore {n : StoreName} {s : State} (f : Vector Octet 24)
    (full : (s.store n).frames.length = s.ml.params.storeDepth) (depth : 0 < s.ml.params.storeDepth) :
    (((s.readStore n).writeStore n f).store n).slips = (s.store n).slips := by
  cases h : (s.store n).frames with
  | nil => simp [h] at full; omega
  | cons g r =>
    have room : r.length < s.ml.params.storeDepth := by simp [h] at full; omega
    rw [readStore_of_cons h, writeStore_of_room f (by simpa using room)]
    simp

theorem store_readStore_writeStore {n : StoreName} {s : State} (f : Vector Octet 24)
    (empty : (s.store n).frames = []) (depth : 0 < s.ml.params.storeDepth) :
    ((s.writeStore n f).readStore n).store n = { s.store n with last := f } := by
  have written : ((s.writeStore n f).store n).frames = [f] := by
    rw [writeStore_of_room f (by simpa [empty] using depth)]; simp [empty]
  rw [readStore_of_cons written, writeStore_of_room f (by simpa [empty] using depth)]
  simp [← empty]

theorem frames_writeStore_readStore {n : StoreName} {s : State} (f : Vector Octet 24)
    (empty : (s.store n).frames = []) (depth : 0 < s.ml.params.storeDepth) :
    (((s.readStore n).writeStore n f).store n).frames = [f] := by
  have params : (s.slip n .repeated).ml = s.ml :=
    (slip_within n .repeated s).out .ml (by cases n <;> decide)
  have read : ((s.slip n .repeated).store n).frames = [] := by rw [store_slip]; exact empty
  rw [readStore_of_nil empty, writeStore_of_room f (by rw [read, params]; exact depth), store_setStore, read]
  rfl

/-! ### The second boundary and the downward store in LOF -/

/-- After the latches a boundary leaves both stores alone. -/
theorem takeBoundary_within (s : State) :
    Within [.tb, .dl, .rm, .hc, .eq, .sh, .tu] s.latchSecond s.takeBoundary := by
  have hand : Within [.tb, .dl] s.latchSecond s.latchSecond.handStep := by
    unfold State.handStep
    split
    · exact .refl ..
    · exact (onTb_within ..).and (onDl_within ..)
  unfold State.takeBoundary
  dsimp only
  split
  · exact (hand.and (applySetting_within ..)).mono (by decide)
  · exact (hand.and (plainSecond_within ..)).mono (by decide)

theorem syncAbsent_of_lof {s : State} (lof : s.sli.alignment = .lof) : s.syncAbsent = s := by
  simp [State.syncAbsent, lof]

theorem takeFrame_of_lof {s : State} (fine : Fin 15625) (f : DownFrame) (lof : s.sli.alignment = .lof) :
    s.takeFrame fine f = s := by
  simp [State.takeFrame, lof]

theorem downlinkStart_down_of_lof {s : State} (lof : s.sli.alignment = .lof) : s.downlinkStart.down = s.down := by
  unfold State.downlinkStart
  split
  · simp [State.startDownlink, State.readDown, lof]
  · rfl

/-- Settles O32: a slip is the same operation at either end, so what it reports is shown once and used for the write into
a full store and for the read of an empty one. -/
theorem storesSlipAtTheirEnds : Obligations.StoresSlipAtTheirEnds := by
  unfold Obligations.StoresSlipAtTheirEnds
  refine ⟨fun s n f => ⟨writeStore_of_room f, fun full depth => ?_, fun g r => readStore_of_cons,
    fun empty depth => ?_, fun made => ⟨writeStore_eq_of_recordMade f made, readStore_eq_of_recordMade made⟩⟩,
    fun s h => ?_, fun c s lof hc => ?_⟩
  · have written := store_writeStore_of_full f full
    refine ⟨by rw [written], ?_, by rw [written]; rfl, by rw [written]; rfl, writeStore_reported f full,
      slips_writeStore_readStore f full depth, by rw [last_readStore, written]; rfl⟩
    rw [written]; simp; omega
  · have read : (s.readStore n).store n = (s.store n).slipped := by rw [readStore_of_nil empty, store_slip]
    refine ⟨by rw [read]; exact empty, by rw [read]; rfl, by rw [read]; rfl, ?_,
      store_readStore_writeStore f empty depth, frames_writeStore_readStore f empty depth⟩
    rw [readStore_of_nil empty]; exact slip_reported n .repeated s
  · refine ⟨s.secondBoundary, exec_localSecondBoundary s, ?_, ?_⟩ <;> rw [secondBoundary_of_atBoundary h]
    · exact (takeBoundary_within s).out .up (by decide)
    · exact (takeBoundary_within s).out .down (by decide)
  · rcases hc with rfl | rfl | rfl | ⟨fine, f, rfl⟩ | ⟨u, o, rfl⟩
    · exact ⟨s.downlinkStart, rfl, downlinkStart_down_of_lof lof⟩
    · exact ⟨s.syncAbsent, rfl, by rw [syncAbsent_of_lof lof]⟩
    · exact ⟨s.upwardStart, rfl, (upwardStart_within s).out .down (by decide)⟩
    · exact ⟨s.takeFrame fine f, rfl, by rw [takeFrame_of_lof fine f lof]⟩
    · exact ⟨s.look u o, rfl, (look_within u o s).out .down (by decide)⟩

end Sys2Proof.Machine
end

/-! The step and the footprint of every command: what a command answers, and which blocks of the state it can change. -/

section
namespace Sys2Proof.Machine

/-! ### The state that a command answers -/

/-- The state that a command answers (`exec_eq_after`: every command answers one). -/
def State.after (c : Instr) (s : State) : State :=
  match exec c s with
  | .next t => t
  | .fault _ | .refused _ => s

theorem exec_eq_after (c : Instr) (s : State) : exec c s = .next (s.after c) := by
  cases c <;> rfl

theorem eq_after_of_exec {c : Instr} {s t : State} (h : exec c s = .next t) : t = s.after c := by
  rw [exec_eq_after] at h
  exact (Host.Outcome.next.inj h).symm

/-- A step that answers `t` had no command waiting, or executed the front one on the queue's rest. -/
theorem step_cases {s t : State} (h : step s = .next t) :
    (s.pending = [] ∧ t = s) ∨ ∃ c rest, s.pending = c :: rest ∧ t = (s.withPending rest).after c := by
  unfold step at h
  cases p : s.pending with
  | nil => rw [p] at h; exact .inl ⟨rfl, (Host.Outcome.next.inj h).symm⟩
  | cons c rest => rw [p] at h; exact .inr ⟨c, rest, rfl, eq_after_of_exec h⟩

/-- An invariant that the queue of commands does not touch and every command keeps is kept by every step. -/
theorem step_keeps {P : State → Prop} (queue : ∀ s q, P s → P (s.withPending q)) (keeps : ∀ c s, P s → P (s.after c))
    {s t : State} (h : P s) (st : step s = .next t) : P t := by
  rcases step_cases st with ⟨-, rfl⟩ | ⟨c, rest, -, rfl⟩
  · exact h
  · exact keeps c _ (queue s rest h)

/-! ### Requests -/

@[simp] theorem refuse_fst (req : List Octet) (r : Result) (s : State) : (refuse req r s).1 = s := rfl
@[simp] theorem accept_fst (req l : List Octet) (s : State) : (accept req l s).1 = s := rfl

/-- A property that refusals keep is kept by a request of the one allowed length. -/
theorem withLength_fst {P : State → Prop} {act : List Octet → State → Executed} (n : Nat) (req : List Octet) {s : State}
    (h : P s) (k : P (act req s).1) : P (withLength n act req s).1 := by
  unfold withLength
  split <;> assumption

/-- A WRITE_PARAM refuses, or has the effect of an allowed value. -/
theorem writeParam_fst {P : State → Prop} {α : Type} (n : Nat) (value : Int → Option α) (code : α → Int)
    (allowed : α → State → Bool) {effect : α → State → State} (req : List Octet) {s : State}
    (h : P s) (k : ∀ v, value (signedAt req 2) = some v → allowed v s = true → P (effect v s)) :
    P (writeParam n value code allowed effect req s).1 := by
  unfold writeParam
  split
  · exact h
  · split
    · exact h
    · next v e =>
      split
      · next a => exact k v e a
      · exact h

/-- A request command keeps what its act keeps, as long as the executed request and its reply do not matter. -/
theorem runRequest_keeps {P : State → Prop} (mine : List Octet → Bool) {act : List Octet → State → Executed} {s : State}
    (ml : ∀ t req reply e, P t → P (t.onMl (MgmtLink.answered req reply e)))
    (h : P s) (k : ∀ req, P (act req s).1) : P (s.runRequest mine act) := by
  rcases runRequest_cases mine act s with ⟨-, e⟩ | ⟨req, -, e⟩ <;> rw [e]
  · exact h
  · exact ml _ _ _ _ (k req)

/-- The blocks that a request command changes: the link's, and its act's. -/
theorem runRequest_within {l : List Block} (mine : List Octet → Bool) {act : List Octet → State → Executed} {s : State}
    (k : ∀ req, Within l s (act req s).1) : Within (.ml :: l) s (s.runRequest mine act) := by
  rcases runRequest_cases mine act s with ⟨-, e⟩ | ⟨req, -, e⟩ <;> rw [e]
  · exact .refl ..
  · exact ((k req).and (onMl_within ..)).mono (by intro b; simp; tauto)

theorem withLength_within {l : List Block} (n : Nat) {act : List Octet → State → Executed} (req : List Octet) {s : State}
    (k : Within l s (act req s).1) : Within l s (withLength n act req s).1 :=
  withLength_fst n req (.refl ..) k

theorem paramCommand_within {l : List Block} {α : Type} (n : Nat) (value : Int → Option α) (code : α → Int)
    (allowed : α → State → Bool) {effect : α → State → State} {s : State} (k : ∀ v, Within l s (effect v s)) :
    Within (.ml :: l) s (s.paramCommand n value code allowed effect) :=
  runRequest_within _ fun req => withLength_within _ req (writeParam_fst _ _ _ _ req (.refl ..) fun v _ _ => k v)

end Sys2Proof.Machine
end
section
namespace Sys2Proof.Machine

/-! ### The management link keeps its parameters -/

theorem MgmtLink.abandonReply_params (m : MgmtLink) : m.abandonReply.params = m.params := rfl

theorem MgmtLink.readAnswers_params (p f : MgmtField) (m : MgmtLink) : (m.readAnswers p f).params = m.params := by
  have echoed : (if sameEcho p f then { m with lastEcho := some f.echo } else m).params = m.params := by split <;> rfl
  unfold MgmtLink.readAnswers
  dsimp only
  generalize (if sameEcho p f then { m with lastEcho := some f.echo } else m) = m' at echoed ⊢
  split
  · exact echoed
  · exact echoed
  · split
    · exact echoed
    · split
      · split <;> exact echoed
      · exact echoed

theorem MgmtLink.readOctet_params (f : MgmtField) (m : MgmtLink) : (m.readOctet f).params = m.params := by
  unfold MgmtLink.readOctet
  split
  · split
    · rfl
    · split
      · split <;> rfl
      · rfl
    · split
      · split <;> rfl
      · split <;> rfl
  · rfl

theorem MgmtLink.readInvalid_params (p f : MgmtField) (m : MgmtLink) : (m.readInvalid p f).params = m.params := by
  unfold MgmtLink.readInvalid
  split
  · split <;> rfl
  · rfl
  · rfl

/-- Reading a field leaves the parameters. -/
theorem MgmtLink.read_params (f : MgmtField) (m : MgmtLink) : (m.read f).params = m.params := by
  unfold MgmtLink.read
  dsimp only
  split
  · rfl
  · next p _ =>
    split
    · exact (MgmtLink.readOctet_params ..).trans (MgmtLink.readAnswers_params ..)
    · exact (MgmtLink.readInvalid_params ..).trans (MgmtLink.readAnswers_params ..)

theorem MgmtLink.timeout_params (m : MgmtLink) : m.timeout.params = m.params := by
  unfold MgmtLink.timeout
  split
  · split <;> rfl
  · rfl
  · rfl

/-! ### The footprint of a command -/

/-- What a power-on reset can change: everything but the queue of commands. -/
abbrev resetBlocks : List Block :=
  [.inReset, .tb, .rm, .dl, .sli, .ubi, .up, .down, .cm, .eq, .ra, .ct, .tu, .hc, .sh, .ml]

/-- What a warm restart can change. -/
abbrev warmBlocks : List Block := [.tb, .rm, .dl, .up, .down, .cm, .eq, .ra, .ct, .tu, .hc, .sh, .ml]

/-- The blocks that a command can change. -/
def footprint : Instr → List Block
  | .powerOnReset _ => resetBlocks
  | .warmRestartActs => warmBlocks
  | .localSecondBoundary => [.tb, .dl, .up, .down, .rm, .hc, .eq, .sh, .tu]
  | .stepApplication => [.tb, .rm, .hc, .eq, .sh, .tu]
  | .huntSyncFound _ => [.up, .down, .sli]
  | .huntSyncAbsent => [.sli]
  | .frameTaken _ _ | .syncAbsentFrame => [.sli, .ml, .down, .rm, .dl, .tb, .eq, .sh]
  | .bMarker _ _ | .markerMissingTimeout _ | .markerAbsentTimeout _ | .revertWaitExpiry => loopBlocks
  | .upwardFrameStart => [.ra, .sli, .ml, .up, .eq, .sh]
  | .upwardFrameEnd => [.sli, .ra, .cm, .eq, .sh]
  | .downlinkFrameStart => [.ubi, .hc, .down, .eq, .sh]
  | .look _ _ => [.ubi, .cm, .up, .ct, .hc, .eq, .sh, .tu]
  | .quietDeadline _ => channelBlocks
  | .cascadeClose _ | .incidentHoldEnd => cascadeBlocks
  | .startTimeout _ => [.tu, .eq, .sh]
  | .dutyClaim | .accept | .release | .query | .windowExpiry | .releaseExpiry | .settleEnd => handoverBlocks
  | .replyTimeout => [.ml]
  | .tick => [.tb, .sli, .ml]
  | .setTime => [.ml, .tb]
  | .writeReferencePolicy | .writeRevertive | .writeRevertHoldoff | .trimSearchStart | .trimSearchAbort =>
    .ml :: loopBlocks
  | .writeStoreDepth => [.ml, .up, .down]
  | .writeScheduleMode | .writeLocalOffset | .writeSchedule => .ml :: handoverBlocks
  | .writeChannel | .restartChannel => .ml :: restartBlocks
  | .writeUnit => [.ml, .tu, .eq, .sh]
  | .presetTally => [.ml, .tu]
  | .readStatus | .readTime | .writeP | .writeQ | .writeStepThreshold | .writeJitterLimit | .writeQualifyCount
  | .writeBClass | .writeHoldoverDriftBound | .writeBuildOut | .writeSearchOnAcquire | .writeChatterWindow
  | .writeCascadeWindow | .writeTripHold | .writeHandoverWindow | .writeReleaseLimit | .readParam | .readChannel
  | .readTally | .readSchedule | .readShift | .warmRestart | .unknownRequest => [.ml]

theorem setRm_within (m : RefMonitor) (s : State) : Within [.rm] s { s with rm := m } :=
  ⟨fun b h => by cases b <;> first | exact absurd (by decide) h | rfl⟩

theorem setRa_within (r : Arbiter) (s : State) : Within [.ra] s { s with ra := r } :=
  ⟨fun b h => by cases b <;> first | exact absurd (by decide) h | rfl⟩

theorem takeTimeOctet_within (o : Octet) (s : State) : Within [.rm] s (s.takeTimeOctet o) := by
  unfold State.takeTimeOctet
  exact .ite (.ite (setRm_within ..) (.refl ..)) (.ite (setRm_within ..) (setRm_within ..))

/-- A written number changes the parameters alone. -/
theorem numberWrite_within (n lo hi : Nat) (f : Nat → Params → Params) (s : State) :
    Within [.ml] s (s.numberCommand n lo hi fun v => State.onParams (f v)) :=
  (paramCommand_within _ _ _ _ fun v => onParams_within (f v) s).mono (by decide)

/-- A request that answers and changes nothing. -/
theorem reading_within (mine : List Octet → Bool) {act : List Octet → State → Executed} {s : State}
    (h : ∀ req, (act req s).1 = s) : Within [.ml] s (s.runRequest mine act) :=
  runRequest_within (l := []) mine fun req => by rw [h]; exact .refl ..

theorem withLength_fst_eq {act : List Octet → State → Executed} (n : Nat) (req : List Octet) {s : State}
    (h : (act req s).1 = s) : (withLength n act req s).1 = s :=
  withLength_fst (P := (· = s)) n req rfl h

theorem readParam_fst (req : List Octet) (s : State) : (readParam req s).1 = s := by
  unfold readParam
  dsimp only
  split <;> rfl

theorem readChannel_fst (req : List Octet) (s : State) : (readChannel req s).1 = s := by
  unfold readChannel
  split <;> rfl

theorem readTally_fst (req : List Octet) (s : State) : (readTally req s).1 = s := by
  unfold readTally
  split <;> rfl

theorem readShift_fst (req : List Octet) (s : State) : (readShift req s).1 = s := by
  unfold readShift
  dsimp only
  split
  · rfl
  · split
    · rfl
    · split <;> rfl

/-- An abort restores what the search saved, and changes nothing else of the loop (R49). -/
theorem abortSearch_dl (s : State) :
    s.abortSearch.dl = s.dl ∨ ∃ x, s.dl.search = some x ∧
      s.abortSearch.dl = { s.dl with search := none, integral := x.savedI, history := [] } := by
  unfold State.abortSearch
  split
  · exact .inl rfl
  · next x e => exact .inr ⟨x, e, by simp⟩

theorem abortSearch_active (s : State) : s.abortSearch.dl.active = s.dl.active := by
  rcases abortSearch_dl s with e | ⟨x, -, e⟩ <;> rw [e]

@[simp] theorem changeQual_dl (r : Ref) (q : Qual) (x : FaultReason) (f : RefState → RefState) (s : State) :
    (s.changeQual r q x f).dl = s.dl := by simp [State.changeQual]

theorem setTime_within (req : List Octet) (s : State) : Within [.tb] s (setTime req s).1 := by
  unfold setTime
  split
  · exact .refl ..
  · dsimp only [accept]; exact onTb_within ..

theorem writePolicy_within (v : Policy) (s : State) : Within (.ml :: loopBlocks) s (s.writePolicy v) :=
  .ite (.refl ..) ((onParams_within ..).and (policyChanged_within ..))

theorem writeRevertive_within (v : Bool) (s : State) : Within (.ml :: loopBlocks) s (s.writeRevertive v) :=
  .ite (.refl ..) ((onParams_within ..).and (testRevert_within ..))

theorem recentreBoth_within (s : State) : Within [.up, .down] s s.recentreBoth :=
  ⟨fun b h => by cases b <;> first | exact absurd (by decide) h | rfl⟩

theorem writeDepth_within (v : Nat) (s : State) : Within [.ml, .up, .down] s (s.writeDepth v) := by
  have upward : ∀ (t : State) x, Within [.up] t { t with up := x } := fun t x => setStore_within .up x t
  unfold State.writeDepth
  dsimp only
  split
  · exact ((onParams_within ..).and (recentreBoth_within _)).mono (by decide)
  · exact ((onParams_within ..).and (upward ..)).mono (by decide)

theorem enterAutoShift_within (o : HState) (c : HCause) (s : State) : Within handoverBlocks s (s.enterAutoShift o c) :=
  ((onHc_within ..).and (announce_within ..)).mono (by decide)

theorem toAuto_within (s : State) : Within handoverBlocks s s.toAuto := by
  unfold State.toAuto
  split
  · exact .ite (.refl ..) (enterAutoShift_within ..)
  · exact .ite (enterAutoShift_within ..) (.ite (.refl ..) ((takeOpeningCut_within ..).trans (enterAutoShift_within ..)))
  all_goals exact .refl ..

theorem toConsole_within (s : State) : Within handoverBlocks s s.toConsole :=
  .ite (((onHc_within ..).and (announce_within ..)).mono (by decide)) (.refl ..)

theorem writeMode_within (v : SchedMode) (s : State) : Within (.ml :: handoverBlocks) s (s.writeMode v) := by
  unfold State.writeMode
  refine .ite (.refl ..) ?_
  cases v
  · exact (onParams_within ..).and (toConsole_within ..)
  · exact (onParams_within ..).and (toAuto_within ..)

theorem writeOffset_within (v : Int) (s : State) : Within (.ml :: handoverBlocks) s (s.writeOffset v) := by
  have written := onParams_within (fun p => { p with localOffset := v }) s
  unfold State.writeOffset
  refine .ite (written.mono (by decide)) (.ite ?_ ?_)
  · exact (written.and (reseat_within ..)).mono (by decide)
  · exact written.and (evaluate_within ..)

theorem writeSchedule_within (l : List Nat) (s : State) : Within handoverBlocks s (s.writeSchedule l) := by
  have written := onHc_within (fun h => { h with schedule := l }) s
  have seated : Within handoverBlocks s (if (s.onHc fun h => { h with schedule := l }).tb.unset then
      s.onHc fun h => { h with schedule := l } else (s.onHc fun h => { h with schedule := l }).reseat) :=
    .ite (written.mono (by decide)) ((written.and (reseat_within ..)).mono (by decide))
  unfold State.writeSchedule
  exact .ite (seated.trans ((takeOpeningCut_within ..).trans (enterAutoShift_within ..))) seated

theorem writeSchedule_act_within (req : List Octet) (s : State) : Within handoverBlocks s (writeSchedule req s).1 := by
  unfold writeSchedule
  split
  · split
    · split
      · exact writeSchedule_within ..
      · exact .refl ..
    · exact .refl ..
  · exact .refl ..

theorem writeChannel_within (req : List Octet) (s : State) : Within restartBlocks s (writeChannel req s).1 := by
  unfold writeChannel
  dsimp only
  split
  · exact .refl ..
  · split
    · exact writeEntries_within ..
    · exact .refl ..

theorem restartChannel_act_within (req : List Octet) (s : State) : Within restartBlocks s (restartChannel req s).1 := by
  unfold restartChannel
  dsimp only
  split
  · exact restartChannels_within ..
  · exact .refl ..

theorem writeUnit_within (req : List Octet) (s : State) : Within [.tu, .eq, .sh] s (writeUnit req s).1 := by
  unfold writeUnit
  split
  · exact ((onUnit_within ..).and (rederive_within ..)).mono (by decide)
  · exact .refl ..

theorem presetTally_within (req : List Octet) (s : State) : Within [.tu] s (presetTally req s).1 := by
  unfold presetTally
  split
  · exact .refl ..
  · split
    · exact onUnit_within ..
    · exact .refl ..

theorem trimSearchStart_within (req : List Octet) (s : State) : Within loopBlocks s (trimSearchStart req s).1 := by
  unfold trimSearchStart
  split
  · exact .refl ..
  · split
    · exact .refl ..
    · split
      · exact startSearch_within ..
      · exact .refl ..

theorem trimSearchAbort_within (req : List Octet) (s : State) : Within loopBlocks s (trimSearchAbort req s).1 := by
  unfold trimSearchAbort
  split
  · exact .refl ..
  · split
    · exact endSearch_within ..
    · exact .refl ..

theorem powerOn_within (cause : ResetCause) (s : State) : Within resetBlocks s (s.powerOn cause) := by
  have values : ∀ held, Within resetBlocks s (s.powerOnValues held) := fun held =>
    ⟨fun b h => by cases b <;> first | exact absurd (by decide) h | rfl⟩
  unfold State.powerOn
  split
  · exact values _
  · exact .ite (values _) (.refl ..)
  · exact .ite (values _) (.refl ..)

theorem stepApplies_within (s : State) : Within offsetBlocks s s.stepApplies := by
  unfold State.stepApplies
  split
  · exact .refl ..
  · exact .ite (applyStep_within ..) (.refl ..)

theorem syncFound_within (pos : Nat) (s : State) : Within [.up, .down, .sli] s (s.syncFound pos) := by
  have hunts : ∀ f, Within [.up, .down, .sli] s (s.onSli f) := fun f => (onSli_within f s).mono (by decide)
  have regained : Within [.up, .down, .sli] s s.regainAlignment :=
    ((setStore_within .down { s.down with last := onesFrame } s).and
      ((recentreBoth_within _).and (onSli_within ..))).mono (by decide)
  unfold State.syncFound
  split
  · exact .refl ..
  · exact .ite (hunts _) (.refl ..)
  · exact .ite (.ite (hunts _) regained) (.refl ..)

theorem syncMissed_within (s : State) : Within [.sli] s s.syncMissed := by
  unfold State.syncMissed
  split
  · exact onSli_within ..
  · exact .refl ..

theorem markerMissing_within (r : Ref) (s : State) : Within loopBlocks s (s.markerMissing r) := by
  unfold State.markerMissing
  split
  · exact .ite (faultRef_within ..) (.refl ..)
  · exact .refl ..

theorem markerAbsent_within (r : Ref) (s : State) : Within loopBlocks s (s.markerAbsent r) := by
  have lost : Within loopBlocks s (s.loseRef r) := changeQual_within ..
  unfold State.markerAbsent
  split
  · exact .ite lost (.refl ..)
  · exact .ite lost (.refl ..)
  · exact .refl ..

theorem restartUnits_within (s : State) : Within [.tu, .eq, .sh] s s.restartUnits :=
  foldl_within _ (fun t u => eventChange_within u .unknown t) _ s

theorem restartCascades_within (s : State) : Within cascadeBlocks s s.restartCascades := by
  have cleared := onCt_within (fun _ => { slots := Vector.replicate 9 none, holdEnd := none, incident := false }) s
  exact .ite (cleared.and (incidentEnds_within _)) (cleared.mono (by decide))

theorem clearLinks_within (s : State) :
    Within [.tb, .rm, .eq, .ra, .up, .down, .cm, .hc, .ml] s s.clearLinks :=
  ⟨fun b h => by cases b <;> first | exact absurd (by decide) h | rfl⟩

theorem restartLoop_within (s : State) : Within loopBlocks s s.restartLoop :=
  ((endSearch_within s).and (onDl_within ..)).mono (by decide)

theorem restartActs_within (s : State) : Within warmBlocks s s.restartActs :=
  .ite ((clearLinks_within s).and ((restartLoop_within _).and
    ((restartUnits_within _).and (restartCascades_within _))) |>.mono (by decide)) (.refl ..)

theorem recordFrameEnds_within (s : State) : Within [.ra, .cm, .eq, .sh] s s.recordFrameEnds := by
  have counted := onRa_within (fun r => { r with idle := 0 }) s
  unfold State.recordFrameEnds
  dsimp only
  split
  · next x _ =>
    refine .ite ?_ (counted.mono (by decide))
    have left : ∀ t : State, Within [.eq] t { t with eq := { t.eq with records := t.eq.records.erase x.record } } := fun t =>
      ⟨fun b h => by cases b <;> first | exact absurd (by decide) h | rfl⟩
    exact (counted.and ((onRa_within ..).and ((left _).and (releaseRound_within _)))).mono (by decide)
  · exact counted.mono (by decide)

/-- The end of an upward frame leaves the link but for the frame that was in progress. -/
theorem endUpward_sli (u : UpInProgress) (s : State) : (s.endUpward u).sli = { s.sli with up := none } := by
  unfold State.endUpward
  dsimp only
  split
  · exact (recordFrameEnds_within _).out .sli (by decide)
  · rfl
  · rfl

theorem consoleFirst_within (u : Uplink) (s : State) : Within handoverBlocks s (s.consoleFirst u) := by
  have slot := onHc_within (fun _ => (s.hc.look u s.tb.e).1) s
  unfold State.consoleFirst
  dsimp only
  split
  · exact (slot.and (takeMessage_within ..)).mono (by decide)
  · exact slot.mono (by decide)

/-- Every command changes the blocks of its footprint at most. -/
theorem after_within (c : Instr) (s : State) : Within (footprint c) s (s.after c) := by
  cases c
  case powerOnReset cause => exact powerOn_within ..
  case localSecondBoundary => exact secondBoundary_within s
  case stepApplication => exact stepApplies_within s
  case huntSyncFound pos => exact syncFound_within pos s
  case huntSyncAbsent => exact syncMissed_within s
  case frameTaken fine f => exact takeFrame_within fine f s
  case syncAbsentFrame => exact syncAbsent_within s
  case bMarker fine p => exact Within.ite (takeMarker_within .b fine s) (.refl ..)
  case markerMissingTimeout r => exact markerMissing_within r s
  case markerAbsentTimeout r => exact markerAbsent_within r s
  case revertWaitExpiry => exact testRevert_within s
  case upwardFrameStart => exact upwardStart_within s
  case upwardFrameEnd => exact upwardEnd_within s
  case downlinkFrameStart => exact downlinkStart_within s
  case look u o => exact look_within u o s
  case quietDeadline ch => exact quietDeadline_within ch s
  case cascadeClose g => exact cascadeCloses_within g s
  case incidentHoldEnd => exact holdEnds_within s
  case startTimeout u => exact startTimeout_within u s
  case dutyClaim => exact takeArrived_within .dutyClaim s
  case accept => exact takeArrived_within .accept s
  case release => exact takeArrived_within .release s
  case query => exact takeArrived_within .query s
  case windowExpiry => exact windowExpires_within s
  case releaseExpiry => exact releaseExpires_within s
  case settleEnd => exact settleEnds_within s
  case replyTimeout => exact onMl_within _ s
  case readStatus => exact reading_within _ fun req => withLength_fst_eq 1 req (accept_fst ..)
  case readTime => exact reading_within _ fun req => withLength_fst_eq 1 req (accept_fst ..)
  case setTime => exact runRequest_within _ fun req => withLength_within 10 req (setTime_within req s)
  case writeP => exact numberWrite_within _ _ _ _ s
  case writeQ => exact numberWrite_within _ _ _ _ s
  case writeStepThreshold => exact numberWrite_within _ _ _ _ s
  case writeJitterLimit => exact numberWrite_within _ _ _ _ s
  case writeQualifyCount => exact numberWrite_within _ _ _ _ s
  case writeBClass => exact numberWrite_within _ _ _ _ s
  case writeHoldoverDriftBound => exact numberWrite_within _ _ _ _ s
  case writeReferencePolicy =>
    exact (paramCommand_within _ _ _ _ fun v => writePolicy_within v s).mono (by decide)
  case writeRevertive => exact (paramCommand_within _ _ _ _ fun v => writeRevertive_within v s).mono (by decide)
  case writeRevertHoldoff =>
    exact (paramCommand_within _ _ _ _ fun v => (onParams_within _ s).and (testRevert_within _)).mono (by decide)
  case writeBuildOut => exact (paramCommand_within _ _ _ _ fun v => onParams_within _ s).mono (by decide)
  case writeSearchOnAcquire => exact (paramCommand_within _ _ _ _ fun v => onParams_within _ s).mono (by decide)
  case writeStoreDepth => exact (paramCommand_within _ _ _ _ fun v => writeDepth_within v s).mono (by decide)
  case writeChatterWindow => exact numberWrite_within _ _ _ _ s
  case writeCascadeWindow => exact numberWrite_within _ _ _ _ s
  case writeTripHold => exact numberWrite_within _ _ _ _ s
  case writeHandoverWindow => exact numberWrite_within _ _ _ _ s
  case writeReleaseLimit => exact numberWrite_within _ _ _ _ s
  case writeScheduleMode => exact (paramCommand_within _ _ _ _ fun v => writeMode_within v s).mono (by decide)
  case writeLocalOffset => exact (paramCommand_within _ _ _ _ fun v => writeOffset_within v s).mono (by decide)
  case readParam => exact reading_within _ fun req => withLength_fst_eq 2 req (readParam_fst req s)
  case writeChannel => exact runRequest_within _ fun req => withLength_within 13 req (writeChannel_within req s)
  case readChannel => exact reading_within _ fun req => withLength_fst_eq 2 req (readChannel_fst req s)
  case restartChannel =>
    exact runRequest_within _ fun req => withLength_within 5 req (restartChannel_act_within req s)
  case writeUnit => exact runRequest_within _ fun req => withLength_within 21 req (writeUnit_within req s)
  case readTally => exact reading_within _ fun req => withLength_fst_eq 2 req (readTally_fst req s)
  case presetTally => exact runRequest_within _ fun req => withLength_within 54 req (presetTally_within req s)
  case writeSchedule => exact runRequest_within _ fun req => writeSchedule_act_within req s
  case readSchedule => exact reading_within _ fun req => withLength_fst_eq 1 req (accept_fst ..)
  case readShift => exact reading_within _ fun req => withLength_fst_eq 3 req (readShift_fst req s)
  case trimSearchStart => exact runRequest_within _ fun req => withLength_within 2 req (trimSearchStart_within req s)
  case trimSearchAbort => exact runRequest_within _ fun req => withLength_within 2 req (trimSearchAbort_within req s)
  case warmRestart => exact reading_within _ fun req => withLength_fst_eq 1 req (accept_fst ..)
  case warmRestartActs => exact restartActs_within s
  case tick => exact tick_within s
  case unknownRequest => exact reading_within _ fun req => refuse_fst ..

/-- A block outside a command's footprint stays. -/
theorem after_same {c : Instr} {b : Block} (h : (footprint c).contains b = false) (s : State) :
    s.same b (s.after c) :=
  (after_within c s).out b (by simpa using h)

/-! ### Properties of some blocks -/

/-- What a property says is about the listed blocks alone. -/
def DependsOn (l : List Block) (P : State → Prop) : Prop := ∀ s t : State, (∀ b ∈ l, s.same b t) → P s → P t

/-- A change outside the blocks that a property is about keeps it. -/
theorem DependsOn.within {l k : List Block} {P : State → Prop} {s t : State} (d : DependsOn l P) (w : Within k s t)
    (apart : (l.all fun b => !k.contains b) = true) (h : P s) : P t :=
  d s t (fun b hb => w.out b (by simpa using (List.all_eq_true.mp apart) b hb)) h

/-- So does a command whose footprint lies outside them. -/
theorem DependsOn.after {l : List Block} {P : State → Prop} {c : Instr} {s : State} (d : DependsOn l P)
    (apart : (l.all fun b => !(footprint c).contains b) = true) (h : P s) : P (s.after c) :=
  d.within (after_within c s) apart h

theorem withPending_within (q : List Instr) (s : State) : Within [.pending] s (s.withPending q) :=
  ⟨fun b h => by cases b <;> first | exact absurd (by decide) h | rfl⟩

/-- A property of blocks other than the queue of commands that every command keeps is kept by every step. -/
theorem DependsOn.step {l : List Block} {P : State → Prop} {s t : State} (d : DependsOn l P)
    (queue : (l.all fun b => !([Block.pending].contains b)) = true) (keeps : ∀ c s, P s → P (s.after c)) (h : P s) (st : step s = .next t) : P t :=
  step_keeps (fun s q => d.within (withPending_within q s) queue) keeps h st

/-- A reset gives the power-on values, or is ignored (R1, R65, R185). -/
theorem powerOn_keeps {P : State → Prop} {s : State} (values : ∀ held, P (s.powerOnValues held)) (h : P s)
    (cause : ResetCause) : P (s.powerOn cause) := by
  unfold State.powerOn
  split
  · exact values _
  · split
    · exact values _
    · exact h
  · split
    · exact values _
    · exact h

/-- Settles O2: no footprint holds the queue of commands. -/
theorem commandsCompleteAndLeaveQueue : Obligations.CommandsCompleteAndLeaveQueue := by
  unfold Obligations.CommandsCompleteAndLeaveQueue
  intro c s
  have queue : (footprint c).contains .pending = false := by cases c <;> rfl
  exact ⟨s.after c, exec_eq_after c s, after_same queue s⟩

/-- Settles O1. -/
theorem stepRunsFrontCommand : Obligations.StepRunsFrontCommand := by
  unfold Obligations.StepRunsFrontCommand
  exact ⟨fun c q s => rfl, fun s empty => by simp [step, empty]⟩

end Sys2Proof.Machine
end

/-! The operations of the Discipline Loop and the Reference Monitor, and the commands made of them, keep every property that
their parts keep: the case analysis of these operations is done once, for all properties. -/

section
namespace Sys2Proof.Machine

/-- The parts that the operations of the Discipline Loop and the Reference Monitor are made of keep a property. -/
structure LoopKept (P : State → Prop) : Prop where
  apart : ∀ {s t : State}, Within [.rm, .sli, .up, .down, .ubi, .ra] s t → P s → P t
  link : ∀ {s : State} {f : MgmtLink → MgmtLink}, (∀ m, (f m).params.scheduleMode = m.params.scheduleMode) → P s →
    P (s.onMl f)
  offer : ∀ {s : State} (r : EventRecord), isChannelKind r.kind = false → P s → P (s.offer r)
  follow : ∀ {s : State} (r : Ref) (m : TbMode) (b : Int) (c : TbCause), isFollowing m = true → P s → P (s.follow r m b c)
  switchTo : ∀ {s : State} (r : Ref) (c : TbCause), s.dl.active.isSome = true → P s → P (s.switchTo r c)
  followNone : ∀ {s : State} (c : TbCause), P s → P (s.followNone c)
  lock : ∀ {s : State}, s.dl.mode = .acquiring → P s → P (s.setMode .locked s.dl.active .lock)
  startSearch : ∀ {s : State} (r : Ref), P s → P (s.startSearch r)
  restore : ∀ {s : State} (x : Search), s.dl.search = some x → P s →
    P ((s.onDl fun d => { d with search := none, integral := x.savedI, history := [] }).writeTrim x.savedT)
  history : ∀ {s : State} (l : List (Int × Int)), P s → P (s.onDl fun d => { d with history := l })
  confirmStep : ∀ {s : State} (r : Ref) (w e : Int), P s → P (s.confirmStep r w e)
  badSecond : ∀ {s : State}, P s → P s.badSecond
  measure : ∀ {s : State} (x : Search) (st : Option (Int × Nat)), s.dl.search = some x → P s →
    P (s.onDl fun d => { d with search := some { x with start := st } })
  found : ∀ {s : State} (x : Search) (d : Int), s.dl.search = some x → P s →
    P ((s.onDl fun l => { l with search := none, integral := searchTrim x d, confirmed := x.deferred.or l.confirmed }).writeTrim
      (searchTrim x d))
  nextInterval : ∀ {s : State} (x : Search) (d : Int), s.dl.search = some x → P s →
    P ((s.onDl fun l =>
      { l with search := some { x with trim := searchTrim x d, stepSize := x.stepSize / 2,
                                       armed := false, start := none } }).writeTrim (searchTrim x d))
  compute : ∀ {s : State} (x : Int), P s → P (s.computeTrim x)

namespace LoopKept

variable {P : State → Prop} {s : State}

/-! ### The Discipline Loop -/

theorem onRef (k : LoopKept P) (r : Ref) (f : RefState → RefState) (h : P s) : P (s.onRef r f) :=
  k.apart ((onRef_within r f s).mono (by decide)) h

theorem rm (k : LoopKept P) {t : State} (w : Within [.rm] s t) (h : P s) : P t := k.apart (w.mono (by decide)) h

theorem readField (k : LoopKept P) (f : MgmtField) (h : P s) : P (s.onMl (MgmtLink.read f)) :=
  k.link (fun m => by rw [MgmtLink.read_params]) h

theorem answered (k : LoopKept P) (req reply : List Octet) (e : Nat) (h : P s) : P (s.onMl (MgmtLink.answered req reply e)) :=
  k.link (fun _ => rfl) h

theorem onParams (k : LoopKept P) {f : Params → Params} (mode : ∀ p, (f p).scheduleMode = p.scheduleMode) (h : P s) :
    P (s.onParams f) :=
  k.link (fun m => mode m.params) h

theorem testRevert (k : LoopKept P) (h : P s) : P s.testRevert := by
  unfold State.testRevert
  split
  · split
    · next due => exact k.follow _ _ _ _ due.2.2.1 h
    · exact h
  · exact h

theorem abortSearch (k : LoopKept P) (h : P s) : P s.abortSearch := by
  unfold State.abortSearch
  split
  · exact h
  · next x running => exact k.offer _ rfl (k.restore x running h)

theorem endSearch (k : LoopKept P) (h : P s) : P s.endSearch := by
  unfold State.endSearch
  split
  · exact k.testRevert (k.abortSearch h)
  · exact h

theorem acquire (k : LoopKept P) (c : TbCause) (h : P s) : P (s.acquire c) := by
  unfold State.acquire
  split
  · exact h
  · split
    · exact h
    · next r _ =>
      have followed := k.follow r .acquiring 0 c rfl h
      dsimp only
      split
      · exact k.testRevert (k.startSearch r followed)
      · exact k.testRevert followed

theorem activeLost (k : LoopKept P) (r : Ref) (active : s.dl.active.isSome = true) (h : P s) : P (s.activeLost r) := by
  have aborted := k.abortSearch h
  unfold State.activeLost
  dsimp only
  split
  · exact k.switchTo _ _ (by rw [abortSearch_active]; exact active) aborted
  · exact k.followNone _ aborted

theorem policyChanged (k : LoopKept P) (h : P s) : P s.policyChanged := by
  have aborted := k.abortSearch h
  unfold State.policyChanged
  dsimp only
  split
  · split
    · exact k.followNone _ aborted
    · next r active =>
      split
      · exact k.testRevert aborted
      · split
        · exact k.testRevert (k.switchTo _ _ (by rw [active]; rfl) aborted)
        · exact k.followNone _ aborted
  · split
    · exact k.acquire _ aborted
    · exact k.followNone _ aborted

theorem searchSecond (k : LoopKept P) (e : Int) (h : P s) : P (s.searchSecond e) := by
  unfold State.searchSecond
  split
  · exact h
  · next x running =>
    split
    · split
      · exact k.measure x _ running h
      · split
        · exact k.measure x _ running h
        · unfold State.endInterval
          split
          · exact k.testRevert (k.offer _ rfl (k.found x _ running h))
          · exact k.nextInterval x _ running h
    · exact h

theorem runLoop (k : LoopKept P) (x : Int) (h : P s) : P (s.runLoop x) := by
  have computed := k.compute x h
  unfold State.runLoop
  dsimp only
  split
  · next acquiring => exact k.testRevert (k.lock (s := s.computeTrim x) acquiring computed)
  · exact computed

theorem loopSecond (k : LoopKept P) (r : Ref) (good : Bool) (e : Int) (h : P s) : P (s.loopSecond r good e) := by
  unfold State.loopSecond
  split
  · exact k.badSecond h
  · split
    · dsimp only
      split
      · exact k.searchSecond e (k.confirmStep r _ e h)
      · exact k.searchSecond e (k.history [] h)
    · split
      · exact k.confirmStep r _ e h
      · exact k.runLoop _ h

/-! ### The Reference Monitor -/

theorem changeQual (k : LoopKept P) (r : Ref) (q : Qual) (x : FaultReason) (f : RefState → RefState) (h : P s) :
    P (s.changeQual r q x f) :=
  k.offer _ rfl (k.onRef r _ h)

theorem faultRef (k : LoopKept P) (r : Ref) (x : FaultReason) (h : P s) : P (s.faultRef r x) := by
  unfold State.faultRef
  dsimp only
  split
  · next active => exact k.activeLost r (by rw [changeQual_dl, active]; rfl) (k.changeQual r _ _ _ h)
  · exact k.changeQual r _ _ _ h

theorem qualStep (k : LoopKept P) (r : Ref) (good prev : Bool) (h : P s) : P (s.qualStep r good prev) := by
  unfold State.qualStep
  dsimp only
  split
  · exact h
  · split
    · split
      · unfold State.qualifyRef
        have qualified := fun f g => k.changeQual r .qualified .none f (k.onRef r g h)
        dsimp only
        split
        · exact k.testRevert (qualified _ _)
        · exact k.acquire _ (qualified _ _)
      · exact k.onRef r _ h
    · exact k.onRef r _ h
  · split
    · exact k.faultRef r _ h
    · exact h
  · split
    · exact k.changeQual r _ _ _ h
    · exact h

theorem takeMarker (k : LoopKept P) (r : Ref) (fine : Fin 15625) (h : P s) : P (s.takeMarker r fine) := by
  unfold State.takeMarker
  dsimp only
  split
  · exact k.rm (clearMessage_within r _) (k.onRef r _ (k.changeQual r _ _ _ h))
  · exact k.rm (clearMessage_within r _) (k.onRef r _ h)
  · unfold State.judgeMarker State.followSecond
    have judged : ∀ p q good prev n, P (((((s.noteMarker r p).onRef r q).agreeSeconds r good n).qualStep r good prev).clearMessage r) :=
      fun p q good prev n => k.rm (clearMessage_within r _) (k.qualStep r good prev
        (k.rm (agreeSeconds_within r good n _) (k.onRef r q (k.onRef r _ h))))
    dsimp only
    split
    · exact k.loopSecond r _ _ (judged ..)
    · exact judged ..

theorem linkLossA (k : LoopKept P) (h : P s) : P s.linkLossA := by
  have dropped : P { s with rm := { s.rm with assembly := [], message := none } } := k.rm (setRm_within ..) h
  unfold State.linkLossA
  dsimp only
  split
  · exact k.faultRef _ _ dropped
  · exact k.changeQual _ _ _ _ dropped
  · exact dropped
  · exact dropped

/-! ### The stores and the station link -/

theorem setStore (k : LoopKept P) (n : StoreName) (x : Elastic) (h : P s) : P (s.setStore n x) :=
  k.apart ((setStore_within n x s).mono (by cases n <;> decide)) h

theorem slip (k : LoopKept P) (n : StoreName) (t : SlipType) (h : P s) : P (s.slip n t) := by
  unfold State.slip
  dsimp only
  split
  · exact k.setStore n _ h
  · exact k.offer _ rfl (k.setStore n _ h)

theorem writeStore (k : LoopKept P) (n : StoreName) (f : Vector Octet 24) (h : P s) : P (s.writeStore n f) := by
  unfold State.writeStore
  dsimp only
  split
  · exact k.setStore n _ h
  · exact k.slip n _ (k.setStore n _ h)

theorem readStore (k : LoopKept P) (n : StoreName) (h : P s) : P (s.readStore n) := by
  unfold State.readStore
  dsimp only
  split
  · exact k.setStore n _ h
  · exact k.slip n _ h

theorem onSli (k : LoopKept P) (f : StationLink → StationLink) (h : P s) : P (s.onSli f) :=
  k.apart ((onSli_within f s).mono (by decide)) h

theorem deliverFrame (k : LoopKept P) (fine : Fin 15625) (f : DownFrame) (h : P s) : P (s.deliverFrame fine f) := by
  have paced : P (s.onSli fun x => { x with missing := 0 }).paceFrame := k.onSli _ (k.onSli _ h)
  have marked : P ((s.onSli fun x => { x with missing := 0 }).paceFrame.frameMarker fine f) := by
    unfold State.frameMarker
    split
    · exact k.takeMarker .a fine (k.rm (setRm_within ..) paced)
    · exact paced
  exact k.writeStore .down _ (k.readField _ (k.rm (takeTimeOctet_within ..) marked))

theorem syncAbsent (k : LoopKept P) (h : P s) : P s.syncAbsent := by
  unfold State.syncAbsent
  split
  · have counted := k.onSli (fun x => { x with missing := min (x.missing + 1) 4, syncErrors := satAdd top16 x.syncErrors 1 }) h
    dsimp only
    split
    · exact k.writeStore .down _ (k.readField _ (k.rm (setRm_within ..) (k.onSli _ counted)))
    · exact k.link (fun _ => rfl) (k.linkLossA (k.onSli _ counted))
  · exact h

/-! ### The commands -/

theorem request (k : LoopKept P) (mine : List Octet → Bool) {act : List Octet → State → Executed}
    (keeps : ∀ req, P (act req s).1) (h : P s) : P (s.runRequest mine act) :=
  runRequest_keeps mine (fun _ _ _ _ g => k.answered _ _ _ g) h keeps

theorem paramCommand (k : LoopKept P) {α : Type} (n : Nat) (value : Int → Option α) (code : α → Int)
    (allowed : α → State → Bool) {effect : α → State → State} (keeps : ∀ v, P (effect v s)) (h : P s) :
    P (s.paramCommand n value code allowed effect) :=
  k.request _ (fun req => withLength_fst 6 req h (writeParam_fst n value code allowed req h fun v _ _ => keeps v)) h

theorem numberWrite (k : LoopKept P) (n lo hi : Nat) {f : Nat → Params → Params}
    (mode : ∀ v p, (f v p).scheduleMode = p.scheduleMode) (h : P s) :
    P (s.numberCommand n lo hi fun v => State.onParams (f v)) :=
  k.paramCommand _ _ _ _ (fun v => k.onParams (mode v) h) h

theorem reading (k : LoopKept P) (mine : List Octet → Bool) {act : List Octet → State → Executed}
    (same : ∀ req, (act req s).1 = s) (h : P s) : P (s.runRequest mine act) :=
  k.request mine (fun req => by rw [same]; exact h) h

end LoopKept

/-- A property that the Timebase but for E, the loop, the references, the stores and the queue's contents do not matter to is
kept by the operations of the Discipline Loop. -/
theorem LoopKept.of_apart {P : State → Prop}
    (apart : ∀ {s t : State}, Within [.tb, .rm, .dl, .sli, .up, .down, .ubi, .ra] s t → t.tb.e = s.tb.e → P s → P t)
    (link : ∀ {s : State} {f : MgmtLink → MgmtLink}, (∀ m, (f m).params.scheduleMode = m.params.scheduleMode) → P s →
      P (s.onMl f))
    (offer : ∀ {s : State} (r : EventRecord), isChannelKind r.kind = false → P s → P (s.offer r)) : LoopKept P := by
  have still : ∀ {s t : State}, Within [.rm, .sli, .up, .down, .ubi, .ra] s t → t.tb.e = s.tb.e := fun w =>
    congrArg Timebase.e (w.out .tb (by decide))
  have dl : ∀ {s : State} (f : Loop → Loop), P s → P (s.onDl f) := fun f h =>
    apart ((onDl_within f _).mono (by decide)) rfl h
  have trim : ∀ {s : State} (x : Int), P s → P (s.writeTrim x) := fun x h =>
    apart ((writeTrim_within x _).mono (by decide)) rfl h
  have mode : ∀ {s : State} (m : TbMode) (a : Option Ref) (c : TbCause), P s → P (s.setMode m a c) := fun {s} m a c h => by
    unfold State.setMode
    split
    · exact h
    · refine offer _ rfl (dl _ (apart ((dropSetting_within m s).mono (by decide)) ?_ h))
      unfold State.dropSetting
      split <;> rfl
  have follow : ∀ {s : State} (r : Ref) (m : TbMode) (b : Int) (c : TbCause), P s → P (s.follow r m b c) := fun r m b c h =>
    mode m _ c (dl _ (apart ((onRef_within r _ _).mono (by decide)) rfl h))
  exact {
    apart := fun w h => apart (w.mono (by decide)) (still w) h
    link := link
    offer := offer
    follow := fun r m b c _ h => follow r m b c h
    switchTo := fun r c _ h => follow _ _ _ _ h
    followNone := fun c h => trim _ (mode _ _ c h)
    lock := fun _ h => mode _ _ _ h
    startSearch := fun r h => trim 0 (dl _ h)
    restore := fun x _ h => trim _ (dl _ h)
    history := fun l h => dl _ h
    confirmStep := fun {s} r w e h => by
      unfold State.confirmStep
      dsimp only
      split
      · exact dl _ h
      · exact dl _ (apart ((onRef_within r _ _).mono (by decide)) rfl h)
    badSecond := fun h => dl _ h
    measure := fun x st _ h => dl _ h
    found := fun x d _ h => trim _ (dl _ h)
    nextInterval := fun x d _ h => trim _ (dl _ h)
    compute := fun x h => trim _ (dl _ h) }

/-- The commands made of these operations, and those that change nothing but the links and the stores. -/
def isLoopCommand : Instr → Bool
  | .huntSyncFound _ | .huntSyncAbsent | .frameTaken _ _ | .syncAbsentFrame | .bMarker _ _ | .markerMissingTimeout _
  | .markerAbsentTimeout _ | .revertWaitExpiry | .upwardFrameStart | .replyTimeout | .readStatus | .readTime | .writeP
  | .writeQ | .writeStepThreshold | .writeJitterLimit | .writeQualifyCount | .writeBClass | .writeHoldoverDriftBound
  | .writeReferencePolicy | .writeRevertive | .writeRevertHoldoff | .writeBuildOut | .writeSearchOnAcquire
  | .writeStoreDepth | .writeChatterWindow | .writeCascadeWindow | .writeTripHold | .writeHandoverWindow
  | .writeReleaseLimit | .readParam | .readChannel | .readTally | .readSchedule | .readShift | .trimSearchStart
  | .trimSearchAbort | .warmRestart | .unknownRequest => true
  | .powerOnReset _ | .localSecondBoundary | .stepApplication | .upwardFrameEnd | .downlinkFrameStart | .look _ _
  | .quietDeadline _ | .cascadeClose _ | .incidentHoldEnd | .startTimeout _ | .dutyClaim | .accept | .release | .query
  | .windowExpiry | .releaseExpiry | .settleEnd | .setTime | .writeScheduleMode | .writeLocalOffset | .writeChannel
  | .restartChannel | .writeUnit | .presetTally | .writeSchedule | .warmRestartActs | .tick => false

theorem LoopKept.after {P : State → Prop} (k : LoopKept P) {c : Instr} (made : isLoopCommand c = true) {s : State} (h : P s) :
    P (s.after c) := by
  cases c
  case huntSyncFound pos => exact k.apart ((syncFound_within pos s).mono (by decide)) h
  case huntSyncAbsent => exact k.apart ((syncMissed_within s).mono (by decide)) h
  case frameTaken fine f =>
    show P (s.takeFrame fine f)
    unfold State.takeFrame
    split
    · exact k.deliverFrame fine f h
    · exact h
  case syncAbsentFrame => exact k.syncAbsent h
  case bMarker fine p =>
    show P (s.takePulse fine p)
    unfold State.takePulse
    split
    · exact k.takeMarker .b fine h
    · exact h
  case markerMissingTimeout r =>
    show P (s.markerMissing r)
    unfold State.markerMissing
    split
    · split
      · exact k.faultRef r _ h
      · exact h
    · exact h
  case markerAbsentTimeout r =>
    show P (s.markerAbsent r)
    unfold State.markerAbsent State.loseRef
    split
    · split
      · exact k.changeQual r _ _ _ h
      · exact h
    · split
      · exact k.changeQual r _ _ _ h
      · exact h
    · exact h
  case revertWaitExpiry => exact k.testRevert h
  case upwardFrameStart =>
    show P s.upwardStart
    unfold State.upwardStart
    split
    · exact k.link (fun _ => rfl) (k.onSli _ (k.readStore .up (k.apart ((setRa_within ..).mono (by decide)) h)))
    · exact h
  case replyTimeout => exact k.link (fun m => by rw [MgmtLink.timeout_params]) h
  case readStatus => exact k.reading _ (fun req => withLength_fst_eq 1 req (accept_fst ..)) h
  case readTime => exact k.reading _ (fun req => withLength_fst_eq 1 req (accept_fst ..)) h
  case writeReferencePolicy =>
    refine k.paramCommand _ _ _ _ (fun v => ?_) h
    unfold State.writePolicy
    split
    · exact h
    · exact k.policyChanged (k.onParams (fun _ => rfl) h)
  case writeRevertive =>
    refine k.paramCommand _ _ _ _ (fun v => ?_) h
    unfold State.writeRevertive
    split
    · exact h
    · exact k.testRevert (k.onParams (fun _ => rfl) h)
  case writeRevertHoldoff => exact k.paramCommand _ _ _ _ (fun v => k.testRevert (k.onParams (fun _ => rfl) h)) h
  case writeBuildOut => exact k.paramCommand _ _ _ _ (fun v => k.onParams (fun _ => rfl) h) h
  case writeSearchOnAcquire => exact k.paramCommand _ _ _ _ (fun v => k.onParams (fun _ => rfl) h) h
  case writeStoreDepth =>
    refine k.paramCommand _ _ _ _ (fun v => ?_) h
    have written : P (s.onParams fun p => { p with storeDepth := v }) := k.onParams (fun _ => rfl) h
    unfold State.writeDepth
    dsimp only
    split
    · exact k.apart ((recentreBoth_within _).mono (by decide)) written
    · exact k.setStore .up _ written
  case readParam => exact k.reading _ (fun req => withLength_fst_eq 2 req (readParam_fst req s)) h
  case readChannel => exact k.reading _ (fun req => withLength_fst_eq 2 req (readChannel_fst req s)) h
  case readTally => exact k.reading _ (fun req => withLength_fst_eq 2 req (readTally_fst req s)) h
  case readSchedule => exact k.reading _ (fun req => withLength_fst_eq 1 req (accept_fst ..)) h
  case readShift => exact k.reading _ (fun req => withLength_fst_eq 3 req (readShift_fst req s)) h
  case trimSearchStart =>
    refine k.request _ (fun req => withLength_fst 2 req h ?_) h
    unfold trimSearchStart
    split
    · exact h
    · split
      · exact h
      · split
        · exact k.startSearch _ h
        · exact h
  case trimSearchAbort =>
    refine k.request _ (fun req => withLength_fst 2 req h ?_) h
    unfold trimSearchAbort
    split
    · exact h
    · split
      · exact k.endSearch h
      · exact h
  case warmRestart => exact k.reading _ (fun req => withLength_fst_eq 1 req (accept_fst ..)) h
  case unknownRequest => exact k.reading _ (fun req => refuse_fst ..) h
  case writeP | writeQ | writeStepThreshold | writeJitterLimit | writeQualifyCount | writeBClass
    | writeHoldoverDriftBound | writeChatterWindow | writeCascadeWindow | writeTripHold | writeHandoverWindow
    | writeReleaseLimit => exact k.numberWrite _ _ _ (fun _ _ => rfl) h
  all_goals cases made

end Sys2Proof.Machine
end

/-! The ranges of the trims, the integral, U and the step count (R1, R37). -/

section
namespace Sys2Proof.Machine

variable {s t : State}

/-- The items whose ranges R1 and R37 give are the same in two states. -/
structure SameRanges (s t : State) : Prop where
  trim : t.tb.trim = s.tb.trim
  pendingTrim : t.tb.pendingTrim = s.tb.pendingTrim
  integral : t.dl.integral = s.dl.integral
  search : t.dl.search = s.dl.search
  u : t.tb.u = s.tb.u
  stepCount : t.tb.stepCount = s.tb.stepCount

theorem State.TrimInv.of_same (h : s.TrimInv) (e : SameRanges s t) : t.TrimInv where
  trim := e.trim ▸ h.trim
  pendingTrim := e.pendingTrim ▸ h.pendingTrim
  integral := e.integral ▸ h.integral
  search := e.search ▸ h.search
  u := e.u ▸ h.u
  stepCount := e.stepCount ▸ h.stepCount

theorem trimInv_dependsOn : DependsOn [.tb, .dl] State.TrimInv := fun s t same h => by
  have tb : t.tb = s.tb := same .tb (by decide)
  have dl : t.dl = s.dl := same .dl (by decide)
  exact h.of_same (by constructor <;> simp only [tb, dl])

/-! ### The Discipline Loop -/

theorem State.TrimInv.setMode (h : s.TrimInv) (m : TbMode) (a : Option Ref) (c : TbCause) :
    (s.setMode m a c).TrimInv := by
  unfold State.setMode
  split
  · exact h
  · refine trimInv_dependsOn.within (offer_within ..) rfl (h.of_same ?_)
    unfold State.dropSetting
    split <;> exact ⟨rfl, rfl, rfl, rfl, rfl, rfl⟩

theorem State.TrimInv.follow (h : s.TrimInv) (r : Ref) (m : TbMode) (b : Int) (c : TbCause) :
    (s.follow r m b c).TrimInv := by
  refine State.TrimInv.setMode ?_ ..
  exact h.of_same ⟨rfl, rfl, rfl, rfl, rfl, rfl⟩

theorem trimOk_zero : TrimOk 0 := ⟨by decide, by decide⟩

theorem State.TrimInv.startSearch (h : s.TrimInv) (r : Ref) : (s.startSearch r).TrimInv where
  trim := h.trim
  pendingTrim := trimOk_zero
  integral := h.integral
  search := fun x hx => by
    obtain rfl : _ = x := Option.some.inj hx
    exact ⟨h.integral, h.trim, trimOk_zero⟩
  u := h.u
  stepCount := h.stepCount

theorem State.TrimInv.followNone (h : s.TrimInv) (c : TbCause) : (s.followNone c).TrimInv := by
  have g := h.setMode (if s.dl.everLocked then .holdover else .freeRun) none c
  exact ⟨g.trim, h.integral, g.integral, g.search, g.u, g.stepCount⟩

theorem State.TrimInv.confirmStep (h : s.TrimInv) (r : Ref) (w e : Int) : (s.confirmStep r w e).TrimInv := by
  unfold State.confirmStep
  dsimp only
  split
  · exact h.of_same ⟨rfl, rfl, rfl, rfl, rfl, rfl⟩
  · cases found : s.dl.search with
    | none =>
      exact h.of_same ⟨rfl, rfl, by simp [found], by simp [found], rfl, rfl⟩
    | some x =>
      refine ⟨h.trim, h.pendingTrim, by simpa [found] using h.integral, fun y hy => ?_, h.u, h.stepCount⟩
      have e : y = { x with deferred := some (stepAmount w e, stepResidual e) } := by simpa [found, eq_comm] using hy
      rw [e]
      exact h.search x found

theorem State.TrimInv.badSecond (h : s.TrimInv) : s.badSecond.TrimInv := by
  refine ⟨h.trim, h.pendingTrim, h.integral, fun y hy => ?_, h.u, h.stepCount⟩
  obtain ⟨x, run, rfl⟩ : ∃ x, s.dl.search = some x ∧ { x with start := none } = y := by
    simpa [State.badSecond] using hy
  exact h.search x run

theorem trimOk_searchTrim (x : Search) (d : Int) : TrimOk (searchTrim x d) := trimOk_clampTrim _

theorem trimInv_loopKept : LoopKept State.TrimInv where
  apart w h := trimInv_dependsOn.within w rfl h
  link _ h := trimInv_dependsOn.within (onMl_within ..) rfl h
  offer r _ h := trimInv_dependsOn.within (offer_within r _) rfl h
  follow r m b c _ h := h.follow r m b c
  switchTo r c _ h := h.follow ..
  followNone c h := h.followNone c
  lock _ h := h.setMode ..
  startSearch r h := h.startSearch r
  restore x run h := by
    obtain ⟨savedI, savedT, -⟩ := h.search x run
    exact ⟨h.trim, savedT, savedI, (fun _ none => nomatch none), h.u, h.stepCount⟩
  history l h := h.of_same ⟨rfl, rfl, rfl, rfl, rfl, rfl⟩
  confirmStep r w e h := h.confirmStep r w e
  badSecond h := h.badSecond
  measure x st run h :=
    ⟨h.trim, h.pendingTrim, h.integral, fun _ hy => Option.some.inj hy ▸ h.search x run, h.u, h.stepCount⟩
  found x d run h :=
    ⟨h.trim, trimOk_searchTrim x d, trimOk_searchTrim x d, (fun _ none => nomatch none), h.u, h.stepCount⟩
  nextInterval x d run h := by
    obtain ⟨savedI, savedT, -⟩ := h.search x run
    refine ⟨h.trim, trimOk_searchTrim x d, h.integral, fun y hy => ?_, h.u, h.stepCount⟩
    obtain rfl : _ = y := Option.some.inj hy
    exact ⟨savedI, savedT, trimOk_searchTrim x d⟩
  compute x h := ⟨h.trim, trimOk_clampTrim _, trimOk_clampTrim _, h.search, h.u, h.stepCount⟩

/-! ### The Timebase -/

theorem State.TrimInv.setOffset (h : s.TrimInv) (d : Int) : (s.setOffset d).TrimInv :=
  ⟨h.trim, h.pendingTrim, h.integral, h.search, h.u, Nat.mod_lt _ (by decide)⟩

theorem State.TrimInv.setU (h : s.TrimInv) (u : Nat) : (s.setU u).TrimInv :=
  ⟨h.trim, h.pendingTrim, h.integral, h.search, Nat.min_le_right .., h.stepCount⟩

theorem State.TrimInv.takeClass (h : s.TrimInv) : s.takeClass.TrimInv := by
  unfold State.takeClass
  split
  · exact h
  · exact h.of_same ⟨rfl, rfl, rfl, rfl, rfl, rfl⟩

theorem State.TrimInv.reportClass (h : s.TrimInv) (q : Quality) : (s.reportClass q).TrimInv :=
  trimInv_dependsOn.within (reportClass_within q s) rfl h

theorem State.TrimInv.onLocalTime (h : s.TrimInv) (b : Bool) : (s.onLocalTime b).TrimInv :=
  trimInv_dependsOn.within (onLocalTime_within b s) rfl h

theorem State.TrimInv.reportOffset (h : s.TrimInv) (q : Quality) (b : Bool) (r : Stamp → EventRecord) :
    (s.reportOffset q b r).TrimInv :=
  State.TrimInv.onLocalTime (State.TrimInv.reportClass (trimInv_dependsOn.within (offer_within ..) rfl h.takeClass) q) b

theorem State.TrimInv.stepApplies (h : s.TrimInv) : s.stepApplies.TrimInv := by
  unfold State.stepApplies
  split
  · exact h
  · next p _ =>
    split
    · unfold State.applyStep
      refine State.TrimInv.reportOffset ?_ ..
      have stepped : ((s.setOffset (steppedOffset s.tb.e s.tb.delta p.amount)).onTb fun x =>
          { x with pendingStep := none }).TrimInv :=
        (h.setOffset (steppedOffset s.tb.e s.tb.delta p.amount)).of_same ⟨rfl, rfl, rfl, rfl, rfl, rfl⟩
      split
      · exact stepped.setU _
      · exact stepped
    · exact h

theorem State.TrimInv.latchSecond (h : s.TrimInv) : s.latchSecond.TrimInv := by
  refine ⟨h.pendingTrim, h.pendingTrim, h.integral, fun y hy => ?_, h.u, h.stepCount⟩
  obtain ⟨x, run, rfl⟩ : ∃ x, s.dl.search = some x ∧ { x with armed := true } = y := by
    simpa [State.latchSecond] using hy
  exact h.search x run

theorem State.TrimInv.handStep (h : s.TrimInv) : s.handStep.TrimInv := by
  unfold State.handStep
  split
  · exact h
  · exact h.of_same ⟨rfl, rfl, rfl, rfl, rfl, rfl⟩

theorem State.TrimInv.applySetting (h : s.TrimInv) (x : TimeSetting) : (s.applySetting x).TrimInv := by
  unfold State.applySetting
  refine State.TrimInv.reportOffset (State.TrimInv.setU ?_ _) ..
  exact (h.setOffset (x.seconds * 64000 - s.tb.e)).of_same ⟨rfl, rfl, rfl, rfl, rfl, rfl⟩

theorem State.TrimInv.recomputeU (h : s.TrimInv) : s.recomputeU.TrimInv := by
  unfold State.recomputeU
  split
  · exact h.setU _
  · exact h.setU _

theorem State.TrimInv.secondBoundary (h : s.TrimInv) : s.secondBoundary.TrimInv := by
  unfold State.secondBoundary
  split
  · unfold State.takeBoundary
    dsimp only
    split
    · exact h.latchSecond.handStep.applySetting _
    · exact (h.latchSecond.handStep.recomputeU.takeClass.reportClass _).onLocalTime false
  · exact h

theorem State.TrimInv.tick (h : s.TrimInv) : s.tick.TrimInv := by
  unfold State.tick
  split
  · exact h
  · exact h.of_same ⟨rfl, rfl, rfl, rfl, rfl, rfl⟩

/-! ### The restarts and the commands -/

theorem State.TrimInv.reset (q : List Instr) (held : Bool) :
    State.TrimInv { State.reset with inReset := held, pending := q } where
  trim := trimOk_zero
  pendingTrim := trimOk_zero
  integral := trimOk_zero
  search := fun _ none => nomatch none
  u := Nat.le_refl 4000000000
  stepCount := Nat.zero_lt_succ 255

theorem State.TrimInv.restartActs (h : s.TrimInv) : s.restartActs.TrimInv := by
  unfold State.restartActs
  split
  · have cleared : s.clearLinks.TrimInv := h.of_same ⟨rfl, rfl, rfl, rfl, rfl, rfl⟩
    have looped : s.clearLinks.restartLoop.TrimInv :=
      (trimInv_loopKept.endSearch cleared).of_same ⟨rfl, rfl, rfl, rfl, rfl, rfl⟩
    exact trimInv_dependsOn.within ((restartUnits_within _).and (restartCascades_within _)) rfl looped
  · exact h

theorem State.TrimInv.setTime (h : s.TrimInv) (req : List Octet) : (setTime req s).1.TrimInv := by
  unfold Machine.setTime
  split
  · exact h
  · exact h.of_same ⟨rfl, rfl, rfl, rfl, rfl, rfl⟩

theorem State.TrimInv.after (c : Instr) (h : s.TrimInv) : (s.after c).TrimInv := by
  cases loop : isLoopCommand c with
  | true => exact trimInv_loopKept.after loop h
  | false =>
    cases c
    case powerOnReset cause => exact powerOn_keeps (fun held => .reset _ held) h cause
    case localSecondBoundary => exact h.secondBoundary
    case stepApplication => exact h.stepApplies
    case setTime => exact trimInv_loopKept.request _ (fun req => withLength_fst 10 req h (h.setTime req)) h
    case warmRestartActs => exact h.restartActs
    case tick => exact h.tick
    all_goals first | exact trimInv_dependsOn.after rfl h | cases loop

/-- Settles O8. -/
theorem trimRangeKept : Obligations.TrimRangeKept := by
  unfold Obligations.TrimRangeKept
  exact fun s t => trimInv_dependsOn.step rfl fun c _ => .after c

end Sys2Proof.Machine
end

/-! The timebase mode, the active reference and the locking history (R33, R35, R40). -/

section
namespace Sys2Proof.Machine

variable {s t : State}

theorem State.ModeInv.of_same (h : s.ModeInv) (mode : t.dl.mode = s.dl.mode) (active : t.dl.active = s.dl.active)
    (ever : t.dl.everLocked = s.dl.everLocked) : t.ModeInv := by
  constructor <;> rw [mode] <;> try rw [ever]
  exacts [h.locked, h.holdover, h.freeRun, active ▸ h.active]

theorem modeInv_dependsOn : DependsOn [.dl] State.ModeInv := fun s t same h => by
  have dl : t.dl = s.dl := same .dl (by decide)
  exact h.of_same (by rw [dl]) (by rw [dl]) (by rw [dl])

theorem State.ModeInv.apart {l : List Block} (h : s.ModeInv) (w : Within l s t)
    (apart : (([.dl] : List Block).all fun b => !l.contains b) = true) : t.ModeInv :=
  modeInv_dependsOn.within w apart h

/-! ### The Discipline Loop -/

/-- What a change of mode and active reference has to fit: R40 takes HOLDOVER after a lock and FREE_RUN before, and a
reference is followed exactly in ACQUIRING and LOCKED. -/
structure State.ModeFits (s : State) (mode : TbMode) (active : Option Ref) : Prop where
  holdover : mode = .holdover → s.dl.everLocked = true
  freeRun : mode = .freeRun → s.dl.everLocked = false
  active : active.isSome = isFollowing mode

theorem setMode_dl (mode : TbMode) (active : Option Ref) (cause : TbCause) (s : State) :
    (s.setMode mode active cause = s ∧ mode = s.dl.mode ∧ active = s.dl.active) ∨
      (s.setMode mode active cause).dl =
        { s.dl with mode := mode, active := active, before := s.noteBefore,
                    everLocked := s.dl.everLocked || mode == .locked,
                    confirmed := if active = s.dl.active ∧ isFollowing mode then s.dl.confirmed else none } := by
  unfold State.setMode
  split
  · next same => exact .inl ⟨rfl, same⟩
  · right
    have dropped : (s.dropSetting mode).dl = s.dl := (dropSetting_within mode s).out .dl (by decide)
    simp [dropped]

theorem State.ModeInv.setMode (h : s.ModeInv) {m : TbMode} {a : Option Ref} (c : TbCause) (fits : s.ModeFits m a) :
    (s.setMode m a c).ModeInv := by
  rcases setMode_dl m a c s with ⟨e, -, -⟩ | dl
  · rw [e]; exact h
  · constructor <;> rw [dl]
    · rintro rfl; simp
    · intro e; simp [fits.holdover e]
    · intro e; simp [fits.freeRun e, show m = .freeRun from e]
    · exact fits.active

theorem State.ModeInv.follow (h : s.ModeInv) (r : Ref) {m : TbMode} (b : Int) (c : TbCause) (following : isFollowing m = true) :
    (s.follow r m b c).ModeInv := by
  refine State.ModeInv.setMode ?_ c ⟨?_, ?_, following.symm⟩
  · exact h.of_same rfl rfl rfl
  · rintro rfl; cases following
  · rintro rfl; cases following

theorem State.ModeInv.followNone (h : s.ModeInv) (c : TbCause) : (s.followNone c).ModeInv := by
  refine State.ModeInv.apart (h.setMode c ⟨?_, ?_, ?_⟩) (writeTrim_within ..) rfl <;>
    cases s.dl.everLocked <;> simp [isFollowing]

theorem State.ModeInv.confirmStep (h : s.ModeInv) (r : Ref) (w e : Int) : (s.confirmStep r w e).ModeInv := by
  unfold State.confirmStep
  dsimp only
  split
  · exact h.of_same rfl rfl rfl
  · cases found : s.dl.search <;> exact h.of_same (by simp [found]) (by simp [found]) (by simp [found])

theorem modeInv_loopKept : LoopKept State.ModeInv where
  apart w h := h.apart w rfl
  link _ h := h.apart (onMl_within ..) rfl
  offer r _ h := h.apart (offer_within r _) rfl
  follow r m b c following h := h.follow r b c following
  switchTo r c active h := h.follow r _ c (h.active ▸ active)
  followNone c h := h.followNone c
  lock acquiring h := h.setMode .lock ⟨nofun, nofun, by rw [h.active, acquiring]; rfl⟩
  startSearch r h := h.of_same rfl rfl rfl
  restore x _ h := h.of_same rfl rfl rfl
  history l h := h.of_same rfl rfl rfl
  confirmStep r w e h := h.confirmStep r w e
  badSecond h := h.of_same rfl rfl rfl
  measure x st _ h := h.of_same rfl rfl rfl
  found x d _ h := h.of_same rfl rfl rfl
  nextInterval x d _ h := h.of_same rfl rfl rfl
  compute x h := h.of_same rfl rfl rfl

/-! ### The boundary and the restarts -/

theorem State.ModeInv.secondBoundary (h : s.ModeInv) : s.secondBoundary.ModeInv := by
  have handed : s.latchSecond.handStep.ModeInv := by
    unfold State.handStep
    split
    · exact h.of_same rfl rfl rfl
    · exact h.of_same rfl rfl rfl
  unfold State.secondBoundary
  split
  · unfold State.takeBoundary
    dsimp only
    split
    · exact handed.apart (applySetting_within ..) rfl
    · exact handed.apart (plainSecond_within ..) rfl
  · exact h

theorem State.ModeInv.restartActs (h : s.ModeInv) : s.restartActs.ModeInv := by
  unfold State.restartActs
  split
  · have cleared : s.clearLinks.ModeInv := h.apart (clearLinks_within s) rfl
    have looped : s.clearLinks.restartLoop.ModeInv := (modeInv_loopKept.endSearch cleared).of_same rfl rfl rfl
    exact looped.apart ((restartUnits_within _).and (restartCascades_within _)) rfl
  · exact h

theorem State.ModeInv.after (c : Instr) (h : s.ModeInv) : (s.after c).ModeInv := by
  cases loop : isLoopCommand c with
  | true => exact modeInv_loopKept.after loop h
  | false =>
    cases c
    case powerOnReset cause => exact powerOn_keeps (fun _ => ⟨nofun, nofun, fun _ => rfl, rfl⟩) h cause
    case localSecondBoundary => exact h.secondBoundary
    case warmRestartActs => exact h.restartActs
    all_goals first | exact modeInv_dependsOn.after rfl h | cases loop

/-- Settles O9: R40 and R43 leave a lost reference for HOLDOVER or FREE_RUN by the locking history alone. -/
theorem loopModesKept : Obligations.LoopModesKept := by
  unfold Obligations.LoopModesKept
  exact fun s t => modeInv_dependsOn.step rfl fun c _ => .after c

end Sys2Proof.Machine
end

/-! The fill of the elastic stores (R61 to R63). -/

section
namespace Sys2Proof.Machine

variable {s t : State}

/-- The same fills, alignment and depth leave the invariant. -/
theorem State.StoreInv.of_same (h : s.StoreInv) (up : t.up.frames = s.up.frames ∧ t.up.slips = s.up.slips)
    (down : t.down.frames = s.down.frames ∧ t.down.slips = s.down.slips) (alignment : t.sli.alignment = s.sli.alignment)
    (depth : t.ml.params.storeDepth = s.ml.params.storeDepth) : t.StoreInv where
  depth := depth ▸ h.depth
  up := by rw [up.1, depth]; exact h.up
  down := by rw [alignment, down.1, depth]; exact h.down
  slips := by rw [up.2, down.2]; exact h.slips

theorem storeInv_dependsOn : DependsOn [.up, .down, .sli, .ml] State.StoreInv := fun s t same h => by
  have up : t.up = s.up := same .up (by decide)
  have down : t.down = s.down := same .down (by decide)
  have sli : t.sli = s.sli := same .sli (by decide)
  have ml : t.ml = s.ml := same .ml (by decide)
  exact h.of_same (by simp [up]) (by simp [down]) (by rw [sli]) (by rw [ml])

theorem State.StoreInv.apart {l : List Block} (h : s.StoreInv) (w : Within l s t)
    (apart : (([.up, .down, .sli, .ml] : List Block).all fun b => !l.contains b) = true) : t.StoreInv :=
  storeInv_dependsOn.within w apart h

theorem State.StoreInv.onSli (h : s.StoreInv) {f : StationLink → StationLink}
    (alignment : (f s.sli).alignment = s.sli.alignment) : (s.onSli f).StoreInv :=
  h.of_same ⟨rfl, rfl⟩ ⟨rfl, rfl⟩ alignment rfl

theorem State.StoreInv.onMl (h : s.StoreInv) {f : MgmtLink → MgmtLink}
    (depth : (f s.ml).params.storeDepth = s.ml.params.storeDepth) : (s.onMl f).StoreInv :=
  h.of_same ⟨rfl, rfl⟩ ⟨rfl, rfl⟩ rfl depth

/-! ### A write and a read of one store -/

/-- Where the invariant bounds the fill of a store: always of the upward one, in IN_FRAME of the downward one (R61). -/
def State.bounded (n : StoreName) (s : State) : Prop := n = .down → s.sli.alignment = .inFrame

theorem State.StoreInv.fill (h : s.StoreInv) {n : StoreName} (b : s.bounded n) :
    (s.store n).frames.length ≤ s.ml.params.storeDepth := by
  cases n
  · exact h.up
  · exact h.down (b rfl)

theorem State.StoreInv.slips_le (h : s.StoreInv) (n : StoreName) : (s.store n).slips ≤ 65535 := by
  cases n
  · exact h.slips.1
  · exact h.slips.2

theorem slipped_slips (x : Elastic) : x.slipped.slips ≤ 65535 := Nat.min_le_right ..

theorem satAdd_le (top n k : Nat) : satAdd top n k ≤ top := Nat.min_le_right ..

/-- One store changed, its new fill within the depth where it is bounded, keeps the invariant. -/
theorem State.StoreInv.of_store (h : s.StoreInv) {n : StoreName} (w : Within [storeBlock n, .eq, .sh] s t)
    (fill : s.bounded n → (t.store n).frames.length ≤ s.ml.params.storeDepth) (slips : (t.store n).slips ≤ 65535) :
    t.StoreInv := by
  have ml : t.ml = s.ml := w.out .ml (by cases n <;> decide)
  have sli : t.sli = s.sli := w.out .sli (by cases n <;> decide)
  cases n
  · have down : t.down = s.down := w.out .down (by decide)
    constructor <;> simp only [ml, sli, down]
    exacts [h.depth, fill nofun, h.down, ⟨slips, h.slips.2⟩]
  · have up : t.up = s.up := w.out .up (by decide)
    constructor <;> simp only [ml, sli, up]
    exacts [h.depth, h.up, fun inFrame => fill fun _ => inFrame, ⟨h.slips.1, slips⟩]

theorem State.StoreInv.writeStore (h : s.StoreInv) (n : StoreName) (f : Vector Octet 24) : (s.writeStore n f).StoreInv := by
  have depth := h.depth.1
  have room_or_full := Nat.lt_or_ge (s.store n).frames.length s.ml.params.storeDepth
  have written : ((s.writeStore n f).store n).frames =
      (if (s.store n).frames.length < s.ml.params.storeDepth then (s.store n).frames else (s.store n).frames.tail) ++ [f] ∧
      ((s.writeStore n f).store n).slips ≤ 65535 := by
    unfold State.writeStore
    dsimp only
    split
    · exact ⟨by rw [store_setStore], by rw [store_setStore]; exact h.slips_le n⟩
    · exact ⟨by rw [store_slip, store_setStore]; rfl, by rw [store_slip]; exact slipped_slips _⟩
  refine h.of_store (writeStore_within ..) (fun b => ?_) written.2
  have fill := h.fill b
  rw [written.1]
  split <;> simp <;> omega

theorem State.StoreInv.readStore (h : s.StoreInv) (n : StoreName) : (s.readStore n).StoreInv := by
  have read : ((s.readStore n).store n).frames = (s.store n).frames.tail ∧ ((s.readStore n).store n).slips ≤ 65535 := by
    cases e : (s.store n).frames with
    | nil => rw [readStore_of_nil e, store_slip]; exact ⟨e, slipped_slips _⟩
    | cons f r => rw [readStore_of_cons e, store_setStore]; exact ⟨rfl, h.slips_le n⟩
  refine h.of_store (readStore_within ..) (fun b => ?_) read.2
  have fill := h.fill b
  rw [read.1, List.length_tail]
  omega

/-! ### The commands that move frames -/

theorem State.StoreInv.readDown (h : s.StoreInv) : s.readDown.StoreInv := by
  unfold State.readDown
  split
  · exact h.readStore .down
  · exact h

theorem frameMarker_within (fine : Fin 15625) (f : DownFrame) (s : State) : Within loopBlocks s (s.frameMarker fine f) := by
  unfold State.frameMarker
  exact .ite (Within.trans ((setRm_within ..).mono (by decide)) (takeMarker_within ..)) (.refl ..)

theorem State.StoreInv.takeFrame (h : s.StoreInv) (fine : Fin 15625) (f : DownFrame) : (s.takeFrame fine f).StoreInv := by
  unfold State.takeFrame
  split
  · have paced : (s.onSli fun x => { x with missing := 0 }).paceFrame.StoreInv := by
      exact h.of_same ⟨rfl, rfl⟩ ⟨rfl, rfl⟩ rfl rfl
    have timed := (paced.apart (frameMarker_within fine f _) rfl).apart (takeTimeOctet_within f.time _) rfl
    exact (timed.onMl (by rw [MgmtLink.read_params])).writeStore .down _
  · exact h

theorem State.StoreInv.syncAbsent (h : s.StoreInv) : s.syncAbsent.StoreInv := by
  unfold State.syncAbsent
  split
  · dsimp only
    split
    · refine State.StoreInv.writeStore (State.StoreInv.onMl ?_ (by rw [MgmtLink.read_params])) .down _
      exact h.of_same ⟨rfl, rfl⟩ ⟨rfl, rfl⟩ rfl rfl
    · refine State.StoreInv.onMl (State.StoreInv.apart ?_ (linkLossA_within _) rfl) rfl
      exact ⟨h.depth, h.up, nofun, h.slips⟩
  · exact h

theorem half_le (d : Nat) : (List.replicate (d / 2) (x : Vector Octet 24)).length ≤ d := by
  simpa using Nat.div_le_self d 2

theorem State.StoreInv.syncFound (h : s.StoreInv) (pos : Nat) : (s.syncFound pos).StoreInv := by
  unfold State.syncFound
  split
  · exact h
  · split
    · exact h.onSli rfl
    · exact h
  · split
    · split
      · exact h.onSli rfl
      · exact ⟨h.depth, half_le _, fun _ => half_le _, h.slips⟩
    · exact h

theorem State.StoreInv.upwardStart (h : s.StoreInv) : s.upwardStart.StoreInv := by
  unfold State.upwardStart
  split
  · unfold State.startUpward
    dsimp only
    have read : (State.readStore .up { s with ra := (decideSlot s.eq s.ra).1 }).StoreInv :=
      State.StoreInv.readStore (h.apart (setRa_within ..) rfl) .up
    exact State.StoreInv.onMl (read.onSli rfl) rfl
  · exact h

theorem State.StoreInv.upwardEnd (h : s.StoreInv) : s.upwardEnd.StoreInv := by
  have ended : s.upwardEnd.sli.alignment = s.sli.alignment := by
    unfold State.upwardEnd
    split
    · rfl
    · split
      · rfl
      · rw [endUpward_sli]
  have w := upwardEnd_within s
  have up : s.upwardEnd.up = s.up := w.out .up (by decide)
  have down : s.upwardEnd.down = s.down := w.out .down (by decide)
  have ml : s.upwardEnd.ml = s.ml := w.out .ml (by decide)
  exact h.of_same (by simp [up]) (by simp [down]) ended (by rw [ml])

theorem State.StoreInv.secondBoundary (h : s.StoreInv) : s.secondBoundary.StoreInv := by
  unfold State.secondBoundary
  split
  · have latched : s.latchSecond.StoreInv := h.of_same ⟨rfl, rfl⟩ ⟨rfl, rfl⟩ rfl rfl
    exact latched.apart (takeBoundary_within s) rfl
  · exact h

theorem State.StoreInv.look (h : s.StoreInv) (u : Uplink) (o : LookOrder) : (s.look u o).StoreInv := by
  have part : ∀ {t : State}, t.StoreInv → (t.channelPart u o.openingFirst).StoreInv := fun g =>
    State.StoreInv.writeStore (g.apart ((allLooks_within ..).and (takeHandOns_within ..)) rfl) .up _
  unfold State.look
  split
  · unfold State.takeLook
    have noted := h.apart (onUbi_within (fun x => { x with lastLook := some s.tb.e }) s) rfl
    dsimp only
    split
    · refine part (noted.apart ?_ rfl (l := handoverBlocks))
      exact consoleFirst_within u _
    · exact (part noted).apart (onHc_within ..) rfl
  · exact h

theorem State.StoreInv.restartActs (h : s.StoreInv) : s.restartActs.StoreInv := by
  unfold State.restartActs
  split
  · have cleared : s.clearLinks.StoreInv := ⟨h.depth, half_le _, fun _ => half_le _, h.slips⟩
    exact cleared.apart ((restartLoop_within _).and ((restartUnits_within _).and (restartCascades_within _))) rfl
  · exact h

/-! ### The requests -/

theorem State.StoreInv.request (h : s.StoreInv) (mine : List Octet → Bool) {act : List Octet → State → Executed}
    (k : ∀ req, (act req s).1.StoreInv) : (s.runRequest mine act).StoreInv :=
  runRequest_keeps mine (fun _ _ _ _ g => g.onMl rfl) h k

theorem State.StoreInv.paramCommand (h : s.StoreInv) {α : Type} (n : Nat) (value : Int → Option α) (code : α → Int)
    (allowed : α → State → Bool) {effect : α → State → State}
    (k : ∀ x v, value x = some v → (effect v s).StoreInv) : (s.paramCommand n value code allowed effect).StoreInv :=
  h.request _ fun req => withLength_fst 6 req h (writeParam_fst n value code allowed req h fun v e _ => k _ v e)

theorem clamped_bounds {lo hi v : Nat} {x : Int} (le : lo ≤ hi) (e : clamped lo hi x = some v) : lo ≤ v ∧ v ≤ hi := by
  obtain rfl : (clampInt lo hi x).toNat = v := Option.some.inj e
  unfold clampInt
  omega

theorem State.StoreInv.writeDepth (h : s.StoreInv) {v : Nat} (v_ok : 4 ≤ v ∧ v ≤ 16) : (s.writeDepth v).StoreInv := by
  unfold State.writeDepth
  dsimp only
  split
  · exact ⟨v_ok, half_le _, fun _ => half_le _, h.slips⟩
  · next lof => exact ⟨v_ok, half_le _, fun inFrame => absurd (lof.symm.trans inFrame) nofun, h.slips⟩

theorem State.StoreInv.after (c : Instr) (h : s.StoreInv) : (s.after c).StoreInv := by
  have number : ∀ n lo hi (f : Nat → Params → Params), (∀ v p, (f v p).storeDepth = p.storeDepth) →
      (s.numberCommand n lo hi fun v => State.onParams (f v)).StoreInv := fun n lo hi f same =>
    h.paramCommand _ _ _ _ fun _ v _ => h.onMl (same v _)
  cases c
  case powerOnReset cause =>
    exact powerOn_keeps (fun held =>
      ⟨⟨Nat.le_of_ble_eq_true rfl, Nat.le_of_ble_eq_true rfl⟩, Nat.le_of_ble_eq_true rfl, nofun, Nat.zero_le _, Nat.zero_le _⟩) h cause
  case localSecondBoundary => exact h.secondBoundary
  case huntSyncFound pos => exact h.syncFound pos
  case huntSyncAbsent =>
    show s.syncMissed.StoreInv
    unfold State.syncMissed
    split
    · exact h.onSli rfl
    · exact h
  case frameTaken fine f => exact h.takeFrame fine f
  case syncAbsentFrame => exact h.syncAbsent
  case upwardFrameStart => exact h.upwardStart
  case upwardFrameEnd => exact h.upwardEnd
  case downlinkFrameStart =>
    show s.downlinkStart.StoreInv
    unfold State.downlinkStart
    split
    · exact (h.apart ((onUbi_within ..).and (onHc_within ..)) rfl).readDown
    · exact h
  case look u o => exact h.look u o
  case replyTimeout => exact h.onMl (by rw [MgmtLink.timeout_params])
  case warmRestartActs => exact h.restartActs
  case tick =>
    show s.tick.StoreInv
    unfold State.tick
    split
    · exact h
    · exact h.of_same ⟨rfl, rfl⟩ ⟨rfl, rfl⟩ rfl rfl
  case setTime => exact h.request _ fun req => withLength_fst 10 req h (h.apart (setTime_within req s) rfl)
  case writeReferencePolicy =>
    refine h.paramCommand _ _ _ _ fun _ v _ => ?_
    unfold State.writePolicy
    split
    · exact h
    · exact State.StoreInv.apart (h.onMl rfl) (policyChanged_within _) rfl
  case writeRevertive =>
    refine h.paramCommand _ _ _ _ fun _ v _ => ?_
    unfold State.writeRevertive
    split
    · exact h
    · exact State.StoreInv.apart (h.onMl rfl) (testRevert_within _) rfl
  case writeRevertHoldoff =>
    exact h.paramCommand _ _ _ _ fun _ v _ => State.StoreInv.apart (h.onMl rfl) (testRevert_within _) rfl
  case writeBuildOut => exact h.paramCommand _ _ _ _ fun _ v _ => h.onMl rfl
  case writeSearchOnAcquire => exact h.paramCommand _ _ _ _ fun _ v _ => h.onMl rfl
  case writeStoreDepth => exact h.paramCommand _ _ _ _ fun _ v e => h.writeDepth (clamped_bounds (by decide) e)
  case writeScheduleMode =>
    refine h.paramCommand _ _ _ _ fun _ v _ => ?_
    unfold State.writeMode
    split
    · exact h
    · cases v
      · exact State.StoreInv.apart (h.onMl rfl) (toConsole_within _) rfl
      · exact State.StoreInv.apart (h.onMl rfl) (toAuto_within _) rfl
  case writeLocalOffset =>
    refine h.paramCommand _ _ _ _ fun _ v _ => ?_
    have written : (s.onParams fun p => { p with localOffset := v }).StoreInv := h.onMl rfl
    unfold State.writeOffset
    dsimp only
    split
    · exact written
    · split
      · exact written.apart (reseat_within _) rfl
      · exact written.apart (evaluate_within _) rfl
  case writeChannel => exact h.request _ fun req => withLength_fst 13 req h (h.apart (writeChannel_within req s) rfl)
  case restartChannel =>
    exact h.request _ fun req => withLength_fst 5 req h (h.apart (restartChannel_act_within req s) rfl)
  case writeUnit => exact h.request _ fun req => withLength_fst 21 req h (h.apart (writeUnit_within req s) rfl)
  case presetTally => exact h.request _ fun req => withLength_fst 54 req h (h.apart (presetTally_within req s) rfl)
  case writeSchedule => exact h.request _ fun req => h.apart (writeSchedule_act_within req s) rfl
  case trimSearchStart => exact h.request _ fun req => withLength_fst 2 req h (h.apart (trimSearchStart_within req s) rfl)
  case trimSearchAbort => exact h.request _ fun req => withLength_fst 2 req h (h.apart (trimSearchAbort_within req s) rfl)
  case readStatus => exact h.request _ fun req => withLength_fst 1 req h h
  case readTime => exact h.request _ fun req => withLength_fst 1 req h h
  case readSchedule => exact h.request _ fun req => withLength_fst 1 req h h
  case warmRestart => exact h.request _ fun req => withLength_fst 1 req h h
  case unknownRequest => exact h.request _ fun req => h
  case readParam => exact h.request _ fun req => withLength_fst 2 req h (by rw [readParam_fst]; exact h)
  case readChannel => exact h.request _ fun req => withLength_fst 2 req h (by rw [readChannel_fst]; exact h)
  case readTally => exact h.request _ fun req => withLength_fst 2 req h (by rw [readTally_fst]; exact h)
  case readShift => exact h.request _ fun req => withLength_fst 3 req h (by rw [readShift_fst]; exact h)
  case writeP | writeQ | writeStepThreshold | writeJitterLimit | writeQualifyCount | writeBClass
    | writeHoldoverDriftBound | writeChatterWindow | writeCascadeWindow | writeTripHold | writeHandoverWindow
    | writeReleaseLimit => exact number _ _ _ _ fun _ _ => rfl
  all_goals exact storeInv_dependsOn.after rfl h

/-- Settles O10: a write to a full store drops its oldest frame first, and both stores of a link that regains alignment are
recentred. -/
theorem storeFillKept : Obligations.StoreFillKept := by
  unfold Obligations.StoreFillKept
  exact fun s t => storeInv_dependsOn.step rfl fun c _ => .after c

end Sys2Proof.Machine
end

/-! The units of the Tally Unit: what each operation makes of one unit, and the properties of units that the commands keep. -/

section
namespace Sys2Proof.Machine

variable {s t : State}

/-! ### Folds and positions of a vector -/

/-- A fold of steps that keep a property keeps it. -/
theorem foldl_keeps_mem {α : Type} {P : State → Prop} {f : State → α → State} {l : List α}
    (keeps : ∀ t a, a ∈ l → P t → P (f t a)) {s : State} (h : P s) : P (l.foldl f s) := by
  induction l generalizing s with
  | nil => exact h
  | cons a l ih => exact ih (fun t b m => keeps t b (.tail _ m)) (keeps s a (.head _) h)

theorem foldl_keeps {α : Type} {P : State → Prop} {f : State → α → State} (keeps : ∀ t a, P t → P (f t a)) (l : List α)
    {s : State} (h : P s) : P (l.foldl f s) :=
  foldl_keeps_mem (fun t a _ => keeps t a) h

theorem modifyAt_modifyAt {α : Type} {n : Nat} (v : Vector α n) (i : Fin n) (f g : α → α) :
    modifyAt (modifyAt v i f) i g = modifyAt v i fun x => g (f x) := by
  simp [modifyAt]

theorem modifyAt_id {α : Type} {n : Nat} (v : Vector α n) (i : Fin n) {f : α → α} (h : f v[i] = v[i]) :
    modifyAt v i f = v := by
  simp only [modifyAt, h]
  simp

theorem modifyAt_congr {α : Type} {n : Nat} (v : Vector α n) (i : Fin n) {f g : α → α} (h : f v[i] = g v[i]) :
    modifyAt v i f = modifyAt v i g := by
  simp only [modifyAt, h]

/-- A property of every position is kept where the changed position keeps it. -/
theorem forall_modifyAt {α : Type} {n : Nat} {P : Fin n → α → Prop} {v : Vector α n} {i : Fin n} {f : α → α}
    (h : ∀ j, P j v[j]) (k : P i (f v[i])) (j : Fin n) : P j (modifyAt v i f)[j] := by
  by_cases e : i = j
  · subst e; rw [modifyAt_self]; exact k
  · rw [modifyAt_other v i j f e]; exact h j

/-! ### What the operations make of a unit -/

/-- An open attempt closes as failed; a unit without one stays (R131). -/
def GenUnit.failOpen (st : Nat) (x : GenUnit) : GenUnit := if x.attempt.isSome then x.fail st else x

/-- What a change of mode from `old` to `new` does to the start attempt (R129 to R131). -/
def GenUnit.settle (old new : UnitMode) (st : Nat) (x : GenUnit) : GenUnit :=
  match x.attempt with
  | some _ => if isLoad new then x.succeed st else if new = .standstill ∨ new = .unknown then x.fail st else x
  | none =>
    if old = .standstill ∧ new ≠ .standstill ∧ new ≠ .unknown then
      if isLoad new then (x.openAttempt st).succeed st else x.openAttempt st
    else x

theorem failAttempt_tu (u : UnitNo) (r : FailReason) (old new : UnitMode) (st : Stamp) (s : State) :
    (s.failAttempt u r old new st).tu = modifyAt s.tu u (GenUnit.failOpen st.elapsed) := by
  unfold State.failAttempt
  split
  · next none => exact (modifyAt_id _ _ (by simp [GenUnit.failOpen, none, -Fin.getElem_fin])).symm
  · next a some =>
    simp only [State.offer_tu, State.onUnit_tu]
    exact modifyAt_congr _ _ (by simp [GenUnit.failOpen, some, -Fin.getElem_fin])

theorem settleAttempt_tu (u : UnitNo) (old new : UnitMode) (st : Nat) (v : StationVals) (s : State) :
    (s.settleAttempt u old new st v).tu = modifyAt s.tu u (GenUnit.settle old new st) := by
  unfold State.settleAttempt
  split
  · next a some =>
    have fails : modifyAt s.tu u (GenUnit.failOpen st) = modifyAt s.tu u (GenUnit.fail st) :=
      modifyAt_congr _ _ (by simp [GenUnit.failOpen, some, -Fin.getElem_fin])
    split
    · next load => exact modifyAt_congr _ _ (by simp [GenUnit.settle, some, load, -Fin.getElem_fin])
    · next load =>
      split
      · next stop =>
        rw [failAttempt_tu, stampOf_elapsed, fails]
        exact modifyAt_congr _ _ (by simp [GenUnit.settle, some, isLoad, stop, -Fin.getElem_fin])
      · next stop =>
        split
        · next lost =>
          rw [failAttempt_tu, stampOf_elapsed, fails]
          exact modifyAt_congr _ _ (by simp [GenUnit.settle, some, isLoad, lost, -Fin.getElem_fin])
        · next lost => exact (modifyAt_id _ _ (by simp [GenUnit.settle, some, load, stop, lost, -Fin.getElem_fin])).symm
  · next none =>
    split
    · next leaves =>
      dsimp only
      split
      · next load =>
        simp only [State.onUnit_tu, modifyAt_modifyAt]
        exact modifyAt_congr _ _ (by simp [GenUnit.settle, none, load, leaves, -Fin.getElem_fin])
      · next load => exact modifyAt_congr _ _ (by simp [GenUnit.settle, none, load, leaves, -Fin.getElem_fin])
    · next stays => exact (modifyAt_id _ _ (by simp only [GenUnit.settle, none]; exact if_neg stays)).symm

/-- A change of mode at stamp `st`, with what it does to the attempt (R121, R122). -/
def GenUnit.change (new : UnitMode) (st : Nat) (x : GenUnit) : GenUnit := (x.enter new st).settle x.mode new st

theorem sourceChange_tu (u : UnitNo) (stamp : Nat) (v : StationVals) (s : State) :
    (s.sourceChange u stamp v).tu =
      if derivedMode s u = s.tu[u].mode then s.tu
      else modifyAt s.tu u (GenUnit.change (derivedMode s u) (max stamp s.tu[u].entry)) := by
  unfold State.sourceChange
  dsimp only
  split
  · rfl
  · rw [settleAttempt_tu, State.onUnit_tu, modifyAt_modifyAt]
    exact modifyAt_congr _ _ rfl

theorem eventChange_tu (u : UnitNo) (new : UnitMode) (s : State) :
    (s.eventChange u new).tu =
      if new = s.tu[u].mode then s.tu
      else modifyAt s.tu u fun x => (x.enter new s.tb.e).failOpen s.tb.e := by
  unfold State.eventChange
  dsimp only
  split
  · rfl
  · rw [failAttempt_tu, State.onUnit_tu, modifyAt_modifyAt]
    exact modifyAt_congr _ _ (by simp [Timebase.now])

/-! ### What a credit and a count leave of a unit -/

theorem creditShift_eq (b : Nat) (x : GenUnit) :
    x.creditShift b = { x with cur := (x.creditShift b).cur, next := (x.creditShift b).next } := by
  unfold GenUnit.creditShift
  split
  · rfl
  · dsimp only
    split <;> rfl

theorem countShift_eq (k : StartCount) (st : Nat) (x : GenUnit) :
    x.countShift k st = { x with cur := (x.countShift k st).cur, next := (x.countShift k st).next } := by
  unfold GenUnit.countShift
  split
  · rfl
  · rfl
  · split <;> rfl

/-- What an entry into a mode leaves of a unit's table entry, counters and attempt. -/
theorem enter_eq (m : UnitMode) (b : Nat) (x : GenUnit) :
    x.enter m b =
      { x with buckets := modifyAt x.buckets (modeIdx x.mode) (· + (b - x.entry)), mode := m, entry := b,
               history := (m, b) :: x.history.take 3, cur := (x.creditShift b).cur, next := (x.creditShift b).next } := by
  unfold GenUnit.enter
  rw [creditShift_eq]

theorem openAttempt_eq (st : Nat) (x : GenUnit) :
    x.openAttempt st =
      { x with starts := (x.starts + 1) % 4294967296, attempt := some { start := st, expiry := st + x.timeout * 64000 },
               cur := (x.countShift .opened st).cur, next := (x.countShift .opened st).next } := by
  unfold GenUnit.openAttempt GenUnit.count
  dsimp only
  rw [countShift_eq]

theorem succeed_eq (st : Nat) (x : GenUnit) :
    x.succeed st =
      { x with successes := (x.successes + 1) % 4294967296, attempt := none,
               cur := (x.countShift .succeeded st).cur, next := (x.countShift .succeeded st).next } := by
  unfold GenUnit.succeed GenUnit.count
  dsimp only
  rw [countShift_eq]

theorem fail_eq (st : Nat) (x : GenUnit) :
    x.fail st =
      { x with failures := (x.failures + 1) % 4294967296, attempt := none,
               cur := (x.countShift .failed st).cur, next := (x.countShift .failed st).next } := by
  unfold GenUnit.fail GenUnit.count
  dsimp only
  rw [countShift_eq]

/-! ### Cuts and closes change the shift sets alone -/

/-- Two units differ in their shift sets at most. -/
def GenUnit.SameTally (x y : GenUnit) : Prop := y = { x with cur := y.cur, next := y.next }

theorem creditShift_sameTally (b : Nat) (x : GenUnit) : x.SameTally (x.creditShift b) := creditShift_eq b x

theorem openingCut_unit (st : Stamp) (s : State) (u : UnitNo) :
    (s.openingCut st).tu[u] = { s.tu[u] with cur := ShiftSet.zero (some st.elapsed) } := by
  simp [State.openingCut]

theorem noteCut_unit (k : CloseKind) (st : Stamp) (s : State) (u : UnitNo) :
    (s.noteCut k st).tu[u] = { s.tu[u] with next := some (ShiftSet.zero (some st.elapsed)) } := by
  simp [State.noteCut]

theorem closeShift_unit {c : CutNoted} {h : Header} (cut : s.sh.cut = some c) (closing : s.sh.closing = some h) (u : UnitNo) :
    s.closeShift.tu[u] = (s.tu[u].closeInterval c.stamp.elapsed).promote c.stamp.elapsed := by
  simp [State.closeShift, cut, closing]

theorem closeShift_of_none (h : s.sh.cut = none ∨ s.sh.closing = none) : s.closeShift = s := by
  unfold State.closeShift
  split
  · next cut closing => rcases h with h | h <;> simp_all
  · rfl

theorem closeInterval_sameTally (cut : Nat) (x : GenUnit) : x.SameTally (x.closeInterval cut) := by
  unfold GenUnit.closeInterval
  split <;> rfl

theorem promote_sameTally (cut : Nat) (x : GenUnit) : x.SameTally (x.promote cut) := rfl

theorem GenUnit.SameTally.trans {x y z : GenUnit} (h : x.SameTally y) (g : y.SameTally z) : x.SameTally z := by
  unfold GenUnit.SameTally at h g ⊢
  rw [g, h]

theorem openingCut_sameTally (st : Stamp) (s : State) (u : UnitNo) : s.tu[u].SameTally (s.openingCut st).tu[u] := by
  rw [openingCut_unit]; rfl

theorem noteCut_sameTally (k : CloseKind) (st : Stamp) (s : State) (u : UnitNo) :
    s.tu[u].SameTally (s.noteCut k st).tu[u] := by
  rw [noteCut_unit]; rfl

theorem closeShift_sameTally (s : State) (u : UnitNo) : s.tu[u].SameTally s.closeShift.tu[u] := by
  cases cut : s.sh.cut with
  | none => rw [closeShift_of_none (.inl cut)]; rfl
  | some c =>
    cases closing : s.sh.closing with
    | none => rw [closeShift_of_none (.inr closing)]; rfl
    | some h =>
      rw [closeShift_unit cut closing]
      exact (closeInterval_sameTally ..).trans (promote_sameTally ..)

end Sys2Proof.Machine
end

/-! The operations of the Handover Controller and the Cascade Tracker keep every property that their parts keep. -/

section
namespace Sys2Proof.Machine

/-- The parts that the operations of the Handover Controller are made of keep a property. -/
structure HandoverKept (P : State → Prop) : Prop where
  apart : ∀ {s t : State}, Within [.hc, .ct, .ml, .ubi] s t → P s → P t
  offer : ∀ {s : State} (r : EventRecord), isChannelKind r.kind = false → P s → P (s.offer r)
  openingCut : ∀ {s : State} (st : Stamp), P s → P (s.openingCut st)
  noteCut : ∀ {s : State} (k : CloseKind) (st : Stamp), P s → P (s.noteCut k st)
  closeShift : ∀ {s : State}, P s → P s.closeShift

namespace HandoverKept

variable {P : State → Prop} {s : State}

theorem onHc (k : HandoverKept P) (f : Handover → Handover) (h : P s) : P (s.onHc f) :=
  k.apart ((onHc_within f s).mono (by decide)) h

theorem onCt (k : HandoverKept P) (f : Cascades → Cascades) (h : P s) : P (s.onCt f) :=
  k.apart ((onCt_within f s).mono (by decide)) h

theorem onMl (k : HandoverKept P) (f : MgmtLink → MgmtLink) (h : P s) : P (s.onMl f) :=
  k.apart ((onMl_within f s).mono (by decide)) h

theorem announce (k : HandoverKept P) (o : HState) (c : HCause) (cls : RecClass) (n : Nat) (h : P s) :
    P (s.announce o c cls n) :=
  k.onHc _ (k.offer _ rfl h)

theorem takeCut (k : HandoverKept P) (kind : CloseKind) (c : HCause) (e : Nat) (h : P s) : P (s.takeCut kind c e) :=
  k.announce _ _ _ _ (k.onHc _ (k.noteCut _ _ h))

theorem takeOpeningCut (k : HandoverKept P) (e : Nat) (h : P s) : P (s.takeOpeningCut e) := k.onHc _ (k.openingCut _ h)

theorem holdAtBoundary (k : HandoverKept P) (x : Resume) (r : Nat) (h : P s) : P (s.holdAtBoundary x r) :=
  k.announce _ _ _ _ (k.onHc _ h)

theorem openWindow (k : HandoverKept P) (r : Nat) (h : P s) : P (s.openWindow r) := by
  unfold State.openWindow
  dsimp only
  split
  · exact k.holdAtBoundary _ r h
  · exact k.announce _ _ _ _ (k.onHc _ h)

theorem cutAtBoundary (k : HandoverKept P) (kind : CloseKind) (x : Resume) (r : Nat) (h : P s) :
    P (s.cutAtBoundary kind x r) := by
  unfold State.cutAtBoundary
  split
  · exact k.holdAtBoundary x r h
  · exact k.takeCut _ _ r h

theorem actBoundary (k : HandoverKept P) (b : BoundaryId) (r : Nat) (h : P s) : P (s.actBoundary b r) := by
  unfold State.actBoundary
  split
  · split
    · exact k.cutAtBoundary _ _ r (k.onHc _ h)
    · exact h
  · exact h
  · exact k.openWindow r (k.onHc _ h)
  · exact k.cutAtBoundary _ _ r (k.onHc _ h)
  · exact k.onHc _ h
  · exact k.onHc _ h
  · exact k.onHc _ h
  · exact k.openWindow r (k.onHc _ h)
  · exact k.onHc _ h
  · exact k.onHc _ h

theorem evaluate (k : HandoverKept P) (h : P s) : P s.evaluate := by
  unfold State.evaluate
  dsimp only
  split
  · exact h
  · split
    · exact h
    · exact k.actBoundary _ _ (k.onHc _ h)

theorem onLocalTime (k : HandoverKept P) (b : Bool) (h : P s) : P (s.onLocalTime b) := by
  unfold State.onLocalTime
  split
  · exact h
  · split
    · exact k.onHc _ h
    · exact k.evaluate h

theorem incidentBegins (k : HandoverKept P) (h : P s) : P s.incidentBegins := by
  have held : ∀ x, P (s.holdAtIncident x) := fun x => k.announce _ _ _ _ (k.onHc _ h)
  unfold State.incidentBegins
  split
  · exact held _
  · exact held _
  · exact held _
  all_goals exact h

theorem incidentEnds (k : HandoverKept P) (h : P s) : P s.incidentEnds := by
  unfold State.incidentEnds
  split
  · have counted := k.onHc (fun h => { h with heldTicks := h.heldTicks + (s.tb.e - h.heldSince.getD s.tb.e), heldSince := none }) h
    dsimp only
    split
    · exact k.announce _ _ _ _ (k.onHc _ counted)
    · exact k.announce _ _ _ _ (k.onHc _ counted)
    · exact k.announce _ _ _ _ (k.onHc _ counted)
    · exact k.takeCut _ _ _ (k.onHc _ counted)
    · exact k.takeCut _ _ _ (k.onHc _ counted)
    · exact counted
  all_goals exact h

theorem answer (k : HandoverKept P) (d : DownKind) (m : ConsoleMsg) (h : P s) : P (s.answer d m) := k.onHc _ h

theorem takeMessage (k : HandoverKept P) (m : ConsoleMsg) (h : P s) : P (s.takeMessage m) := by
  have answered : ∀ d, P (s.answer d m) := fun d => k.answer d m h
  unfold State.takeMessage
  split
  · unfold State.takeClaim State.refuseAuto State.refuseMsg
    split
    · split <;> exact answered _
    · split
      · refine k.announce _ _ _ _ (k.answer _ m (k.onHc _ ?_))
        split
        · exact h
        · exact k.takeOpeningCut _ h
      all_goals exact answered _
  · unfold State.takeAccept State.refuseAuto State.refuseMsg
    have accepted : P (s.acceptFrom m) := k.announce _ _ _ _ (k.answer _ m (k.onHc _ h))
    split
    · split <;> exact answered _
    · split
      · exact answered _
      · exact answered _
      · split
        · exact answered _
        · exact accepted
      · split
        · exact answered _
        · exact accepted
      · split
        · exact answered _
        · split <;> exact answered _
      · exact answered _
      · exact answered _
  · unfold State.takeRelease State.refuseAuto State.refuseMsg
    split
    · split <;> exact answered _
    · split
      · exact answered _
      · split <;> exact answered _
      · split <;> exact answered _
      · split <;> exact answered _
      · split
        · exact k.announce _ _ _ _ (k.answer _ m (k.onHc _ (k.noteCut _ _ h)))
        · exact answered _
      · exact answered _
      · exact answered _
  · unfold State.takeQuery State.refuseAuto State.refuseMsg
    split
    · split <;> exact answered _
    · split <;> exact answered _

theorem takeArrived (k : HandoverKept P) (x : ConsoleKind) (h : P s) : P (s.takeArrived x) := by
  unfold State.takeArrived
  split
  · exact h
  · split
    · exact k.takeMessage _ (k.onHc _ h)
    · exact h

theorem windowExpires (k : HandoverKept P) (h : P s) : P s.windowExpires := by
  unfold State.windowExpires
  split
  · split
    · exact k.announce _ _ _ _ (k.onHc _ h)
    · exact h
  · exact h

theorem releaseExpires (k : HandoverKept P) (h : P s) : P s.releaseExpires := by
  unfold State.releaseExpires
  split
  · split
    · exact k.takeCut _ _ _ h
    · exact h
  · exact h

theorem leaveSettling (k : HandoverKept P) (kind : CloseKind) (x : Nat) (h : P s) : P (s.leaveSettling kind x) := by
  unfold State.leaveSettling
  dsimp only
  split
  · exact k.announce _ _ _ _ (k.onHc _ h)
  · exact k.actBoundary _ _ (k.onHc _ (k.announce _ _ _ _ (k.onHc _ h)))

theorem settleEnds (k : HandoverKept P) (h : P s) : P s.settleEnds := by
  unfold State.settleEnds
  split
  · split
    · exact k.leaveSettling _ _ (k.closeShift h)
    · exact h
  · exact h

theorem enterAutoShift (k : HandoverKept P) (o : HState) (c : HCause) (h : P s) : P (s.enterAutoShift o c) :=
  k.announce _ _ _ _ (k.onHc _ h)

theorem writeMode (k : HandoverKept P) (v : SchedMode) (h : P s) : P (s.writeMode v) := by
  have written : P (s.onParams fun p => { p with scheduleMode := v }) := k.onMl _ h
  unfold State.writeMode
  split
  · exact h
  · dsimp only
    split
    · unfold State.toAuto
      split
      · split
        · exact written
        · exact k.enterAutoShift _ _ written
      · split
        · exact k.enterAutoShift _ _ written
        · split
          · exact written
          · exact k.enterAutoShift _ _ (k.takeOpeningCut _ written)
      all_goals exact written
    · unfold State.toConsole
      split
      · exact k.announce _ _ _ _ (k.onHc _ written)
      · exact written

theorem writeOffset (k : HandoverKept P) (v : Int) (h : P s) : P (s.writeOffset v) := by
  have written : P (s.onParams fun p => { p with localOffset := v }) := k.onMl _ h
  unfold State.writeOffset
  dsimp only
  split
  · exact written
  · split
    · exact k.onHc _ written
    · exact k.evaluate written

theorem writeSchedule (k : HandoverKept P) (l : List Nat) (h : P s) : P (s.writeSchedule l) := by
  have seated : P (if (s.onHc fun h => { h with schedule := l }).tb.unset then s.onHc fun h => { h with schedule := l }
      else (s.onHc fun h => { h with schedule := l }).reseat) := by
    split
    · exact k.onHc _ h
    · exact k.onHc _ (k.onHc _ h)
  unfold State.writeSchedule
  dsimp only
  split
  · exact k.enterAutoShift _ _ (k.takeOpeningCut _ seated)
  · exact seated

theorem evalIncident (k : HandoverKept P) (h : P s) : P s.evalIncident := by
  unfold State.evalIncident
  split
  · exact k.incidentBegins (k.onCt _ h)
  · exact k.incidentEnds (k.onCt _ h)
  · exact h
  · exact h

theorem holdEnds (k : HandoverKept P) (h : P s) : P s.holdEnds := by
  unfold State.holdEnds
  split
  · exact h
  · split
    · exact k.evalIncident h
    · exact h

theorem restartCascades (k : HandoverKept P) (h : P s) : P s.restartCascades := by
  have cleared := k.onCt (fun _ => { slots := Vector.replicate 9 none, holdEnd := none, incident := false }) h
  unfold State.restartCascades
  dsimp only
  split
  · exact k.incidentEnds cleared
  · exact cleared

theorem request (k : HandoverKept P) (mine : List Octet → Bool) {act : List Octet → State → Executed}
    (keeps : ∀ req, P (act req s).1) (h : P s) : P (s.runRequest mine act) :=
  runRequest_keeps mine (fun _ _ _ _ g => k.onMl _ g) h keeps

theorem paramCommand (k : HandoverKept P) {α : Type} (n : Nat) (value : Int → Option α) (code : α → Int)
    (allowed : α → State → Bool) {effect : α → State → State} (keeps : ∀ v, P (effect v s)) (h : P s) :
    P (s.paramCommand n value code allowed effect) :=
  k.request _ (fun req => withLength_fst 6 req h (writeParam_fst n value code allowed req h fun v _ _ => keeps v)) h

theorem writeSchedule_act (k : HandoverKept P) (req : List Octet) (h : P s) : P (Machine.writeSchedule req s).1 := by
  unfold Machine.writeSchedule
  split
  · split
    · split
      · exact k.writeSchedule _ h
      · exact h
    · exact h
  · exact h

end HandoverKept

/-- The commands made of these operations alone. -/
def isHandoverCommand : Instr → Bool
  | .incidentHoldEnd | .dutyClaim | .accept | .release | .query | .windowExpiry | .releaseExpiry | .settleEnd
  | .writeScheduleMode | .writeLocalOffset | .writeSchedule => true
  | .powerOnReset _ | .localSecondBoundary | .stepApplication | .huntSyncFound _ | .huntSyncAbsent | .frameTaken _ _
  | .syncAbsentFrame | .bMarker _ _ | .markerMissingTimeout _ | .markerAbsentTimeout _ | .revertWaitExpiry
  | .upwardFrameStart | .upwardFrameEnd | .downlinkFrameStart | .look _ _ | .quietDeadline _ | .cascadeClose _
  | .startTimeout _ | .replyTimeout | .readStatus | .readTime | .setTime | .writeP | .writeQ | .writeStepThreshold
  | .writeJitterLimit | .writeQualifyCount | .writeBClass | .writeHoldoverDriftBound | .writeReferencePolicy
  | .writeRevertive | .writeRevertHoldoff | .writeBuildOut | .writeSearchOnAcquire | .writeStoreDepth
  | .writeChatterWindow | .writeCascadeWindow | .writeTripHold | .writeHandoverWindow | .writeReleaseLimit | .readParam
  | .writeChannel | .readChannel | .restartChannel | .writeUnit | .readTally | .presetTally | .readSchedule | .readShift
  | .trimSearchStart | .trimSearchAbort | .warmRestart | .warmRestartActs | .tick | .unknownRequest => false

theorem HandoverKept.after {P : State → Prop} (k : HandoverKept P) {c : Instr} (made : isHandoverCommand c = true)
    {s : State} (h : P s) : P (s.after c) := by
  cases c
  case incidentHoldEnd => exact k.holdEnds h
  case dutyClaim => exact k.takeArrived .dutyClaim h
  case accept => exact k.takeArrived .accept h
  case release => exact k.takeArrived .release h
  case query => exact k.takeArrived .query h
  case windowExpiry => exact k.windowExpires h
  case releaseExpiry => exact k.releaseExpires h
  case settleEnd => exact k.settleEnds h
  case writeScheduleMode => exact k.paramCommand _ _ _ _ (fun v => k.writeMode v h) h
  case writeLocalOffset => exact k.paramCommand _ _ _ _ (fun v => k.writeOffset v h) h
  case writeSchedule => exact k.request _ (fun req => k.writeSchedule_act req h) h
  all_goals cases made

/-! ### The changes of the offset and the local second boundary -/

/-- Changes of the Timebase that keep E, of the references, the loop, the stores and the header sets keep a property. -/
def QuietKept (P : State → Prop) : Prop :=
  ∀ {s t : State}, Within [.tb, .rm, .dl, .up, .down, .sh] s t → t.tb.e = s.tb.e → P s → P t

theorem takeClass_e (s : State) : s.takeClass.tb.e = s.tb.e := by
  unfold State.takeClass
  split <;> rfl

theorem recomputeU_within (s : State) : Within [.tb] s s.recomputeU := by
  unfold State.recomputeU
  exact .ite (setU_within ..) (setU_within ..)

theorem recomputeU_e (s : State) : s.recomputeU.tb.e = s.tb.e := by
  unfold State.recomputeU
  split <;> rfl

theorem handStep_within (s : State) : Within [.tb, .dl] s s.handStep := by
  unfold State.handStep
  split
  · exact .refl ..
  · exact (onTb_within ..).and (onDl_within ..)

theorem handStep_e (s : State) : s.handStep.tb.e = s.tb.e := by
  unfold State.handStep
  split <;> rfl

theorem latchSecond_within (s : State) : Within [.tb, .dl, .up, .down] s s.latchSecond :=
  ⟨fun b h => by cases b <;> first | exact absurd (by decide) h | rfl⟩

/-- What the changes of the offset and the local second boundary are made of keeps a property. -/
structure OffsetKept (P : State → Prop) : Prop where
  quiet : ∀ {s t : State}, Within [.tb, .rm, .dl, .up, .down] s t → t.tb.e = s.tb.e → P s → P t
  takeClass : ∀ {s : State}, P s → P s.takeClass
  offer : ∀ {s : State} (r : EventRecord), isChannelKind r.kind = false → P s → P (s.offer r)
  localTime : ∀ {s : State} (b : Bool), P s → P (s.onLocalTime b)

theorem HandoverKept.offset {P : State → Prop} (k : HandoverKept P) (quiet : QuietKept P) : OffsetKept P where
  quiet w e h := quiet (w.mono (by decide)) e h
  takeClass h := quiet ((takeClass_within _).mono (by decide)) (takeClass_e _) h
  offer r other h := k.offer r other h
  localTime b h := k.onLocalTime b h

namespace OffsetKept

variable {P : State → Prop} {s : State}

theorem reportClass (k : OffsetKept P) (q : Quality) (h : P s) : P (s.reportClass q) := by
  unfold State.reportClass
  split
  · exact h
  · exact k.offer _ rfl h

theorem reportOffset (k : OffsetKept P) (q : Quality) (b : Bool) {r : Stamp → EventRecord}
    (kind : ∀ st, isChannelKind (r st).kind = false) (h : P s) : P (s.reportOffset q b r) :=
  k.localTime b (k.reportClass q (k.offer _ (kind _) (k.takeClass h)))

theorem stepApplies (k : OffsetKept P) (h : P s) : P s.stepApplies := by
  unfold State.stepApplies
  split
  · exact h
  · next p _ =>
    split
    · unfold State.applyStep
      refine k.reportOffset _ _ (fun _ => rfl) ?_
      have stepped : P ((s.setOffset (steppedOffset s.tb.e s.tb.delta p.amount)).onTb fun x => { x with pendingStep := none }) :=
        k.quiet (((setOffset_within ..).and (onTb_within ..)).mono (by decide)) rfl h
      split
      · exact k.quiet ((setU_within ..).mono (by decide)) rfl stepped
      · exact stepped
    · exact h

theorem secondBoundary (k : OffsetKept P) (h : P s) : P s.secondBoundary := by
  have handed : P s.latchSecond.handStep :=
    k.quiet ((handStep_within _).mono (by decide)) (handStep_e _) (k.quiet ((latchSecond_within s).mono (by decide)) rfl h)
  unfold State.secondBoundary
  split
  · unfold State.takeBoundary
    dsimp only
    split
    · next x _ =>
      unfold State.applySetting
      refine k.reportOffset _ _ (fun _ => rfl) (k.quiet ((setU_within ..).mono (by decide)) rfl ?_)
      exact k.quiet (((setOffset_within ..).and (onTb_within ..)).mono (by decide)) rfl handed
    · have grown := k.quiet ((recomputeU_within _).mono (by decide)) (recomputeU_e _) handed
      exact k.localTime _ (k.reportClass _ (k.takeClass grown))
  · exact h

end OffsetKept

theorem HandoverKept.stepApplies {P : State → Prop} {s : State} (k : HandoverKept P) (quiet : QuietKept P) (h : P s) :
    P s.stepApplies :=
  (k.offset quiet).stepApplies h

theorem HandoverKept.secondBoundary {P : State → Prop} {s : State} (k : HandoverKept P) (quiet : QuietKept P) (h : P s) :
    P s.secondBoundary :=
  (k.offset quiet).secondBoundary h

/-! ### The Cascade Tracker -/

/-- The parts of the Cascade Tracker's operations keep a property. -/
structure IncidentKept (P : State → Prop) : Prop where
  offer : ∀ {s : State} (r : EventRecord), isChannelKind r.kind = false → P s → P (s.offer r)
  slots : ∀ {s : State} {f : Cascades → Cascades}, (∀ c, (f c).incident = c.incident) → P s → P (s.onCt f)
  evalIncident : ∀ {s : State}, P s → P s.evalIncident
  cascadeOpened : ∀ {s : State} (u : UnitNo), P s → P (s.cascadeOpened u)
  countTrip : ∀ {s : State} (g : Group) (load : Bool), P s → P (s.countTrip g load)
  attributeCascade : ∀ {s : State} (g : Group) (ch : Chan) (st : Nat) (load : Bool), P s →
    P (s.attributeCascade g ch st load)

/-- The parts of the Handover Controller's and of the Cascade Tracker's operations keep a property. -/
structure CascadeKept (P : State → Prop) : Prop extends HandoverKept P where
  cascadeOpened : ∀ {s : State} (u : UnitNo), P s → P (s.cascadeOpened u)
  countTrip : ∀ {s : State} (g : Group) (load : Bool), P s → P (s.countTrip g load)
  attributeCascade : ∀ {s : State} (g : Group) (ch : Chan) (st : Nat) (load : Bool), P s →
    P (s.attributeCascade g ch st load)

theorem CascadeKept.incident {P : State → Prop} (k : CascadeKept P) : IncidentKept P where
  offer r other h := k.offer r other h
  slots _ h := k.onCt _ h
  evalIncident h := k.evalIncident h
  cascadeOpened u h := k.cascadeOpened u h
  countTrip g load h := k.countTrip g load h
  attributeCascade g ch st load h := k.attributeCascade g ch st load h

namespace IncidentKept

variable {P : State → Prop} {s : State}

theorem takeTrips (k : IncidentKept P) (g : Group) (l : List Change) (h : P s) : P (s.takeTrips g l) := by
  unfold State.takeTrips
  split
  · exact h
  · split
    · exact k.slots (fun _ => rfl) h
    · have opened : P (s.onCt (Cascades.put g (some (openedCascade s.ml.params.cascadeWindow l)))).evalIncident :=
        k.evalIncident (k.slots (fun _ => rfl) h)
      dsimp only
      split
      · exact k.cascadeOpened _ opened
      · exact opened

theorem takeAllTrips (k : IncidentKept P) (l : List Change) (h : P s) : P (s.takeAllTrips l) :=
  foldl_keeps (fun _ g h => k.takeTrips g _ h) _ h

theorem closeCascade (k : IncidentKept P) (g : Group) (c : Cascade) (m : Member) (h : P s) : P (s.closeCascade g c m) :=
  k.evalIncident (k.slots (fun _ => rfl) (k.attributeCascade _ _ _ _ (k.countTrip _ _ (k.offer _ rfl h))))

theorem cascadeCloses (k : IncidentKept P) (g : Group) (h : P s) : P (s.cascadeCloses g) := by
  unfold State.cascadeCloses
  split
  · exact h
  · split
    · exact h
    · split
      · exact k.closeCascade _ _ _ h
      · exact h

theorem holdEnds (k : IncidentKept P) (h : P s) : P s.holdEnds := by
  unfold State.holdEnds
  split
  · exact h
  · split
    · exact k.evalIncident h
    · exact h

theorem takeHandOns (k : IncidentKept P) (openingFirst : Bool) (l : List HandOn)
    (tally : ∀ t x, x ∈ l → P t → P (t.handToTally x)) (h : P s) : P (s.takeHandOns openingFirst l) := by
  have tallied : ∀ t, P t → P (l.foldl (fun t x => t.handToTally x) t) := fun t g => foldl_keeps_mem tally g
  unfold State.takeHandOns
  dsimp only
  split
  · exact tallied _ (k.takeAllTrips _ h)
  · exact k.takeAllTrips _ (tallied _ h)

end IncidentKept

theorem CascadeKept.cascadeCloses {P : State → Prop} {s : State} (k : CascadeKept P) (g : Group) (h : P s) :
    P (s.cascadeCloses g) :=
  k.incident.cascadeCloses g h

theorem CascadeKept.takeHandOns {P : State → Prop} {s : State} (k : CascadeKept P) (openingFirst : Bool) (l : List HandOn)
    (tally : ∀ t x, x ∈ l → P t → P (t.handToTally x)) (h : P s) : P (s.takeHandOns openingFirst l) :=
  k.incident.takeHandOns openingFirst l tally h

/-- A look keeps what its parts keep: the console slot with its message, the looks of the channels with what they hand on,
and the write to the upward store. -/
theorem look_keeps {P : State → Prop} {s : State} (u : Uplink) (o : LookOrder)
    (ubi : ∀ t : State, Within [.ubi] s t → P t) (first : ∀ t : State, P t → P (t.consoleFirst u))
    (last : ∀ t : State, P t → P (t.consolePart u))
    (channels : ∀ t : State, P t → P ((t.allLooks u.status).1.takeHandOns o.openingFirst (t.allLooks u.status).2))
    (up : ∀ t : State, P t → P (t.writeStore .up u.status)) (h : P s) : P (s.look u o) := by
  have part : ∀ t : State, P t → P (t.channelPart u o.openingFirst) := fun t g => up _ (channels t g)
  have noted : P (s.onUbi fun x => { x with lastLook := some s.tb.e }) := ubi _ (onUbi_within ..)
  unfold State.look
  split
  · unfold State.takeLook
    dsimp only
    split
    · exact part _ (first _ noted)
    · exact last _ (part _ noted)
  · exact h

theorem CascadeKept.look {P : State → Prop} {s : State} (k : CascadeKept P) (u : Uplink) (o : LookOrder)
    (channels : ∀ t : State, P t → P ((t.allLooks u.status).1.takeHandOns o.openingFirst (t.allLooks u.status).2))
    (up : ∀ t : State, P t → P (t.writeStore .up u.status)) (h : P s) : P (s.look u o) := by
  refine look_keeps u o (fun t w => k.apart (w.mono (by decide)) h) (fun t g => ?_) (fun t g => k.onHc _ g) channels up h
  unfold State.consoleFirst
  dsimp only
  split
  · exact k.takeMessage _ (k.onHc _ g)
  · exact k.onHc _ g

end Sys2Proof.Machine
end

/-! The start accounting of the units (R126, R129 to R133). -/

section
namespace Sys2Proof.Machine

variable {s t : State}

theorem startInv_dependsOn : DependsOn [.tu] State.StartInv := fun s t same h u => by
  rw [show t.tu = s.tu from same .tu (by decide)]
  exact h u

/-! ### One unit -/

theorem GenUnit.StartsBalanced.of_sameTally {x y : GenUnit} (h : x.StartsBalanced) (e : x.SameTally y) : y.StartsBalanced := by
  unfold GenUnit.SameTally at e
  rw [e]
  exact ⟨h.balance, h.modes⟩

/-- The equality of R133 alone. -/
def GenUnit.CountsBalanced (x : GenUnit) : Prop :=
  (x.successes + x.failures + boolCode x.attempt.isSome) % 4294967296 = x.starts

/-- With no attempt open the modes need no check. -/
theorem GenUnit.StartsBalanced.of_closed {x : GenUnit} (h : x.CountsBalanced) (closed : x.attempt = none) :
    x.StartsBalanced :=
  ⟨h, fun open_ => by rw [closed] at open_; cases open_⟩

theorem countsBalanced_enter {x : GenUnit} (h : x.CountsBalanced) (m : UnitMode) (b : Nat) :
    (x.enter m b).CountsBalanced := by
  rw [enter_eq]; exact h

theorem countsBalanced_openAttempt {x : GenUnit} (h : x.CountsBalanced) (closed : x.attempt = none) (st : Nat) :
    (x.openAttempt st).CountsBalanced := by
  unfold GenUnit.CountsBalanced at h ⊢
  rw [openAttempt_eq]
  simp only [closed, Option.isSome_none, Option.isSome_some, boolCode] at h ⊢
  omega

theorem countsBalanced_succeed {x : GenUnit} (h : x.CountsBalanced) (opened : x.attempt.isSome = true) (st : Nat) :
    (x.succeed st).CountsBalanced := by
  unfold GenUnit.CountsBalanced at h ⊢
  rw [succeed_eq]
  simp only [opened, Option.isSome_none, boolCode] at h ⊢
  omega

theorem countsBalanced_fail {x : GenUnit} (h : x.CountsBalanced) (opened : x.attempt.isSome = true) (st : Nat) :
    (x.fail st).CountsBalanced := by
  unfold GenUnit.CountsBalanced at h ⊢
  rw [fail_eq]
  simp only [opened, Option.isSome_none, boolCode] at h ⊢
  omega

theorem startsBalanced_failOpen {x : GenUnit} (h : x.CountsBalanced) (st : Nat) : (x.failOpen st).StartsBalanced := by
  unfold GenUnit.failOpen
  split
  · next opened => exact .of_closed (countsBalanced_fail h opened st) (by rw [fail_eq])
  · next closed => exact .of_closed h (by simpa using closed)

/-- A mode in which an attempt is neither closed nor failed is one of those in which it can be open (R129 to R131). -/
theorem canBeStarting_of_kept {m : UnitMode} (load : isLoad m ≠ true) (stops : ¬ (m = .standstill ∨ m = .unknown)) :
    canBeStarting m = true := by
  cases m <;> simp_all [isLoad, canBeStarting]

theorem startsBalanced_settle {x : GenUnit} (h : x.CountsBalanced) (old : UnitMode) (st : Nat) :
    (x.settle old x.mode st).StartsBalanced := by
  unfold GenUnit.settle
  split
  · next a opened =>
    have isOpen : x.attempt.isSome = true := by rw [opened]; rfl
    split
    · exact .of_closed (countsBalanced_succeed h isOpen st) (by rw [succeed_eq])
    · next load =>
      split
      · exact .of_closed (countsBalanced_fail h isOpen st) (by rw [fail_eq])
      · next stops => exact ⟨h, fun _ => canBeStarting_of_kept load stops⟩
  · next closed =>
    split
    · next leaves =>
      have opened := countsBalanced_openAttempt h closed st
      split
      · exact .of_closed (countsBalanced_succeed opened (by rw [openAttempt_eq]; rfl) st) (by rw [succeed_eq])
      · next load =>
        refine ⟨opened, fun _ => ?_⟩
        rw [openAttempt_eq]
        exact canBeStarting_of_kept load (by simpa using leaves.2)
    · exact .of_closed h closed

theorem startsBalanced_change {x : GenUnit} (h : x.CountsBalanced) (new : UnitMode) (st : Nat) :
    (x.change new st).StartsBalanced := by
  have settled := startsBalanced_settle (countsBalanced_enter h new st) x.mode st
  rwa [show (x.enter new st).mode = new by rw [enter_eq]] at settled

/-! ### The Tally Unit's operations -/

theorem State.StartInv.of_unit (h : s.StartInv) {u : UnitNo} {f : GenUnit → GenUnit} (tu : t.tu = modifyAt s.tu u f)
    (k : (f s.tu[u]).StartsBalanced) : t.StartInv := by
  intro j
  rw [tu]
  exact forall_modifyAt (P := fun _ (x : GenUnit) => x.StartsBalanced) (fun i => h i) k j

theorem State.StartInv.failAttempt (h : s.StartInv) (u : UnitNo) (r : FailReason) (old new : UnitMode) (st : Stamp) :
    (s.failAttempt u r old new st).StartInv :=
  h.of_unit (failAttempt_tu ..) (startsBalanced_failOpen (h u).balance _)

theorem State.StartInv.sourceChange (h : s.StartInv) (u : UnitNo) (stamp : Nat) (v : StationVals) :
    (s.sourceChange u stamp v).StartInv := by
  have tu := sourceChange_tu u stamp v s
  split at tu
  · unfold State.StartInv; rw [tu]; exact h
  · exact h.of_unit tu (startsBalanced_change (h u).balance _ _)

theorem State.StartInv.eventChange (h : s.StartInv) (u : UnitNo) (new : UnitMode) : (s.eventChange u new).StartInv := by
  have tu := eventChange_tu u new s
  split at tu
  · unfold State.StartInv; rw [tu]; exact h
  · exact h.of_unit tu (startsBalanced_failOpen (countsBalanced_enter (h u).balance _ _) _)

theorem State.StartInv.handToTally (h : s.StartInv) (x : HandOn) : (s.handToTally x).StartInv := by
  unfold State.handToTally
  split
  · split
    · exact h.sourceChange _ _ _
    · exact h
  · split
    · exact h.eventChange _ _
    · exact h

theorem startInv_cascadeKept : CascadeKept State.StartInv where
  apart w h := startInv_dependsOn.within w rfl h
  offer r _ h := startInv_dependsOn.within (offer_within r _) rfl h
  openingCut st h u := (h u).of_sameTally (openingCut_sameTally ..)
  noteCut k st h u := (h u).of_sameTally (noteCut_sameTally ..)
  closeShift h u := (h u).of_sameTally (closeShift_sameTally ..)
  cascadeOpened u h := h.failAttempt _ _ _ _ _
  countTrip g load h := by
    unfold State.countTrip
    split
    · next u _ => exact h.of_unit (u := u) rfl ⟨(h u).balance, (h u).modes⟩
    · exact h
  attributeCascade g ch st load h := startInv_dependsOn.within (attributeCascade_within ..) rfl h

theorem startInv_quietKept : QuietKept State.StartInv := fun w _ h => startInv_dependsOn.within w rfl h

/-! ### Restarts, table writes and presets -/

theorem State.StartInv.restartChannel (h : s.StartInv) (ch : Chan) (source : Option UnitNo) :
    (s.restartChannel ch source).StartInv := by
  have restarted : ((s.cm[ch].store.foldl State.discardEntry s).onChannel ch Channel.restart).StartInv :=
    startInv_dependsOn.within (onChannel_within ..) rfl
      (foldl_keeps (fun _ r h => startInv_dependsOn.within (lose_within ..) rfl h) _ h)
  unfold State.restartChannel
  dsimp only
  split
  · exact restarted.eventChange _ _
  · exact restarted

theorem State.StartInv.restartChannels (h : s.StartInv) (cm : Vector Channel 24) (l : List Chan) :
    (s.restartChannels cm l).StartInv :=
  foldl_keeps (fun _ _ h => h.restartChannel _ _) l h

theorem State.StartInv.writeEntries (h : s.StartInv) (l : List Chan) (e : ChannelEntry) : (s.writeEntries l e).StartInv := by
  have written : (l.foldl (fun t ch => t.onChannel ch fun x => { x with entry := e }) s).StartInv :=
    foldl_keeps (fun _ _ h => startInv_dependsOn.within (onChannel_within ..) rfl h) l h
  refine foldl_keeps (fun t u h => ?_) _ (written.restartChannels s.cm l)
  split
  · exact h
  · exact h.eventChange _ _

/-- A field of `n` octets is below 256 ^ n. -/
theorem natOf_lt (l : List Octet) : natOf l < 256 ^ l.length := by
  have bound : ∀ (l : List Octet) (a : Nat), l.foldl (fun n o => n * 256 + o.toNat) a < (a + 1) * 256 ^ l.length := by
    intro l
    induction l with
    | nil => intro a; simp
    | cons o l ih =>
      intro a
      have o_lt := o.isLt
      calc List.foldl (fun n o => n * 256 + o.toNat) a (o :: l)
          < (a * 256 + o.toNat + 1) * 256 ^ l.length := ih _
        _ ≤ ((a + 1) * 256) * 256 ^ l.length := Nat.mul_le_mul_right _ (by omega)
        _ = (a + 1) * 256 ^ (o :: l).length := by rw [List.length_cons, pow_succ]; ring
  simpa [natOf] using bound l 0

theorem fieldAt_lt (l : List Octet) (i n : Nat) : fieldAt l i n < 256 ^ n := by
  refine Nat.lt_of_lt_of_le (natOf_lt _) (Nat.pow_le_pow_right (by decide) ?_)
  simp

/-- A preset leaves no attempt open, and a consistent one has as many starts as successes and failures (R128). -/
theorem preset_attempt (p : Preset) (e : Nat) (x : GenUnit) : (x.preset p e).attempt = none := by
  unfold GenUnit.preset
  dsimp only
  rw [creditShift_eq]
  dsimp only
  split
  · rw [fail_eq]
  · next closed => simpa using closed

theorem startsBalanced_preset {req : List Octet} (ok : (presetOf req).ok = true) (e : Nat) (x : GenUnit) :
    (x.preset (presetOf req) e).StartsBalanced := by
  refine .of_closed ?_ (preset_attempt ..)
  have consistent : (presetOf req).starts = (presetOf req).successes + (presetOf req).failures := by
    simp [Preset.ok] at ok; exact ok.1.2
  have bound : (presetOf req).starts < 4294967296 := fieldAt_lt req 34 4
  unfold GenUnit.CountsBalanced
  rw [preset_attempt]
  show ((presetOf req).successes + (presetOf req).failures + 0) % 4294967296 = (presetOf req).starts
  omega

theorem State.StartInv.after (c : Instr) (h : s.StartInv) : (s.after c).StartInv := by
  have k := startInv_cascadeKept
  cases handover : isHandoverCommand c with
  | true => exact k.after handover h
  | false =>
    cases c
    case powerOnReset cause =>
      exact powerOn_keeps (fun held u => by
        show (Vector.replicate 8 GenUnit.reset)[u].StartsBalanced
        simp only [Fin.getElem_fin, Vector.getElem_replicate]
        exact ⟨rfl, nofun⟩) h cause
    case localSecondBoundary => exact k.secondBoundary startInv_quietKept h
    case stepApplication => exact k.stepApplies startInv_quietKept h
    case look u o =>
      refine k.look u o (fun t g => ?_) (fun t g => startInv_dependsOn.within (writeStore_within ..) rfl g) h
      exact k.takeHandOns _ _ (fun _ x _ g => g.handToTally x) (startInv_dependsOn.within (allLooks_within ..) rfl g)
    case cascadeClose g => exact k.cascadeCloses g h
    case startTimeout u =>
      show (s.startTimeout u).StartInv
      unfold State.startTimeout
      split
      · exact h
      · split
        · exact h.failAttempt _ _ _ _ _
        · exact h
    case writeChannel =>
      refine k.request _ (fun req => withLength_fst 13 req h ?_) h
      unfold writeChannel
      dsimp only
      split
      · exact h
      · split
        · exact h.writeEntries _ _
        · exact h
    case restartChannel =>
      refine k.request _ (fun req => withLength_fst 5 req h ?_) h
      unfold Machine.restartChannel
      dsimp only
      split
      · exact h.restartChannels _ _
      · exact h
    case writeUnit =>
      refine k.request _ (fun req => withLength_fst 21 req h ?_) h
      unfold Machine.writeUnit
      split
      · next u enabled map _ _ _ =>
        have written : (s.onUnit u fun x =>
            { x with enabled := enabled, modeMap := map, timeout := clampTimeout (fieldAt req 19 2) }).StartInv :=
          h.of_unit (State.onUnit_tu u _ s) ⟨(h u).balance, (h u).modes⟩
        exact written.eventChange _ _
      · exact h
    case presetTally =>
      refine k.request _ (fun req => withLength_fst 54 req h ?_) h
      unfold presetTally
      split
      · exact h
      · split
        · next ok => exact h.of_unit rfl (startsBalanced_preset ok _ _)
        · exact h
    case warmRestartActs =>
      show s.restartActs.StartInv
      unfold State.restartActs
      split
      · have looped : s.clearLinks.restartLoop.StartInv :=
          startInv_dependsOn.within ((clearLinks_within s).and (restartLoop_within _)) rfl h
        exact k.restartCascades (foldl_keeps (fun _ _ h => h.eventChange _ _) _ looped)
      · exact h
    all_goals first | exact startInv_dependsOn.after rfl h | cases handover

/-- Settles O7: a validated change opens an attempt only out of STANDSTILL and closes it in every mode but the three that
can hold one; a cut and the close of a shift change the shift sets alone. -/
theorem startAccountingKept : Obligations.StartAccountingKept := by
  unfold Obligations.StartAccountingKept
  exact fun s t => startInv_dependsOn.step rfl fun c _ => .after c

end Sys2Proof.Machine
end

/-! Which commands move the Timebase: E, the offset, the trim, U and the class change at their own instants (R3, R4, R10,
R11, R15 to R19). -/

section
namespace Sys2Proof.Machine

variable {s t : State}

/-- The two states have one E, carried fraction, offset, unset flag, step count, trim in force, U and class: what waits for
a boundary or an application may differ. -/
def SameTime (s t : State) : Prop :=
  t.tb = { s.tb with pendingTrim := t.tb.pendingTrim, pendingStep := t.tb.pendingStep, pendingSetting := t.tb.pendingSetting,
                     lastBoundary := t.tb.lastBoundary }

theorem SameTime.of_tb {u : State} (h : SameTime s t) (e : u.tb = t.tb) : SameTime s u := by
  unfold SameTime at h ⊢; rw [e]; exact h

/-- An operation that changes only what waits keeps the rest. -/
theorem SameTime.trans {u : State} (h : SameTime s t) (g : SameTime t u) : SameTime s u := by
  unfold SameTime at h g ⊢; rw [g, h]

theorem SameTime.apart {l : List Block} {u : State} (h : SameTime s t) (w : Within l t u)
    (apart : (([.tb] : List Block).all fun b => !l.contains b) = true) : SameTime s u :=
  h.of_tb (w.out .tb (by simpa using apart))

theorem setMode_sameTime (m : TbMode) (a : Option Ref) (c : TbCause) (s : State) : SameTime s (s.setMode m a c) := by
  have tb : ∀ t : State, t.tb = (s.dropSetting m).tb → SameTime s t := fun t e => by
    unfold SameTime; rw [e]; unfold State.dropSetting; split <;> rfl
  unfold State.setMode
  split
  · rfl
  · exact tb _ (by simp)

theorem confirmStep_tb (r : Ref) (w e : Int) (s : State) : (s.confirmStep r w e).tb = s.tb := by
  unfold State.confirmStep
  dsimp only
  split
  · rfl
  · cases found : s.dl.search <;> rfl

theorem sameTime_loopKept (s : State) : LoopKept (SameTime s) where
  apart w h := h.apart w rfl
  link _ h := h.apart (onMl_within ..) rfl
  offer r _ h := h.apart (offer_within r _) rfl
  follow _ _ _ _ _ h := (h.of_tb rfl).trans (setMode_sameTime ..)
  switchTo _ _ _ h := (h.of_tb rfl).trans (setMode_sameTime ..)
  followNone _ h := (h.trans (setMode_sameTime ..)).trans rfl
  lock _ h := h.trans (setMode_sameTime ..)
  startSearch _ h := h.trans rfl
  restore _ _ h := h.trans rfl
  history _ h := h.of_tb rfl
  confirmStep _ _ _ h := h.of_tb (confirmStep_tb ..)
  badSecond h := h.of_tb rfl
  measure _ _ _ h := h.of_tb rfl
  found _ _ _ h := h.trans rfl
  nextInterval _ _ _ h := h.trans rfl
  compute _ h := h.trans rfl

theorem restartActs_sameTime (s : State) : SameTime s s.restartActs := by
  unfold State.restartActs
  split
  · have cleared : SameTime s s.clearLinks := rfl
    have looped : SameTime s s.clearLinks.restartLoop := ((sameTime_loopKept s).endSearch cleared).of_tb rfl
    exact looped.apart ((restartUnits_within _).and (restartCascades_within _)) rfl
  · rfl

/-- The commands that change the Timebase beside what waits in it. -/
def movesTime : Instr → Bool
  | .tick | .stepApplication | .localSecondBoundary | .powerOnReset _ => true
  | _ => false

theorem after_sameTime {c : Instr} (still : movesTime c = false) (s : State) : SameTime s (s.after c) := by
  have k := sameTime_loopKept s
  have h : SameTime s s := rfl
  cases loop : isLoopCommand c with
  | true => exact k.after loop h
  | false =>
    cases c
    case setTime =>
      refine k.request _ (fun req => withLength_fst 10 req h ?_) h
      unfold Machine.setTime
      split
      · exact h
      · rfl
    case warmRestartActs => exact restartActs_sameTime s
    case tick | stepApplication | localSecondBoundary | powerOnReset => cases still
    all_goals first | exact h.of_tb (after_same (b := .tb) rfl s) | cases loop

/-! ### The boundary and the step application keep E and the carried fraction -/

/-- The two states have one E and one carried fraction. -/
def SameClock (s t : State) : Prop := t.tb.e = s.tb.e ∧ t.tb.fraction = s.tb.fraction

theorem SameClock.of_tb {u : State} (h : SameClock s t) (e : u.tb = t.tb) : SameClock s u := by
  unfold SameClock; rw [e]; exact h

theorem SameClock.takeClass (h : SameClock s t) : SameClock s t.takeClass := by
  unfold State.takeClass
  split
  · exact h
  · exact h

theorem reportOffset_tb (q : Quality) (b : Bool) (r : Stamp → EventRecord) (s : State) :
    (s.reportOffset q b r).tb = s.takeClass.tb := by
  have reported : ∀ t : State, ((t.reportClass q).onLocalTime b).tb = t.tb := fun t =>
    ((reportClass_within q t).and (onLocalTime_within b _)).out .tb (by decide)
  unfold State.reportOffset
  dsimp only
  rw [reported]
  simp

theorem applyStep_sameClock (p : PendingStep) (s : State) : SameClock s (s.applyStep p) := by
  unfold State.applyStep
  refine SameClock.of_tb (t := (State.takeClass _)) (SameClock.takeClass ?_) (reportOffset_tb ..)
  split <;> exact ⟨rfl, rfl⟩

theorem stepApplies_sameClock (s : State) : SameClock s s.stepApplies := by
  unfold State.stepApplies
  split
  · exact ⟨rfl, rfl⟩
  · split
    · exact applyStep_sameClock ..
    · exact ⟨rfl, rfl⟩

theorem handStep_sameClock (s : State) : SameClock s s.handStep := by
  unfold State.handStep
  split <;> exact ⟨rfl, rfl⟩

theorem recomputeU_sameClock (s : State) : SameClock s s.recomputeU := by
  unfold State.recomputeU
  split <;> exact ⟨rfl, rfl⟩

theorem plainSecond_tb (s : State) : s.plainSecond.tb = s.recomputeU.takeClass.tb :=
  ((reportClass_within ..).and (onLocalTime_within ..)).out .tb (by decide)

theorem SameClock.trans {u : State} (h : SameClock s t) (g : SameClock t u) : SameClock s u :=
  ⟨g.1.trans h.1, g.2.trans h.2⟩

theorem secondBoundary_sameClock (s : State) : SameClock s s.secondBoundary := by
  have handed : SameClock s s.latchSecond.handStep := SameClock.trans ⟨rfl, rfl⟩ (handStep_sameClock _)
  unfold State.secondBoundary
  split
  · unfold State.takeBoundary
    dsimp only
    split
    · next x _ =>
      refine handed.trans (SameClock.of_tb (t := State.takeClass _) ?_ (reportOffset_tb ..))
      exact SameClock.takeClass ⟨rfl, rfl⟩
    · exact handed.trans ((recomputeU_sameClock _).takeClass.of_tb (plainSecond_tb _))
  · exact ⟨rfl, rfl⟩

theorem after_sameClock {c : Instr} (notTick : c ≠ .tick) (notReset : ∀ cause, c ≠ .powerOnReset cause) (s : State) :
    SameClock s (s.after c) := by
  have still : movesTime c = false → SameClock s (s.after c) := fun h => by
    have same := after_sameTime h s
    unfold SameTime at same
    exact ⟨by rw [same], by rw [same]⟩
  cases c
  case tick => exact absurd rfl notTick
  case powerOnReset cause => exact absurd rfl (notReset cause)
  case stepApplication => exact stepApplies_sameClock s
  case localSecondBoundary => exact secondBoundary_sameClock s
  all_goals exact still rfl

/-- E moves at TICK and at POWER_ON_RESET alone (R3). -/
theorem after_e {c : Instr} (notTick : c ≠ .tick) (notReset : ∀ cause, c ≠ .powerOnReset cause) (s : State) :
    (s.after c).tb.e = s.tb.e :=
  (after_sameClock notTick notReset s).1

/-- Settles O13. -/
theorem timebaseMovesOnlyAtItsInstants : Obligations.TimebaseMovesOnlyAtItsInstants := by
  unfold Obligations.TimebaseMovesOnlyAtItsInstants
  refine ⟨fun c s notTick notReset => ⟨_, exec_eq_after c s, after_sameClock notTick notReset s⟩,
    fun c s notStep notSecond notReset => ⟨_, exec_eq_after c s, ?_⟩⟩
  have same : c ≠ .tick → SameTime s (s.after c) := fun notTick => after_sameTime (by
    cases c
    case stepApplication => exact absurd rfl notStep
    case localSecondBoundary => exact absurd rfl notSecond
    case powerOnReset cause => exact absurd rfl (notReset cause)
    case tick => exact absurd rfl notTick
    all_goals rfl) s
  by_cases tick : c = .tick
  · subst tick
    rw [show s.after .tick = s.tick from rfl]
    unfold State.tick
    split <;> exact ⟨rfl, rfl, rfl, rfl, rfl, rfl⟩
  · have eq := same tick
    unfold SameTime at eq
    rw [eq]
    exact ⟨rfl, rfl, rfl, rfl, rfl, rfl⟩

end Sys2Proof.Machine
end

/-! The release round: which held entry a turn takes, and where a round ends (R88, R96, R97). -/

section
namespace Sys2Proof.Machine

variable {s t : State}

theorem mem_allChannels : ∀ ch : Chan, ch ∈ allChannels := by decide

theorem allChannels_rising : allChannels.Pairwise (· < ·) := by decide

/-! ### The choice of a turn -/

/-- No record of the channel with the other class stands in the queue: every one that stands in it is of the class. -/
theorem otherClassHeld_eq_false {q : EventQueue} {ch : Chan} {c : RecClass} :
    otherClassHeld q ch c = false ↔ ∀ r ∈ q.records, isChannelKind r.kind = true → r.source = ch.val → r.cls = c := by
  simp [otherClassHeld]

theorem releasable_eq_some {ch : Chan} {r : EventRecord} :
    releasable s ch = some r ↔ s.cm[ch].store.head? = some r ∧ s.eq.takes r.cls = true ∧ otherClassHeld s.eq ch r.cls = false := by
  unfold releasable
  cases s.cm[ch].store with
  | nil => simp
  | cons x l =>
    dsimp only [List.head?]
    split
    · next open_ =>
      simp only [Bool.and_eq_true, Bool.not_eq_true'] at open_
      exact ⟨fun h => by obtain rfl := Option.some.inj h; exact ⟨rfl, open_⟩, fun h => h.1⟩
    · next shut =>
      simp only [Bool.and_eq_true, Bool.not_eq_true'] at shut
      exact ⟨nofun, fun h => by obtain rfl := Option.some.inj h.1; exact absurd h.2 shut⟩

/-- The entry `best` is the earliest of those that the channels `seen` offer by `f`, the lowest channel's of equal ones. -/
def BestOf (f : Chan → Option EventRecord) (seen : List Chan) : Option (Chan × EventRecord) → Prop
  | none => ∀ ch ∈ seen, f ch = none
  | some (ch, r) => ch ∈ seen ∧ f ch = some r ∧ ∀ ch' ∈ seen, ∀ r', f ch' = some r' →
      r.stamp.elapsed < r'.stamp.elapsed ∨ (r.stamp.elapsed = r'.stamp.elapsed ∧ ch ≤ ch')

theorem bestOf_step {f : Chan → Option EventRecord} {seen : List Chan} {best : Option (Chan × EventRecord)} {ch : Chan}
    (h : BestOf f seen best) (below : ∀ x ∈ seen, x < ch) :
    BestOf f (seen ++ [ch]) (betterRelease best ((f ch).map fun r => (ch, r))) := by
  cases offered : f ch with
  | none =>
    cases best with
    | none => simpa [betterRelease, BestOf, or_imp, forall_and, offered] using h
    | some b =>
      obtain ⟨mem, is, least⟩ := h
      refine ⟨List.mem_append_left _ mem, is, fun ch' hm r' hr => ?_⟩
      rcases List.mem_append.mp hm with old | new
      · exact least ch' old r' hr
      · obtain rfl := List.mem_singleton.mp new
        rw [offered] at hr; cases hr
  | some r =>
    cases best with
    | none =>
      refine ⟨by simp, offered, fun ch' hm r' hr => ?_⟩
      rcases List.mem_append.mp hm with old | new
      · rw [h ch' old] at hr; cases hr
      · obtain rfl := List.mem_singleton.mp new
        rw [offered] at hr
        obtain rfl := Option.some.inj hr
        exact .inr ⟨rfl, Nat.le_refl _⟩
    | some b =>
      obtain ⟨x, q⟩ := b
      obtain ⟨mem, is, least⟩ := h
      have lower := below x mem
      simp only [Option.map_some, betterRelease]
      split
      · next earlier =>
        refine ⟨by simp, offered, fun ch' hm r' hr => ?_⟩
        rcases List.mem_append.mp hm with old | new
        · have := least ch' old r' hr; left; omega
        · obtain rfl := List.mem_singleton.mp new
          rw [offered] at hr
          obtain rfl := Option.some.inj hr
          exact .inr ⟨rfl, Nat.le_refl _⟩
      · next later =>
        refine ⟨List.mem_append_left _ mem, is, fun ch' hm r' hr => ?_⟩
        rcases List.mem_append.mp hm with old | new
        · exact least ch' old r' hr
        · obtain rfl := List.mem_singleton.mp new
          rw [offered] at hr
          obtain rfl := Option.some.inj hr
          have : x ≤ ch' := Nat.le_of_lt lower
          rcases Nat.lt_or_ge q.stamp.elapsed r.stamp.elapsed with lt | ge
          · exact .inl lt
          · exact .inr ⟨by omega, this⟩

theorem releaseChoice_bestOf (s : State) : BestOf (releasable s) allChannels (releaseChoice s) := by
  have folded : ∀ (l seen : List Chan) best, (seen ++ l).Pairwise (· < ·) → BestOf (releasable s) seen best →
      BestOf (releasable s) (seen ++ l)
        (l.foldl (fun best ch => betterRelease best ((releasable s ch).map fun r => (ch, r))) best) := by
    intro l
    induction l with
    | nil => intro seen best _ h; simpa using h
    | cons ch l ih =>
      intro seen best rising h
      rw [List.append_cons] at rising ⊢
      refine ih _ _ rising (bestOf_step h fun x hx => ?_)
      exact (List.pairwise_append.mp (List.pairwise_append.mp rising).1).2.2 x hx ch (List.mem_singleton.mpr rfl)
  exact folded allChannels [] none allChannels_rising nofun

theorem releaseChoice_eq_none : releaseChoice s = none ↔ ∀ ch, releasable s ch = none := by
  have best := releaseChoice_bestOf s
  refine ⟨fun h ch => ?_, fun h => ?_⟩
  · rw [h] at best; exact best ch (mem_allChannels ch)
  · cases chosen : releaseChoice s with
    | none => rfl
    | some p =>
      rw [chosen] at best
      obtain ⟨-, is, -⟩ := best
      rw [h] at is; cases is

theorem releasable_of_choice {p : Chan × EventRecord} (h : releaseChoice s = some p) : releasable s p.1 = some p.2 := by
  have best := releaseChoice_bestOf s
  rw [h] at best
  exact best.2.1

theorem afterTurn_of_choice {p : Chan × EventRecord} (h : releaseChoice s = some p) :
    s.afterTurn = (s.enqueue p.2).onChannel p.1 fun x => { x with store := x.store.tail } := by
  simp [State.afterTurn, State.releaseTurn, h]

theorem afterTurn_of_none (h : releaseChoice s = none) : s.afterTurn = s := by
  simp [State.afterTurn, State.releaseTurn, h]

theorem enqueue_admitted (r : EventRecord) (s : State) : s.admittedNext (s.enqueue r) r := by
  unfold State.admittedNext
  simp [State.enqueue, State.countCurrent, EventQueue.sealRecord]

/-- Settles O41. -/
theorem releaseTakesEarliestEntry : Obligations.ReleaseTakesEarliestEntry := by
  unfold Obligations.ReleaseTakesEarliestEntry
  refine fun s => ⟨releaseChoice_eq_none, fun ch r => by rw [releasable_eq_some, otherClassHeld_eq_false], fun ch r h => ?_⟩
  have best := releaseChoice_bestOf s
  rw [h] at best
  obtain ⟨-, is, least⟩ := best
  rw [afterTurn_of_choice h]
  refine ⟨is, fun ch' r' => least ch' (mem_allChannels ch') r', enqueue_admitted r s, ?_, fun other ne => ?_⟩
  · show (modifyAt s.cm ch _)[ch].store = _
    rw [modifyAt_self]
  · exact modifyAt_other _ _ _ _ (Ne.symm ne)

/-! ### A round ends with no candidate -/

/-- What every turn of a release round keeps, the round keeps. -/
theorem releaseRound_keeps {P : State → Prop} (turn : ∀ t, P t → P t.afterTurn) (h : P s) : P s.releaseRound := by
  have turns : ∀ n t, P t → P (releaseTurns n t) := by
    intro n
    induction n with
    | zero => exact fun t g => g
    | succ n ih => exact fun t g => ih _ (turn t g)
  exact turns _ s h

/-- The records held in the pending stores of some channels. -/
def heldIn (s : State) (l : List Chan) : Nat := (l.map fun ch => s.cm[ch].store.length).sum

theorem heldCount_eq (s : State) : heldCount s = heldIn s allChannels := by
  have folded : ∀ (l : List Chan) n, l.foldl (fun n ch => n + s.cm[ch].store.length) n = n + heldIn s l := by
    intro l
    induction l with
    | nil => simp [heldIn]
    | cons ch l ih => intro n; simp only [List.foldl_cons, ih, heldIn, List.map_cons, List.sum_cons]; omega
  exact (folded allChannels 0).trans (Nat.zero_add _)

theorem heldIn_congr {l : List Chan} (h : ∀ ch ∈ l, t.cm[ch] = s.cm[ch]) : heldIn t l = heldIn s l := by
  unfold heldIn
  congr 1
  exact List.map_congr_left fun ch hm => by rw [h ch hm]

/-- One entry fewer is held in some channels after one of them has given one up. -/
theorem heldIn_turn {l : List Chan} (distinct : l.Nodup) {ch : Chan} (mem : ch ∈ l) (others : ∀ x ≠ ch, t.cm[x] = s.cm[x])
    (gave : t.cm[ch].store.length + 1 = s.cm[ch].store.length) : heldIn t l + 1 = heldIn s l := by
  induction l with
  | nil => cases mem
  | cons x l ih =>
    obtain ⟨fresh, distinct⟩ := List.nodup_cons.mp distinct
    simp only [heldIn, List.map_cons, List.sum_cons]
    by_cases e : x = ch
    · subst e
      have rest : heldIn t l = heldIn s l := heldIn_congr fun y hy => others y fun e => fresh (e ▸ hy)
      unfold heldIn at rest
      omega
    · have rest := ih distinct ((List.mem_cons.mp mem).resolve_left (Ne.symm e))
      unfold heldIn at rest
      rw [others x e]
      omega

theorem heldCount_turn {p : Chan × EventRecord} (h : releaseChoice s = some p) : heldCount s.afterTurn + 1 = heldCount s := by
  obtain ⟨head, -, -⟩ := releasable_eq_some.mp (releasable_of_choice h)
  have others : ∀ x ≠ p.1, s.afterTurn.cm[x] = s.cm[x] := fun x ne => by
    rw [afterTurn_of_choice h]; exact modifyAt_other _ _ _ _ (Ne.symm ne)
  have gave : s.afterTurn.cm[p.1].store.length + 1 = s.cm[p.1].store.length := by
    rw [afterTurn_of_choice h]
    show (modifyAt s.cm p.1 _)[p.1].store.length + 1 = _
    rw [modifyAt_self]
    cases store : s.cm[p.1].store with
    | nil => rw [store] at head; cases head
    | cons x l => simp
  rw [heldCount_eq, heldCount_eq]
  exact heldIn_turn (by decide) (mem_allChannels _) others gave

theorem releaseTurns_of_none (h : releaseChoice s = none) (n : Nat) : releaseTurns n s = s := by
  induction n with
  | zero => rfl
  | succ n ih => exact (congrArg (releaseTurns n) (afterTurn_of_none h)).trans ih

/-- A round of as many turns as entries are held ends with no candidate: every turn takes one (R97). -/
theorem releaseRound_done (s : State) : releaseChoice s.releaseRound = none := by
  have turns : ∀ n t, heldCount t ≤ n → releaseChoice (releaseTurns n t) = none := by
    intro n
    induction n with
    | zero =>
      intro t h
      cases chosen : releaseChoice t with
      | none => exact chosen
      | some p => have := heldCount_turn chosen; omega
    | succ n ih =>
      intro t h
      cases chosen : releaseChoice t with
      | none => rw [releaseTurns_of_none chosen]; exact chosen
      | some p => exact ih t.afterTurn (by have := heldCount_turn chosen; omega)
  exact turns _ s (Nat.le_refl _)

end Sys2Proof.Machine
end

/-! The tally equality of the units and the instants that the channels keep (R69, R73, R122, R124, R125). -/

section
namespace Sys2Proof.Machine

variable {s t : State}

/-- The invariant speaks of the channels, the units and of E. -/
theorem State.TallyInv.of_same (h : s.TallyInv) (e : t.tb.e = s.tb.e) (cm : t.cm = s.cm) (tu : t.tu = s.tu) :
    t.TallyInv :=
  ⟨fun ch => by rw [e, cm]; exact h.channels ch, fun u => by rw [e, tu]; exact h.units u⟩

theorem tallyInv_dependsOn : DependsOn [.tb, .cm, .tu] State.TallyInv := fun s t same h =>
  h.of_same (congrArg Timebase.e (same .tb (by decide))) (same .cm (by decide)) (same .tu (by decide))

theorem State.TallyInv.apart {l : List Block} (h : s.TallyInv) (w : Within l s t)
    (apart : (([.tb, .cm, .tu] : List Block).all fun b => !l.contains b) = true) : t.TallyInv :=
  tallyInv_dependsOn.within w apart h

/-! ### One unit -/

theorem GenUnit.Balanced.of_sameTally {e : Nat} {x y : GenUnit} (h : x.Balanced e) (same : x.SameTally y) : y.Balanced e := by
  unfold GenUnit.SameTally at same
  rw [same]
  exact ⟨h.entry, h.balance, h.historyLength, h.newest, h.historyOrder, h.historyPast⟩

theorem sum_set {n : Nat} (v : Vector Nat n) (i : Fin n) (k : Nat) :
    (modifyAt v i (· + k)).toList.sum = v.toList.sum + k := by
  have split : v.toList.sum = (v.toList.take i).sum + v[i] + (v.toList.drop (i + 1)).sum := by
    conv_lhs => rw [← List.take_append_drop i v.toList]
    rw [List.sum_append, List.drop_eq_getElem_cons (by simp)]
    simp [Nat.add_assoc]
  unfold modifyAt
  rw [Vector.toList_set, List.sum_set, split]
  simp
  omega

/-- A change of mode credits the time since the entry, so that the equality goes on from the new entry stamp (R122). -/
theorem balanced_enter {e : Nat} {x : GenUnit} (h : x.Balanced e) (m : UnitMode) {b : Nat} (later : x.entry ≤ b) (past : b ≤ e) :
    (x.enter m b).Balanced e := by
  rw [enter_eq]
  refine ⟨past, ?_, ?_, rfl, ?_, ?_⟩
  · have balance := h.balance
    simp only [sum_set]
    omega
  · have length := h.historyLength
    simp only [List.length_cons, List.length_take]
    omega
  · refine List.pairwise_cons.mpr ⟨fun p hp => ?_, h.historyOrder.sublist (List.take_sublist ..)⟩
    exact (h.historyPast p (List.mem_of_mem_take hp)).trans later
  · intro p hp
    rcases List.mem_cons.mp hp with rfl | older
    · exact Nat.le_refl _
    · exact (h.historyPast p (List.mem_of_mem_take older)).trans later

/-- Counters, attempt and table entry do not matter to the equality. -/
theorem balanced_failOpen {e : Nat} {x : GenUnit} (h : x.Balanced e) (st : Nat) : (x.failOpen st).Balanced e := by
  unfold GenUnit.failOpen
  split
  · rw [fail_eq]; exact ⟨h.entry, h.balance, h.historyLength, h.newest, h.historyOrder, h.historyPast⟩
  · exact h

theorem balanced_settle {e : Nat} {x : GenUnit} (h : x.Balanced e) (old new : UnitMode) (st : Nat) :
    (x.settle old new st).Balanced e := by
  have opened : (x.openAttempt st).Balanced e := by
    rw [openAttempt_eq]; exact ⟨h.entry, h.balance, h.historyLength, h.newest, h.historyOrder, h.historyPast⟩
  have succeeded : ∀ {y : GenUnit}, y.Balanced e → (y.succeed st).Balanced e := fun h => by
    rw [succeed_eq]; exact ⟨h.entry, h.balance, h.historyLength, h.newest, h.historyOrder, h.historyPast⟩
  unfold GenUnit.settle
  split
  · split
    · exact succeeded h
    · split
      · rw [fail_eq]; exact ⟨h.entry, h.balance, h.historyLength, h.newest, h.historyOrder, h.historyPast⟩
      · exact h
  · split
    · split
      · exact succeeded opened
      · exact opened
    · exact h

theorem balanced_preset {e : Nat} {x : GenUnit} (h : x.Balanced e) (p : Preset) (base : p.base = p.buckets.toList.sum) :
    (x.preset p e).Balanced e := by
  have same : ∃ y : GenUnit, x.preset p e =
      { x with buckets := p.buckets, starts := p.starts, successes := p.successes, failures := p.failures, trips := p.trips,
               loadTrips := p.loadTrips, base := p.base, baseStamp := e, entry := e, attempt := y.attempt, cur := y.cur,
               next := y.next } := by
    refine ⟨x.preset p e, ?_⟩
    unfold GenUnit.preset
    dsimp only
    rw [creditShift_eq]
    split
    · rw [fail_eq]
    · rfl
  obtain ⟨y, eq⟩ := same
  rw [eq]
  exact ⟨Nat.le_refl e, by simp [base], h.historyLength, h.newest, h.historyOrder,
    fun q hq => (h.historyPast q hq).trans h.entry⟩

/-! ### The Tally Unit's operations -/

theorem State.TallyInv.of_unit (h : s.TallyInv) {u : UnitNo} {f : GenUnit → GenUnit} (e : t.tb.e = s.tb.e)
    (cm : t.cm = s.cm) (tu : t.tu = modifyAt s.tu u f) (k : (f s.tu[u]).Balanced s.tb.e) : t.TallyInv := by
  refine ⟨fun ch => by rw [e, cm]; exact h.channels ch, fun j => ?_⟩
  rw [tu, e]
  exact forall_modifyAt (P := fun _ (x : GenUnit) => x.Balanced s.tb.e) h.units k j

theorem State.TallyInv.failAttempt (h : s.TallyInv) (u : UnitNo) (r : FailReason) (old new : UnitMode) (st : Stamp) :
    (s.failAttempt u r old new st).TallyInv :=
  have w := failAttempt_within u r old new st s
  h.of_unit (congrArg Timebase.e (w.out .tb (by decide))) (w.out .cm (by decide)) (failAttempt_tu ..)
    (balanced_failOpen (h.units u) _)

theorem State.TallyInv.sourceChange (h : s.TallyInv) (u : UnitNo) {stamp : Nat} (past : stamp ≤ s.tb.e) (v : StationVals) :
    (s.sourceChange u stamp v).TallyInv := by
  have w := sourceChange_within u stamp v s
  have e : (s.sourceChange u stamp v).tb.e = s.tb.e := congrArg Timebase.e (w.out .tb (by decide))
  have cm : (s.sourceChange u stamp v).cm = s.cm := w.out .cm (by decide)
  have tu := sourceChange_tu u stamp v s
  split at tu
  · exact h.of_same e cm tu
  · refine h.of_unit e cm tu (balanced_settle (balanced_enter (h.units u) _ (Nat.le_max_right ..) ?_) ..)
    exact Nat.max_le.mpr ⟨past, (h.units u).entry⟩

theorem State.TallyInv.eventChange (h : s.TallyInv) (u : UnitNo) (new : UnitMode) : (s.eventChange u new).TallyInv := by
  have w := eventChange_within u new s
  have e : (s.eventChange u new).tb.e = s.tb.e := congrArg Timebase.e (w.out .tb (by decide))
  have cm : (s.eventChange u new).cm = s.cm := w.out .cm (by decide)
  have tu := eventChange_tu u new s
  split at tu
  · exact h.of_same e cm tu
  · exact h.of_unit e cm tu (balanced_failOpen (balanced_enter (h.units u) _ (h.units u).entry (Nat.le_refl _)) _)

theorem State.TallyInv.of_sameTally (h : s.TallyInv) (e : t.tb.e = s.tb.e) (cm : t.cm = s.cm)
    (tu : ∀ u : UnitNo, s.tu[u].SameTally t.tu[u]) : t.TallyInv :=
  ⟨fun ch => by rw [e, cm]; exact h.channels ch, fun u => by rw [e]; exact (h.units u).of_sameTally (tu u)⟩

theorem tallyInv_cascadeKept : CascadeKept State.TallyInv where
  apart w h := h.apart w rfl
  offer r _ h := h.apart (offer_within r _) rfl
  openingCut st h := h.of_sameTally rfl rfl (openingCut_sameTally st _)
  noteCut k st h := h.of_sameTally rfl rfl (noteCut_sameTally k st _)
  closeShift {s} h :=
    have w := closeShift_within s
    h.of_sameTally (congrArg Timebase.e (w.out .tb (by decide))) (w.out .cm (by decide)) (closeShift_sameTally s)
  cascadeOpened u h := h.failAttempt ..
  countTrip {s} g load h := by
    unfold State.countTrip
    split
    · next u _ =>
      have x := h.units u
      exact h.of_unit rfl rfl (State.onUnit_tu u _ s)
        ⟨x.entry, x.balance, x.historyLength, x.newest, x.historyOrder, x.historyPast⟩
    · exact h
  attributeCascade g ch st load h := h.apart (attributeCascade_within ..) rfl

theorem tallyInv_quietKept : QuietKept State.TallyInv := fun w e h =>
  h.of_same e (w.out .cm (by decide)) (w.out .tu (by decide))

/-! ### One channel -/

theorem State.TallyInv.onChannel (h : s.TallyInv) (ch : Chan) {f : Channel → Channel} (k : (f s.cm[ch]).Past s.tb.e) :
    (s.onChannel ch f).TallyInv :=
  ⟨forall_modifyAt (P := fun _ (x : Channel) => x.Past s.tb.e) h.channels k, h.units⟩

theorem State.TallyInv.offerChannel (h : s.TallyInv) (ch : Chan) (r : EventRecord) : (s.offerChannel ch r).TallyInv := by
  unfold State.offerChannel
  split
  · exact h.apart (enqueue_within ..) rfl
  · have x := h.channels ch
    exact h.onChannel ch ⟨x.floor, x.candidate, x.run, x.chatter⟩

theorem State.TallyInv.channelRecord (h : s.TallyInv) (ch : Chan) (kind : RecKind) (cls : RecClass) (i : Bool)
    (old new : Option Code) (aux : Nat) {stamp : Nat} (past : stamp ≤ s.tb.e) (v : StationVals) :
    (s.channelRecord ch kind cls i old new aux stamp v).TallyInv := by
  have x := h.channels ch
  unfold State.channelRecord
  refine State.TallyInv.offerChannel (h.onChannel ch ?_) ..
  exact ⟨Nat.max_le.mpr ⟨past, x.floor⟩, x.candidate, x.run, x.chatter⟩

/-- An update of a channel that keeps its instants, after other changes of the state. -/
theorem State.TallyInv.then_onChannel (h : s.TallyInv) (ch : Chan) {f : Channel → Channel}
    (k : ∀ x : Channel, x.Past s.tb.e → (f x).Past s.tb.e) : (s.onChannel ch f).TallyInv :=
  h.onChannel ch (k _ (h.channels ch))

theorem channelBlocks_e {l : List Block} (w : Within l s t) (apart : l.contains .tb = false) : t.tb.e = s.tb.e :=
  congrArg Timebase.e (w.out .tb (by simpa using apart))

theorem State.TallyInv.endChatter (h : s.TallyInv) (ch : Chan) {c : Chatter} (past : c.lastStamp ≤ s.tb.e)
    (new : Option Code) : (s.endChatter ch c new).TallyInv := by
  unfold State.endChatter
  exact (h.channelRecord ch _ _ _ _ _ _ past _).then_onChannel ch fun x p => ⟨p.floor, p.candidate, p.run, nofun⟩

theorem State.TallyInv.recordChange (h : s.TallyInv) (ch : Chan) {c : Change} (past : c.stamp ≤ s.tb.e) :
    (s.recordChange ch c).TallyInv := by
  have recorded : ∀ kind cls, (s.channelRecord ch kind cls false c.old (some c.new) 0 c.stamp c.vals).TallyInv := fun _ _ =>
    h.channelRecord ch _ _ _ _ _ _ past _
  have e : ∀ kind cls, (s.channelRecord ch kind cls false c.old (some c.new) 0 c.stamp c.vals).tb.e = s.tb.e := fun _ _ =>
    channelBlocks_e (channelRecord_within ..) rfl
  unfold State.recordChange
  dsimp only
  split
  · refine h.then_onChannel ch fun x p => ⟨p.floor, p.candidate, p.run, fun k hk => ?_⟩
    obtain rfl : _ = k := Option.some.inj hk
    exact past
  · split
    · refine (recorded _ _).then_onChannel ch fun x p => ⟨p.floor, p.candidate, p.run, fun k hk => ?_⟩
      obtain rfl : _ = k := Option.some.inj hk
      rw [e]
      exact past
    · exact (recorded _ _).then_onChannel ch fun x p => ⟨p.floor, p.candidate, p.run, p.chatter⟩

/-- What a look hands on is dated no later than E. -/
def HandOn.PastAt (e : Nat) : HandOn → Prop
  | .change c => c.stamp ≤ e
  | .lost _ => True

theorem changeStamp_le {e : Nat} {x : Channel} {k : Candidate} (h : x.Past e) (past : k.frame ≤ e) : changeStamp x k ≤ e := by
  have floor := h.floor
  unfold changeStamp
  omega

theorem State.TallyInv.validate (h : s.TallyInv) (ch : Chan) {k : Candidate} (past : k.frame ≤ s.tb.e) :
    (s.validate ch k).1.TallyInv ∧ ∀ x ∈ (s.validate ch k).2, x.PastAt s.tb.e := by
  have stamp : changeStamp s.cm[ch] k ≤ s.tb.e := changeStamp_le (h.channels ch) past
  have valid : (s.onChannel ch fun y => { y with valid := some k.code, candidate := none, presence := .present }).TallyInv :=
    h.then_onChannel ch fun x p => ⟨p.floor, nofun, p.run, p.chatter⟩
  unfold State.validate
  refine ⟨?_, by simpa [HandOn.PastAt] using stamp⟩
  dsimp only
  split
  · exact valid.channelRecord ch _ _ _ _ _ _ stamp _
  · exact valid.channelRecord ch _ _ _ _ _ _ stamp _
  · exact valid.recordChange ch (c := ⟨_, _, _, _, _⟩) stamp

/-- The last step of a loss: the channel is ABSENT, with its record. -/
theorem State.TallyInv.recordLoss (h : s.TallyInv) (ch : Chan) (cls : RecClass) (old : Option Code) (r : RunStart) {stamp : Nat}
    (past : stamp ≤ s.tb.e) :
    ((s.onChannel ch fun x => { x with valid := none, presence := .absent }).channelRecord ch .channelLost cls false old none 0
      stamp r.vals).TallyInv :=
  (h.then_onChannel ch (f := fun x => { x with valid := none, presence := .absent }) fun _ p =>
    ⟨p.floor, p.candidate, p.run, p.chatter⟩).channelRecord ch _ _ _ _ _ _ past _

theorem State.TallyInv.loseChannel (h : s.TallyInv) (ch : Chan) {r : RunStart} (past : r.frame ≤ s.tb.e) :
    (s.loseChannel ch r).1.TallyInv := by
  have stamp : ∀ (t : State) (n : Nat), t.tb.e = s.tb.e → r.frame - n ≤ t.tb.e := fun t n e => by omega
  unfold State.loseChannel
  dsimp only
  split
  · next c found =>
    have last := (h.channels ch).chatter c found
    exact (h.endChatter ch last _).recordLoss ch _ _ r (stamp _ _ (channelBlocks_e (endChatter_within ..) rfl))
  · exact h.recordLoss ch _ _ r (stamp s _ rfl)

theorem State.TallyInv.noDeviceLook (h : s.TallyInv) (ch : Chan) : (s.noDeviceLook ch).1.TallyInv := by
  have start : (if s.cm[ch].runCount = 0 then ({ frame := s.tb.e, vals := s.tb.vals } : RunStart)
      else s.cm[ch].runStart.getD { frame := s.tb.e, vals := s.tb.vals }).frame ≤ s.tb.e := by
    split
    · exact Nat.le_refl _
    · cases run : s.cm[ch].runStart with
      | none => exact Nat.le_refl _
      | some r => exact (h.channels ch).run r run
  unfold State.noDeviceLook
  dsimp only
  generalize (if s.cm[ch].runCount = 0 then _ else _ : RunStart) = r at start
  have noted := h.then_onChannel ch
    (f := fun y => { y with candidate := none, runCount := min (y.runCount + 1) 2, runStart := some r }) fun x p =>
      ⟨p.floor, nofun, fun _ hr => Option.some.inj hr ▸ start, p.chatter⟩
  split
  · exact noted.loseChannel ch start
  · exact noted

theorem State.TallyInv.codeLook (h : s.TallyInv) (ch : Chan) (o : Octet) :
    (s.codeLook ch o).1.TallyInv ∧ ∀ x ∈ (s.codeLook ch o).2, x.PastAt s.tb.e := by
  have noted : (s.onChannel ch fun y => { y with runCount := 0, runStart := none }).TallyInv :=
    h.then_onChannel ch fun x p => ⟨p.floor, p.candidate, nofun, p.chatter⟩
  unfold State.codeLook
  dsimp only
  split
  · split
    · exact ⟨noted, nofun⟩
    · exact ⟨noted.then_onChannel ch fun x p => ⟨p.floor, fun _ hk => Option.some.inj hk ▸ Nat.le_refl _, p.run, p.chatter⟩,
        nofun⟩
  · next k candidate =>
    split
    · exact noted.validate ch ((h.channels ch).candidate k candidate)
    · refine ⟨noted.then_onChannel ch fun x p => ⟨p.floor, fun _ hk => ?_, p.run, p.chatter⟩, nofun⟩
      split at hk
      · cases hk
      · exact Option.some.inj hk ▸ Nat.le_refl _

theorem State.TallyInv.channelLook (h : s.TallyInv) (ch : Chan) (o : Octet) :
    (s.channelLook ch o).1.TallyInv ∧ ∀ x ∈ (s.channelLook ch o).2, x.PastAt s.tb.e := by
  have noted : (s.onChannel ch fun y => { y with rawLast := some o }).TallyInv :=
    h.then_onChannel ch fun x p => ⟨p.floor, p.candidate, p.run, p.chatter⟩
  unfold State.channelLook
  dsimp only
  split
  · split
    · refine ⟨noted.noDeviceLook ch, ?_⟩
      unfold State.noDeviceLook State.loseChannel
      dsimp only
      split <;> simp [HandOn.PastAt]
    · exact noted.codeLook ch o
  · exact ⟨noted, nofun⟩

theorem State.TallyInv.allLooks (h : s.TallyInv) (status : Vector Octet 24) :
    (s.allLooks status).1.TallyInv ∧ ∀ x ∈ (s.allLooks status).2, x.PastAt s.tb.e := by
  unfold State.allLooks
  generalize allChannels = chs
  have looked : ∀ (chs : List Chan) (p : State × List HandOn), p.1.TallyInv → p.1.tb.e = s.tb.e →
      (∀ x ∈ p.2, x.PastAt s.tb.e) →
      let q := chs.foldl (fun (p : State × List HandOn) ch => let q := p.1.channelLook ch status[ch]; (q.1, p.2 ++ q.2)) p
      q.1.TallyInv ∧ ∀ x ∈ q.2, x.PastAt s.tb.e := by
    intro chs
    induction chs with
    | nil => exact fun p g _ k => ⟨g, k⟩
    | cons ch chs ih =>
      intro p g e k
      have one := g.channelLook ch status[ch]
      refine ih _ one.1 ((channelBlocks_e (channelLook_within ..) rfl).trans e) fun x hx => ?_
      rcases List.mem_append.mp hx with old | new
      · exact k x old
      · exact e ▸ one.2 x new
  exact looked chs (s, []) h rfl nofun

theorem State.TallyInv.handToTally (h : s.TallyInv) {x : HandOn} (past : x.PastAt s.tb.e) : (s.handToTally x).TallyInv := by
  unfold State.handToTally
  split
  · split
    · exact h.sourceChange _ past _
    · exact h
  · split
    · exact h.eventChange _ _
    · exact h

/-- The parts of the Cascade Tracker keep E beside what they keep. -/
theorem CascadeKept.withE {P : State → Prop} (k : CascadeKept P) (e : Nat) : CascadeKept fun t => P t ∧ t.tb.e = e := by
  have same : ∀ {l : List Block} {s t : State}, Within l s t → l.contains .tb = false → s.tb.e = e → t.tb.e = e :=
    fun w apart h => (channelBlocks_e w apart).trans h
  exact {
    apart := fun w h => ⟨k.apart w h.1, same w rfl h.2⟩
    offer := fun r ord h => ⟨k.offer r ord h.1, same (offer_within ..) rfl h.2⟩
    openingCut := fun st h => ⟨k.openingCut st h.1, h.2⟩
    noteCut := fun c st h => ⟨k.noteCut c st h.1, h.2⟩
    closeShift := fun h => ⟨k.closeShift h.1, same (closeShift_within _) rfl h.2⟩
    cascadeOpened := fun u h => ⟨k.cascadeOpened u h.1, same (cascadeOpened_within ..) rfl h.2⟩
    countTrip := fun g load h => ⟨k.countTrip g load h.1, same (countTrip_within ..) rfl h.2⟩
    attributeCascade := fun g ch st load h =>
      ⟨k.attributeCascade g ch st load h.1, same (attributeCascade_within ..) rfl h.2⟩ }

theorem State.TallyInv.look (h : s.TallyInv) (u : Uplink) (o : LookOrder) : (s.look u o).TallyInv := by
  have kept := tallyInv_cascadeKept.withE s.tb.e
  refine (kept.look u o (fun t g => ?_) (fun t g => ⟨g.1.apart (writeStore_within ..) rfl, ?_⟩) ⟨h, rfl⟩).1
  · have looks := g.1.allLooks u.status
    refine kept.takeHandOns _ _ (fun t' x hx g' => ⟨g'.1.handToTally ?_, ?_⟩)
      ⟨looks.1, (channelBlocks_e (allLooks_within ..) rfl).trans g.2⟩
    · rw [g'.2, ← g.2]; exact looks.2 x hx
    · exact (channelBlocks_e (handToTally_within ..) rfl).trans g'.2
  · exact (channelBlocks_e (writeStore_within ..) rfl).trans g.2

/-! ### Restarts, the release round, the tick and the power-on values -/

theorem past_restart {e : Nat} {x : Channel} (h : x.Past e) : x.restart.Past e := ⟨h.floor, nofun, nofun, nofun⟩

theorem State.TallyInv.restartChannel (h : s.TallyInv) (ch : Chan) (source : Option UnitNo) :
    (s.restartChannel ch source).TallyInv := by
  have discarded : (s.cm[ch].store.foldl State.discardEntry s).TallyInv :=
    foldl_keeps (fun _ _ h => h.apart (lose_within ..) rfl) _ h
  have restarted := discarded.then_onChannel ch (f := Channel.restart) fun _ p => past_restart p
  unfold State.restartChannel
  dsimp only
  split
  · exact restarted.eventChange _ _
  · exact restarted

theorem State.TallyInv.restartChannels (h : s.TallyInv) (cm : Vector Channel 24) (l : List Chan) :
    (s.restartChannels cm l).TallyInv :=
  foldl_keeps (fun _ _ h => h.restartChannel _ _) l h

theorem State.TallyInv.writeEntries (h : s.TallyInv) (l : List Chan) (e : ChannelEntry) : (s.writeEntries l e).TallyInv := by
  have written : (l.foldl (fun t ch => t.onChannel ch fun x => { x with entry := e }) s).TallyInv :=
    foldl_keeps (P := State.TallyInv) (fun _ ch g =>
      g.then_onChannel ch (f := fun x => { x with entry := e }) fun _ p => ⟨p.floor, p.candidate, p.run, p.chatter⟩) l h
  refine foldl_keeps (fun t u h => ?_) _ (written.restartChannels s.cm l)
  split
  · exact h
  · exact h.eventChange _ _

theorem State.TallyInv.afterTurn (h : s.TallyInv) : s.afterTurn.TallyInv := by
  unfold State.afterTurn State.releaseTurn
  cases releaseChoice s with
  | none => exact h
  | some p =>
    have admitted : (s.enqueue p.2).TallyInv := h.apart (enqueue_within ..) rfl
    exact admitted.then_onChannel p.1 fun _ q => ⟨q.floor, q.candidate, q.run, q.chatter⟩

theorem State.TallyInv.upwardEnd (h : s.TallyInv) : s.upwardEnd.TallyInv := by
  have counted : ∀ t : State, t.TallyInv → t.recordFrameEnds.TallyInv := fun t g => by
    unfold State.recordFrameEnds
    dsimp only
    split
    · split
      · exact releaseRound_keeps (fun _ g => g.afterTurn) (g.of_same rfl rfl rfl)
      · exact g.of_same rfl rfl rfl
    · exact g.of_same rfl rfl rfl
  unfold State.upwardEnd
  split
  · exact h
  · split
    · exact h
    · unfold State.endUpward
      dsimp only
      split
      · exact counted _ (h.of_same rfl rfl rfl)
      · exact h.of_same rfl rfl rfl
      · exact h.of_same rfl rfl rfl

theorem Channel.Past.mono {e f : Nat} {x : Channel} (h : x.Past e) (le : e ≤ f) : x.Past f :=
  ⟨h.floor.trans le, fun k hk => (h.candidate k hk).trans le, fun r hr => (h.run r hr).trans le,
    fun c hc => (h.chatter c hc).trans le⟩

theorem GenUnit.Balanced.next {e : Nat} {x : GenUnit} (h : x.Balanced e) : x.Balanced (e + 1) :=
  ⟨h.entry.trans (Nat.le_succ e), by have := h.balance; omega, h.historyLength, h.newest, h.historyOrder,
    h.historyPast⟩

/-- The tick adds one to both sides of the equality; the service life keeps E from its top (R3, R125). -/
theorem State.TallyInv.tick (h : s.TallyInv) (life : s.inService) : s.tick.TallyInv := by
  unfold State.tick
  split
  · exact h
  · have raised : nextElapsed s.tb.e = s.tb.e + 1 := by
      unfold State.inService at life
      exact if_pos (by omega)
    refine ⟨fun ch => ?_, fun u => ?_⟩
    · show s.cm[ch].Past (nextElapsed s.tb.e)
      rw [raised]; exact (h.channels ch).mono (Nat.le_succ _)
    · show s.tu[u].Balanced (nextElapsed s.tb.e)
      rw [raised]; exact (h.units u).next

theorem State.TallyInv.reset (q : List Instr) (held : Bool) :
    State.TallyInv { State.reset with inReset := held, pending := q } := by
  refine ⟨fun ch => ?_, fun u => ?_⟩
  · show (Vector.replicate 24 Channel.reset)[ch].Past 0
    simp only [Fin.getElem_fin, Vector.getElem_replicate]
    exact ⟨Nat.le_refl 0, nofun, nofun, nofun⟩
  · show (Vector.replicate 8 GenUnit.reset)[u].Balanced 0
    simp only [Fin.getElem_fin, Vector.getElem_replicate]
    exact ⟨Nat.le_refl 0, by decide, Nat.le_of_ble_eq_true rfl, rfl, List.pairwise_singleton .., by simp [GenUnit.reset]⟩

theorem State.TallyInv.warmRestart (h : s.TallyInv) : s.restartActs.TallyInv := by
  unfold State.restartActs
  split
  · have cleared : s.clearLinks.TallyInv := ⟨fun ch => by
      show (s.cm.map Channel.warmRestart)[ch].Past s.tb.e
      simp only [Fin.getElem_fin, Vector.getElem_map]
      exact ⟨(h.channels ch).floor, nofun, nofun, nofun⟩, h.units⟩
    have looped : s.clearLinks.restartLoop.TallyInv := by
      have w := restartLoop_within s.clearLinks
      have same : SameTime s.clearLinks s.clearLinks.endSearch := (sameTime_loopKept _).endSearch rfl
      unfold SameTime at same
      refine cleared.of_same ?_ (w.out .cm (by decide)) (w.out .tu (by decide))
      show s.clearLinks.endSearch.tb.e = s.clearLinks.tb.e
      rw [same]
    exact tallyInv_cascadeKept.restartCascades (foldl_keeps (fun _ _ h => h.eventChange _ _) _ looped)
  · exact h

/-! ### The commands -/

/-- The commands that change neither a channel nor a unit keep the equality where they keep E. -/
theorem State.TallyInv.after_apart {c : Instr} (h : s.TallyInv) (cm : (footprint c).contains .cm = false)
    (tu : (footprint c).contains .tu = false) (notTick : c ≠ .tick) (notReset : ∀ cause, c ≠ .powerOnReset cause) :
    (s.after c).TallyInv :=
  h.of_same (after_e notTick notReset s) (after_same (b := .cm) cm s) (after_same (b := .tu) tu s)

theorem State.TallyInv.after (c : Instr) (life : s.inService) (h : s.TallyInv) : (s.after c).TallyInv := by
  have k := tallyInv_cascadeKept
  cases handover : isHandoverCommand c with
  | true => exact k.after handover h
  | false =>
    cases c
    case powerOnReset cause => exact powerOn_keeps (fun held => .reset _ held) h cause
    case localSecondBoundary => exact k.secondBoundary tallyInv_quietKept h
    case stepApplication => exact k.stepApplies tallyInv_quietKept h
    case upwardFrameEnd => exact h.upwardEnd
    case look u o => exact h.look u o
    case quietDeadline ch =>
      show (s.quietDeadline ch).TallyInv
      unfold State.quietDeadline
      split
      · exact h
      · next c found =>
        split
        · exact h.endChatter ch ((h.channels ch).chatter c found) _
        · exact h
    case cascadeClose g => exact k.cascadeCloses g h
    case startTimeout u =>
      show (s.startTimeout u).TallyInv
      unfold State.startTimeout
      split
      · exact h
      · split
        · exact h.failAttempt _ _ _ _ _
        · exact h
    case writeChannel =>
      refine k.request _ (fun req => withLength_fst 13 req h ?_) h
      unfold writeChannel
      dsimp only
      split
      · exact h
      · split
        · exact h.writeEntries _ _
        · exact h
    case restartChannel =>
      refine k.request _ (fun req => withLength_fst 5 req h ?_) h
      unfold Machine.restartChannel
      dsimp only
      split
      · exact h.restartChannels _ _
      · exact h
    case writeUnit =>
      refine k.request _ (fun req => withLength_fst 21 req h ?_) h
      unfold Machine.writeUnit
      split
      · next u enabled map _ _ _ =>
        have x := h.units u
        have written : (s.onUnit u fun x =>
            { x with enabled := enabled, modeMap := map, timeout := clampTimeout (fieldAt req 19 2) }).TallyInv :=
          h.of_unit rfl rfl (State.onUnit_tu u _ s)
            ⟨x.entry, x.balance, x.historyLength, x.newest, x.historyOrder, x.historyPast⟩
        exact written.eventChange _ _
      · exact h
    case presetTally =>
      refine k.request _ (fun req => withLength_fst 54 req h ?_) h
      unfold presetTally
      split
      · exact h
      · split
        · exact h.of_unit rfl rfl (State.onUnit_tu _ _ s) (balanced_preset (h.units _) _ rfl)
        · exact h
    case warmRestartActs => exact h.warmRestart
    case tick => exact h.tick life
    all_goals first | exact h.after_apart rfl rfl nofun nofun | cases handover

/-- Settles O6: every interval is credited where its mode ends, and a preset starts the balance anew. -/
theorem tallyEqualityKept : Obligations.TallyEqualityKept := by
  unfold Obligations.TallyEqualityKept
  intro s t life h step
  rcases step_cases step with ⟨-, rfl⟩ | ⟨c, rest, -, rfl⟩
  · exact h
  · exact State.TallyInv.after c (s := s.withPending rest) life (h.of_same rfl rfl rfl)

end Sys2Proof.Machine
end

/-! The order and the bounds of the Event Queue and of the pending stores (R73, R86 to R88, R92, R97). -/

section
namespace Sys2Proof.Machine

variable {s t : State}

/-! ### What the invariant needs of a state -/

/-- The invariant of the queue and the stores, but that a held entry may be one that could be taken: what holds within a
release round. -/
structure State.QueueHeld (s : State) : Prop where
  fill : s.eq.records.length ≤ 512
  seq : s.eq.seq < 65536
  stores : ∀ ch : Chan, s.cm[ch].store.length ≤ 2
  own : ∀ ch : Chan, ∀ r ∈ s.cm[ch].store, isChannelKind r.kind = true ∧ r.source = ch.val
  oneClass : ∀ ch : Chan, ∀ r ∈ recordsOf ch s.eq.records, ∀ q ∈ recordsOf ch s.eq.records, r.cls = q.cls
  ordered : ∀ ch : Chan, (s.unsent ch).Pairwise fun r q => r.stamp.elapsed ≤ q.stamp.elapsed
  floors : ∀ ch : Chan, ∀ r ∈ s.unsent ch, r.stamp.elapsed ≤ s.cm[ch].floor

theorem State.QueueInv.held (h : s.QueueInv) : s.QueueHeld :=
  ⟨h.fill, h.seq, h.stores, h.own, h.oneClass, h.ordered, h.floors⟩

theorem State.QueueHeld.inv (h : s.QueueHeld) (waiting : ∀ ch : Chan, releasable s ch = none) : s.QueueInv :=
  ⟨h.fill, h.seq, h.stores, h.own, h.oneClass, h.ordered, h.floors, waiting⟩

/-- The queue is the same but for counts, and every channel has its pending store and a stamp floor no lower. -/
structure SameStores (s t : State) : Prop where
  records : t.eq.records = s.eq.records
  seq : t.eq.seq = s.eq.seq
  store : ∀ ch : Chan, t.cm[ch].store = s.cm[ch].store
  floor : ∀ ch : Chan, s.cm[ch].floor ≤ t.cm[ch].floor

theorem takes_congr {p q : EventQueue} (h : q.records = p.records) (c : RecClass) : q.takes c = p.takes c := by
  cases c <;> simp [EventQueue.takes, h]

theorem otherClassHeld_congr {p q : EventQueue} (h : q.records = p.records) (ch : Chan) (c : RecClass) :
    otherClassHeld q ch c = otherClassHeld p ch c := by
  simp [otherClassHeld, h]

theorem releasable_congr {ch : Chan} (store : t.cm[ch].store = s.cm[ch].store) (records : t.eq.records = s.eq.records) :
    releasable t ch = releasable s ch := by
  unfold releasable
  rw [store]
  cases s.cm[ch].store with
  | nil => rfl
  | cons r l => simp only [takes_congr records, otherClassHeld_congr records]

theorem State.QueueHeld.of_same (h : s.QueueHeld) (e : SameStores s t) : t.QueueHeld := by
  have unsent : ∀ ch, t.unsent ch = s.unsent ch := fun ch => by unfold State.unsent; rw [e.records, e.store]
  exact {
    fill := by rw [e.records]; exact h.fill
    seq := by rw [e.seq]; exact h.seq
    stores := fun ch => by rw [e.store]; exact h.stores ch
    own := fun ch => by rw [e.store]; exact h.own ch
    oneClass := fun ch => by rw [e.records]; exact h.oneClass ch
    ordered := fun ch => by rw [unsent]; exact h.ordered ch
    floors := fun ch r hr => (h.floors ch r (by rwa [unsent] at hr)).trans (e.floor ch) }

theorem State.QueueInv.of_same (h : s.QueueInv) (e : SameStores s t) : t.QueueInv :=
  (h.held.of_same e).inv fun ch => by rw [releasable_congr (e.store ch) e.records]; exact h.waiting ch

theorem queueInv_dependsOn : DependsOn [.eq, .cm] State.QueueInv := fun s t same h => by
  have eq : t.eq = s.eq := same .eq (by decide)
  have cm : t.cm = s.cm := same .cm (by decide)
  exact h.of_same ⟨by rw [eq], by rw [eq], fun ch => by rw [cm], fun ch => by rw [cm]⟩

theorem State.QueueInv.apart {l : List Block} (h : s.QueueInv) (w : Within l s t)
    (apart : (([.eq, .cm] : List Block).all fun b => !l.contains b) = true) : t.QueueInv :=
  queueInv_dependsOn.within w apart h

/-! ### A fuller queue takes no more -/

/-- A queue with more records takes nothing that the shorter one does not. -/
theorem takes_of_longer {p q : EventQueue} (h : p.records.length ≤ q.records.length) {c : RecClass}
    (shut : p.takes c = false) : q.takes c = false := by
  cases c <;> simp only [EventQueue.takes, decide_eq_false_iff_not] at * <;> omega

theorem otherClassHeld_of_more {p q : EventQueue} (h : ∀ r ∈ p.records, r ∈ q.records) {ch : Chan} {c : RecClass}
    (held : otherClassHeld p ch c = true) : otherClassHeld q ch c = true := by
  simp only [otherClassHeld, List.any_eq_true] at *
  obtain ⟨r, hr, k⟩ := held
  exact ⟨r, h r hr, k⟩

theorem releasable_eq_none {ch : Chan} :
    releasable s ch = none ↔ ∀ r ∈ s.cm[ch].store.head?, s.eq.takes r.cls = false ∨ otherClassHeld s.eq ch r.cls = true := by
  unfold releasable
  cases s.cm[ch].store with
  | nil => simp
  | cons r l => simp [Classical.or_iff_not_imp_left]

theorem waiting_of_appended {ch : Chan} (store : t.cm[ch].store = s.cm[ch].store) {l : List EventRecord}
    (records : t.eq.records = s.eq.records ++ l) (h : releasable s ch = none) : releasable t ch = none := by
  rw [releasable_eq_none] at *
  intro r hr
  rw [store] at hr
  refine (h r hr).imp (takes_of_longer (by simp [records])) (otherClassHeld_of_more fun q hq => ?_)
  rw [records]
  exact List.mem_append_left _ hq

/-! ### Admission -/

theorem recordsOf_append (ch : Chan) (l m : List EventRecord) : recordsOf ch (l ++ m) = recordsOf ch l ++ recordsOf ch m :=
  List.filter_append ..

theorem mem_recordsOf {ch : Chan} {l : List EventRecord} {r : EventRecord} :
    r ∈ recordsOf ch l ↔ r ∈ l ∧ isChannelKind r.kind = true ∧ r.source = ch.val := by
  simp [recordsOf]

theorem recordsOf_other {ch : Chan} {r : EventRecord} (h : ¬ (isChannelKind r.kind = true ∧ r.source = ch.val)) :
    recordsOf ch [r] = [] := by
  simpa [recordsOf] using h

theorem recordsOf_own {ch : Chan} {r : EventRecord} (kind : isChannelKind r.kind = true) (source : r.source = ch.val) :
    recordsOf ch [r] = [r] := by
  simp [recordsOf, kind, source]

theorem length_lt_of_takes {q : EventQueue} {c : RecClass} (h : q.takes c = true) : q.records.length < 512 := by
  cases c <;> simp only [EventQueue.takes, decide_eq_true_eq] at h <;> omega

/-- A record of another block joins the queue: no channel has another record in it. -/
theorem State.QueueInv.offer (h : s.QueueInv) (r : EventRecord) (other : isChannelKind r.kind = false) :
    (s.offer r).QueueInv := by
  rcases offer_cases r s with ⟨takes, e⟩ | ⟨-, e⟩ <;> rw [e]
  · have added : ∀ ch : Chan, recordsOf ch (s.enqueue r).eq.records = recordsOf ch s.eq.records := fun ch => by
      show recordsOf ch (s.eq.records ++ [s.eq.sealRecord r]) = _
      rw [recordsOf_append, recordsOf_other (by simp [EventQueue.sealRecord, other]), List.append_nil]
    have unsent : ∀ ch, (s.enqueue r).unsent ch = s.unsent ch := fun ch => by unfold State.unsent; rw [added]; rfl
    have room := length_lt_of_takes takes
    exact {
      fill := by show (s.eq.records ++ [_]).length ≤ 512; simpa using room
      seq := Nat.mod_lt _ (by decide)
      stores := h.stores
      own := h.own
      oneClass := fun ch => by rw [added]; exact h.oneClass ch
      ordered := fun ch => by rw [unsent]; exact h.ordered ch
      floors := fun ch q hq => h.floors ch q (by rwa [unsent] at hq)
      waiting := fun ch => waiting_of_appended (s := s) rfl rfl (h.waiting ch) }
  · refine h.of_same ⟨?_, ?_, fun _ => rfl, fun _ => Nat.le_refl _⟩ <;> cases r.cls <;> rfl

theorem State.QueueInv.lose (h : s.QueueInv) (c : RecClass) (n : Nat) : (s.lose c n).QueueInv := by
  refine h.of_same ⟨?_, ?_, fun _ => rfl, fun _ => Nat.le_refl _⟩ <;> cases c <;> rfl

/-- A channel's record joins the queue, and `l` is what its pending store then holds: the channel's unsent records are those
that stood in the queue, the record and `l`. -/
theorem queueHeld_of_admitted (h : s.QueueHeld) {ch : Chan} {r : EventRecord} {l : List EventRecord}
    (kind : isChannelKind r.kind = true) (source : r.source = ch.val) (takes : s.eq.takes r.cls = true)
    (sameClass : otherClassHeld s.eq ch r.cls = false) (eq : t.eq = (s.enqueue r).eq) (store : t.cm[ch].store = l)
    (others : ∀ x ≠ ch, t.cm[x] = s.cm[x]) (few : l.length ≤ 2)
    (own : ∀ q ∈ l, isChannelKind q.kind = true ∧ q.source = ch.val)
    (ordered : (recordsOf ch s.eq.records ++ r :: l).Pairwise fun r q => r.stamp.elapsed ≤ q.stamp.elapsed)
    (floors : ∀ q ∈ recordsOf ch s.eq.records ++ r :: l, q.stamp.elapsed ≤ t.cm[ch].floor) : t.QueueHeld := by
  have records : t.eq.records = s.eq.records ++ [s.eq.sealRecord r] := by rw [eq]; rfl
  have mine : recordsOf ch t.eq.records = recordsOf ch s.eq.records ++ [s.eq.sealRecord r] := by
    rw [records, recordsOf_append, recordsOf_own (by exact kind) (by exact source)]
  have theirs : ∀ x ≠ ch, recordsOf x t.eq.records = recordsOf x s.eq.records := fun x ne => by
    rw [records, recordsOf_append, recordsOf_other, List.append_nil]
    rintro ⟨-, from_x⟩
    exact ne (Fin.ext (from_x.symm.trans source))
  have unsent : t.unsent ch = recordsOf ch s.eq.records ++ s.eq.sealRecord r :: l := by
    unfold State.unsent; rw [mine, store]; simp
  have unsent_other : ∀ x ≠ ch, t.unsent x = s.unsent x := fun x ne => by
    unfold State.unsent; rw [theirs x ne, others x ne]
  have class_of : ∀ q ∈ recordsOf ch t.eq.records, q.cls = r.cls := fun q hq => by
    rw [mine] at hq
    rcases List.mem_append.mp hq with old | new
    · obtain ⟨hm, k, src⟩ := mem_recordsOf.mp old
      exact otherClassHeld_eq_false.mp sameClass q hm k src
    · obtain rfl := List.mem_singleton.mp new
      rfl
  refine {
    fill := by have := length_lt_of_takes takes; rw [records]; simpa using this
    seq := by rw [eq]; exact Nat.mod_lt _ (by decide)
    stores := fun x => ?_
    own := fun x => ?_
    oneClass := fun x => ?_
    ordered := fun x => ?_
    floors := fun x => ?_ }
  all_goals by_cases e : x = ch
  · subst e; rw [store]; exact few
  · rw [others x e]; exact h.stores x
  · subst e; rw [store]; exact own
  · rw [others x e]; exact h.own x
  · subst e; exact fun q hq p hp => (class_of q hq).trans (class_of p hp).symm
  · rw [theirs x e]; exact h.oneClass x
  · subst e
    rw [unsent]
    rw [← List.pairwise_map (f := fun q : EventRecord => q.stamp.elapsed)] at ordered ⊢
    simpa [EventQueue.sealRecord] using ordered
  · rw [unsent_other x e]; exact h.ordered x
  · subst e
    rw [unsent]
    intro q hq
    rcases List.mem_append.mp hq with old | new
    · exact floors q (List.mem_append_left _ old)
    · rcases List.mem_cons.mp new with rfl | held
      · exact floors r (by simp)
      · exact floors q (by simp [held])
  · rw [unsent_other x e, others x e]; exact h.floors x

/-! ### A channel's record -/

theorem State.QueueInv.onChannel (h : s.QueueInv) (ch : Chan) {f : Channel → Channel}
    (store : (f s.cm[ch]).store = s.cm[ch].store) (floor : s.cm[ch].floor ≤ (f s.cm[ch]).floor) :
    (s.onChannel ch f).QueueInv := by
  refine h.of_same ⟨rfl, rfl, fun j => ?_, fun j => ?_⟩
  · exact forall_modifyAt (P := fun j (x : Channel) => x.store = s.cm[j].store) (fun _ => rfl) store j
  · exact forall_modifyAt (P := fun j (x : Channel) => s.cm[j].floor ≤ x.floor) (fun _ => Nat.le_refl _) floor j

/-- What a pending store holds after a record came to it. -/
theorem mem_storeRecord {l : List EventRecord} {r q : EventRecord} (h : q ∈ storeRecord l r) :
    q ∈ l ∨ (q.kind = r.kind ∧ q.source = r.source ∧ q.stamp = r.stamp) := by
  unfold storeRecord at h
  split at h
  · simp at h; simp [h]
  · simp at h; rcases h with rfl | rfl <;> simp
  · simp at h; rcases h with rfl | rfl <;> simp [EventRecord.collapse]

theorem storeRecord_length (l : List EventRecord) (r : EventRecord) : (storeRecord l r).length ≤ 2 := by
  unfold storeRecord
  split <;> simp

theorem storeRecord_ordered {m l : List EventRecord} {r : EventRecord} {bound : Nat}
    (ordered : (m ++ l).Pairwise fun r q => r.stamp.elapsed ≤ q.stamp.elapsed)
    (below : ∀ q ∈ m ++ l, q.stamp.elapsed ≤ bound) (after : bound ≤ r.stamp.elapsed) :
    (m ++ storeRecord l r).Pairwise fun r q => r.stamp.elapsed ≤ q.stamp.elapsed := by
  have joined : ∀ (k : List EventRecord) (q : EventRecord), k.Sublist (m ++ l) → q.stamp = r.stamp →
      (k ++ [q]).Pairwise fun r q => r.stamp.elapsed ≤ q.stamp.elapsed := fun k q sub stamp => by
    refine List.pairwise_append.mpr ⟨ordered.sublist sub, List.pairwise_singleton .., fun a ha b hb => ?_⟩
    obtain rfl := List.mem_singleton.mp hb
    rw [stamp]
    exact (below a (sub.mem ha)).trans after
  unfold storeRecord
  split
  · exact joined m r (List.sublist_append_left ..) rfl
  · next x => simpa using joined (m ++ [x]) r (List.Sublist.refl _) rfl
  · next x y l =>
    have sub : (m ++ [x]).Sublist (m ++ x :: y :: l) := List.Sublist.append_left (by simp) m
    simpa using joined (m ++ [x]) (y.collapse r) sub rfl

theorem storeRecord_head (l : List EventRecord) (r : EventRecord) :
    (storeRecord l r).head? = some (l.head?.getD r) := by
  unfold storeRecord
  split <;> rfl

/-- A record made at the channel's stamp floor enters the queue or the pending store behind the channel's other unsent
records (R73, R86, R87). -/
theorem State.QueueInv.offerChannel (h : s.QueueInv) {ch : Chan} {r : EventRecord} (kind : isChannelKind r.kind = true)
    (source : r.source = ch.val) (below : ∀ q ∈ s.unsent ch, q.stamp.elapsed ≤ r.stamp.elapsed)
    (floor : r.stamp.elapsed ≤ s.cm[ch].floor) : (s.offerChannel ch r).QueueInv := by
  unfold State.offerChannel
  split
  · next admits =>
    simp only [Bool.and_eq_true, List.isEmpty_iff, Bool.not_eq_true'] at admits
    obtain ⟨⟨empty, takes⟩, sameClass⟩ := admits
    have unsent : s.unsent ch = recordsOf ch s.eq.records := by unfold State.unsent; rw [empty, List.append_nil]
    have floors := h.floors ch
    have ordered := h.ordered ch
    rw [unsent] at below floors ordered
    refine (queueHeld_of_admitted h.held (l := []) kind source takes sameClass rfl empty (fun _ _ => rfl) (by simp) nofun
      ?_ ?_).inv fun x => waiting_of_appended (s := s) rfl rfl (h.waiting x)
    · exact List.pairwise_append.mpr ⟨ordered, List.pairwise_singleton .., fun a ha b hb => by
        obtain rfl := List.mem_singleton.mp hb; exact below a ha⟩
    · intro q hq
      rcases List.mem_append.mp hq with old | new
      · exact floors q old
      · obtain rfl := List.mem_singleton.mp new; exact floor
  · next shut =>
    have cm : ∀ x ≠ ch, (s.onChannel ch fun x => { x with store := storeRecord x.store r }).cm[x] = s.cm[x] :=
      fun x ne => modifyAt_other _ _ _ _ (Ne.symm ne)
    have mine : (s.onChannel ch fun x => { x with store := storeRecord x.store r }).cm[ch] =
        { s.cm[ch] with store := storeRecord s.cm[ch].store r } := modifyAt_self ..
    refine ⟨h.fill, h.seq, fun x => ?_, fun x => ?_, h.oneClass, fun x => ?_, fun x => ?_, fun x => ?_⟩
    all_goals by_cases e : x = ch
    · subst e; rw [mine]; exact storeRecord_length ..
    · rw [cm x e]; exact h.stores x
    · subst e
      rw [mine]
      intro q hq
      rcases mem_storeRecord hq with old | ⟨k, src, -⟩
      · exact h.own x q old
      · exact ⟨k ▸ kind, src.trans source⟩
    · rw [cm x e]; exact h.own x
    · subst e
      unfold State.unsent
      rw [mine]
      exact storeRecord_ordered (h.ordered x) below (Nat.le_refl _)
    · unfold State.unsent
      rw [cm x e]
      exact h.ordered x
    · subst e
      unfold State.unsent
      rw [mine]
      intro q hq
      rcases List.mem_append.mp hq with old | new
      · exact h.floors x q (List.mem_append_left _ old)
      · rcases mem_storeRecord new with old | ⟨-, -, stamp⟩
        · exact h.floors x q (List.mem_append_right _ old)
        · rw [stamp]; exact floor
    · unfold State.unsent
      rw [cm x e]
      exact h.floors x
    · subst e
      have waits := releasable_eq_none.mp (h.waiting x)
      rw [releasable_eq_none, mine, storeRecord_head]
      intro q hq
      obtain rfl := Option.some.inj hq
      cases store : s.cm[x].store with
      | cons y l => exact waits y (by rw [store]; rfl)
      | nil =>
        simp only [store, List.isEmpty_nil, Bool.true_and, Bool.and_eq_true, Bool.not_eq_true'] at shut
        show s.eq.takes r.cls = false ∨ otherClassHeld s.eq x r.cls = true
        cases takes : s.eq.takes r.cls
        · exact .inl rfl
        · exact .inr (by simpa [takes] using shut)
    · exact (releasable_congr (s := s) (congrArg Channel.store (cm x e)) rfl).trans (h.waiting x)

theorem State.QueueInv.channelRecord (h : s.QueueInv) (ch : Chan) {kind : RecKind} (ofChannel : isChannelKind kind = true)
    (cls : RecClass) (i : Bool) (old new : Option Code) (aux stamp : Nat) (v : StationVals) :
    (s.channelRecord ch kind cls i old new aux stamp v).QueueInv := by
  unfold State.channelRecord
  have floor : (s.onChannel ch fun x => { x with floor := max stamp s.cm[ch].floor }).cm[ch].floor = max stamp s.cm[ch].floor := by
    rw [show (s.onChannel ch _).cm[ch] = _ from modifyAt_self ..]
  have store : (s.onChannel ch fun x => { x with floor := max stamp s.cm[ch].floor }).cm[ch].store = s.cm[ch].store := by
    rw [show (s.onChannel ch _).cm[ch] = _ from modifyAt_self ..]
  have raised := h.onChannel ch (f := fun x => { x with floor := max stamp s.cm[ch].floor }) rfl (Nat.le_max_right ..)
  refine raised.offerChannel ofChannel rfl (fun q hq => ?_) ?_
  · unfold State.unsent at hq
    rw [store] at hq
    exact (h.floors ch q hq).trans (by simp [mkRecord])
  · rw [floor]; simp [mkRecord]

/-- An update of a channel that leaves its pending store and its stamp floor. -/
theorem State.QueueInv.then_onChannel (h : s.QueueInv) (ch : Chan) {f : Channel → Channel}
    (same : ∀ x : Channel, (f x).store = x.store ∧ (f x).floor = x.floor) : (s.onChannel ch f).QueueInv :=
  h.onChannel ch (same _).1 (Nat.le_of_eq (same _).2.symm)

theorem State.QueueInv.endChatter (h : s.QueueInv) (ch : Chan) (c : Chatter) (new : Option Code) :
    (s.endChatter ch c new).QueueInv := by
  unfold State.endChatter
  exact (h.channelRecord ch rfl _ _ _ _ _ _ _).then_onChannel ch fun _ => ⟨rfl, rfl⟩

theorem changeKind_ofChannel (cm : Vector Channel 24) (ch : Chan) : isChannelKind (changeKind cm ch) = true := by
  unfold changeKind
  split <;> rfl

theorem State.QueueInv.recordChange (h : s.QueueInv) (ch : Chan) (c : Change) : (s.recordChange ch c).QueueInv := by
  unfold State.recordChange
  dsimp only
  split
  · exact h.then_onChannel ch fun _ => ⟨rfl, rfl⟩
  · split
    · exact (h.channelRecord ch rfl _ _ _ _ _ _ _).then_onChannel ch fun _ => ⟨rfl, rfl⟩
    · exact (h.channelRecord ch (changeKind_ofChannel ..) _ _ _ _ _ _ _).then_onChannel ch fun _ => ⟨rfl, rfl⟩

theorem State.QueueInv.validate (h : s.QueueInv) (ch : Chan) (k : Candidate) : (s.validate ch k).1.QueueInv := by
  have valid : (s.onChannel ch fun y => { y with valid := some k.code, candidate := none, presence := .present }).QueueInv :=
    h.then_onChannel ch fun _ => ⟨rfl, rfl⟩
  unfold State.validate
  dsimp only
  split
  · exact valid.channelRecord ch (changeKind_ofChannel ..) _ _ _ _ _ _ _
  · exact valid.channelRecord ch rfl _ _ _ _ _ _ _
  · exact valid.recordChange ch _

theorem State.QueueInv.loseChannel (h : s.QueueInv) (ch : Chan) (r : RunStart) : (s.loseChannel ch r).1.QueueInv := by
  have lost : ∀ t : State, t.QueueInv → (t.onChannel ch fun x => { x with valid := none, presence := .absent }).QueueInv :=
    fun t g => g.then_onChannel ch fun _ => ⟨rfl, rfl⟩
  unfold State.loseChannel
  dsimp only
  refine State.QueueInv.channelRecord (lost _ ?_) ch rfl ..
  split
  · exact h.endChatter ch _ _
  · exact h

theorem State.QueueInv.channelLook (h : s.QueueInv) (ch : Chan) (o : Octet) : (s.channelLook ch o).1.QueueInv := by
  have noted : (s.onChannel ch fun y => { y with rawLast := some o }).QueueInv := h.then_onChannel ch fun _ => ⟨rfl, rfl⟩
  unfold State.channelLook
  dsimp only
  split
  · split
    · unfold State.noDeviceLook
      dsimp only
      have run : ∀ (n : Nat) r, ((s.onChannel ch fun y => { y with rawLast := some o }).onChannel ch fun y =>
          { y with candidate := none, runCount := min (y.runCount + 1) 2, runStart := some r }).QueueInv := fun _ r =>
        noted.then_onChannel ch fun _ => ⟨rfl, rfl⟩
      split
      · exact (run 0 _).loseChannel ch _
      · exact run 0 _
    · unfold State.codeLook
      have coded : ((s.onChannel ch fun y => { y with rawLast := some o }).onChannel ch fun y =>
          { y with runCount := 0, runStart := none }).QueueInv := noted.then_onChannel ch fun _ => ⟨rfl, rfl⟩
      dsimp only
      split
      · split
        · exact coded
        · exact coded.then_onChannel ch fun _ => ⟨rfl, rfl⟩
      · split
        · exact coded.validate ch _
        · exact coded.then_onChannel ch fun _ => ⟨rfl, rfl⟩
  · exact noted

theorem State.QueueInv.allLooks (h : s.QueueInv) (status : Vector Octet 24) : (s.allLooks status).1.QueueInv := by
  unfold State.allLooks
  generalize allChannels = chs
  suffices ∀ p : State × List HandOn, p.1.QueueInv → (chs.foldl (fun (p : State × List HandOn) ch =>
      let q := p.1.channelLook ch status[ch]; (q.1, p.2 ++ q.2)) p).1.QueueInv from this (s, []) h
  induction chs with
  | nil => exact fun _ g => g
  | cons ch chs ih => exact fun p g => ih _ (g.channelLook ch _)

/-! ### The other blocks offer records of their own -/

theorem State.QueueInv.failAttempt (h : s.QueueInv) (u : UnitNo) (r : FailReason) (old new : UnitMode) (st : Stamp) :
    (s.failAttempt u r old new st).QueueInv := by
  unfold State.failAttempt
  split
  · exact h
  · exact State.QueueInv.offer (h.apart (onUnit_within ..) rfl) _ rfl

theorem State.QueueInv.eventChange (h : s.QueueInv) (u : UnitNo) (new : UnitMode) : (s.eventChange u new).QueueInv := by
  unfold State.eventChange
  dsimp only
  split
  · exact h
  · exact State.QueueInv.failAttempt (h.apart (onUnit_within ..) rfl) ..

theorem State.QueueInv.sourceChange (h : s.QueueInv) (u : UnitNo) (stamp : Nat) (v : StationVals) :
    (s.sourceChange u stamp v).QueueInv := by
  have unit : ∀ (t : State) f, t.QueueInv → (t.onUnit u f).QueueInv := fun t f g => g.apart (onUnit_within ..) rfl
  unfold State.sourceChange
  dsimp only
  split
  · exact h
  · unfold State.settleAttempt
    split
    · split
      · exact unit _ _ (unit _ _ h)
      · split
        · exact (unit _ _ h).failAttempt ..
        · split
          · exact (unit _ _ h).failAttempt ..
          · exact unit _ _ h
    · split
      · dsimp only
        split
        · exact unit _ _ (unit _ _ (unit _ _ h))
        · exact unit _ _ (unit _ _ h)
      · exact unit _ _ h

theorem State.QueueInv.handToTally (h : s.QueueInv) (x : HandOn) : (s.handToTally x).QueueInv := by
  unfold State.handToTally
  split
  · split
    · exact h.sourceChange ..
    · exact h
  · split
    · exact h.eventChange _ _
    · exact h

theorem queueInv_cascadeKept : CascadeKept State.QueueInv where
  apart w h := h.apart w rfl
  offer r other h := h.offer r other
  openingCut st h := h.apart (openingCut_within ..) rfl
  noteCut k st h := h.apart (noteCut_within ..) rfl
  closeShift {s} h := by
    unfold State.closeShift
    split
    · next c _ _ _ =>
      have noted : ∀ sh, State.QueueInv { s with sh := sh } := fun _ => h.of_same ⟨rfl, rfl, fun _ => rfl, fun _ => Nat.le_refl _⟩
      exact State.QueueInv.of_same (s := State.offer (shiftClosedRecord c) { s with sh := _ })
        (State.QueueInv.offer (noted _) _ rfl) ⟨rfl, rfl, fun ch => rfl, fun _ => Nat.le_refl _⟩
    · exact h
  cascadeOpened u h := h.failAttempt ..
  countTrip g load h := h.apart (countTrip_within ..) rfl
  attributeCascade g ch st load h := h.apart (attributeCascade_within ..) rfl

theorem queueInv_quietKept : QuietKept State.QueueInv := fun w _ h => h.apart w rfl

theorem State.QueueInv.setMode (h : s.QueueInv) (m : TbMode) (a : Option Ref) (c : TbCause) : (s.setMode m a c).QueueInv := by
  unfold State.setMode
  split
  · exact h
  · exact State.QueueInv.offer (h.apart ((dropSetting_within ..).and (onDl_within ..)) rfl) _ rfl

theorem State.QueueInv.follow (h : s.QueueInv) (r : Ref) (m : TbMode) (b : Int) (c : TbCause) : (s.follow r m b c).QueueInv := by
  refine State.QueueInv.setMode ?_ ..
  exact h.of_same ⟨rfl, rfl, fun _ => rfl, fun _ => Nat.le_refl _⟩

theorem State.QueueInv.confirmStep (h : s.QueueInv) (r : Ref) (w e : Int) : (s.confirmStep r w e).QueueInv := by
  have same : ∀ {t : State}, t.eq = s.eq → t.cm = s.cm → t.QueueInv := fun eq cm =>
    h.of_same ⟨by rw [eq], by rw [eq], fun ch => by rw [cm], fun ch => by rw [cm]⟩
  unfold State.confirmStep
  dsimp only
  split
  · exact same rfl rfl
  · cases found : s.dl.search <;> exact same rfl rfl

theorem queueInv_loopKept : LoopKept State.QueueInv where
  apart w h := h.apart w rfl
  link _ h := h.apart (onMl_within ..) rfl
  offer r other h := h.offer r other
  follow r m b c _ h := h.follow r m b c
  switchTo r c _ h := h.follow ..
  followNone c h := State.QueueInv.apart (h.setMode ..) (writeTrim_within ..) rfl
  lock _ h := h.setMode ..
  startSearch r h := h.of_same ⟨rfl, rfl, fun _ => rfl, fun _ => Nat.le_refl _⟩
  restore x _ h := h.apart ((onDl_within ..).and (writeTrim_within ..)) rfl
  history l h := h.apart (onDl_within ..) rfl
  confirmStep r w e h := h.confirmStep r w e
  badSecond h := h.apart (onDl_within ..) rfl
  measure x st _ h := h.apart (onDl_within ..) rfl
  found x d _ h := h.apart ((onDl_within ..).and (writeTrim_within ..)) rfl
  nextInterval x d _ h := h.apart ((onDl_within ..).and (writeTrim_within ..)) rfl
  compute x h := h.apart ((onDl_within ..).and (writeTrim_within ..)) rfl

/-! ### The release round -/

/-- A turn moves the head of a pending store to the queue: the channel's unsent records stay in their order (R97). -/
theorem State.QueueHeld.afterTurn (h : s.QueueHeld) : s.afterTurn.QueueHeld := by
  cases chosen : releaseChoice s with
  | none => rw [afterTurn_of_none chosen]; exact h
  | some p =>
    obtain ⟨ch, r⟩ := p
    obtain ⟨head, takes, sameClass⟩ := releasable_eq_some.mp (releasable_of_choice chosen)
    obtain ⟨l, store⟩ : ∃ l, s.cm[ch].store = r :: l := List.head?_eq_some_iff.mp head
    rw [afterTurn_of_choice chosen]
    have mine : ((s.enqueue r).onChannel ch fun x => { x with store := x.store.tail }).cm[ch] =
        { s.cm[ch] with store := s.cm[ch].store.tail } := modifyAt_self ..
    have few := h.stores ch
    have own := h.own ch
    have ordered := h.ordered ch
    have floors := h.floors ch
    unfold State.unsent at ordered floors
    rw [store] at few own ordered floors
    refine queueHeld_of_admitted h (l := l) (own r (.head _)).1 (own r (.head _)).2 takes sameClass rfl ?_
      (fun x ne => modifyAt_other _ _ _ _ (Ne.symm ne)) (by simp at few; omega) (fun q hq => own q (.tail _ hq)) ordered
      (fun q hq => ?_)
    · rw [mine, store]; rfl
    · rw [mine]; exact floors q hq

theorem State.QueueHeld.releaseRound (h : s.QueueHeld) : s.releaseRound.QueueInv :=
  (releaseRound_keeps (fun _ g => g.afterTurn) h).inv (releaseChoice_eq_none.mp (releaseRound_done s))

/-- A record that leaves the queue leaves the others in their order (R96). -/
theorem State.QueueHeld.leave (h : s.QueueHeld) (r : EventRecord) : (s.leave r).QueueInv := by
  refine State.QueueHeld.releaseRound ?_
  have sub : (s.eq.records.erase r).Sublist s.eq.records := List.erase_sublist
  have mine : ∀ ch, (recordsOf ch (s.eq.records.erase r)).Sublist (recordsOf ch s.eq.records) := fun ch => sub.filter _
  have unsent : ∀ ch, (recordsOf ch (s.eq.records.erase r) ++ s.cm[ch].store).Sublist (s.unsent ch) := fun ch =>
    (mine ch).append_right _
  exact ⟨sub.length_le.trans h.fill, h.seq, h.stores, h.own,
    fun ch q hq p hp => h.oneClass ch q ((mine ch).mem hq) p ((mine ch).mem hp),
    fun ch => (h.ordered ch).sublist (unsent ch), fun ch q hq => h.floors ch q ((unsent ch).mem hq)⟩

theorem State.QueueInv.upwardEnd (h : s.QueueInv) : s.upwardEnd.QueueInv := by
  have same : ∀ {t : State}, t.eq = s.eq → t.cm = s.cm → t.QueueInv := fun eq cm =>
    h.of_same ⟨by rw [eq], by rw [eq], fun ch => by rw [cm], fun ch => by rw [cm]⟩
  have counted : ∀ t : State, t.eq = s.eq → t.cm = s.cm → t.recordFrameEnds.QueueInv := fun t eq cm => by
    unfold State.recordFrameEnds
    dsimp only
    split
    · split
      · refine State.QueueHeld.leave (State.QueueInv.held ?_) _
        exact same eq cm
      · exact same eq cm
    · exact same eq cm
  unfold State.upwardEnd
  split
  · exact h
  · split
    · exact h
    · unfold State.endUpward
      dsimp only
      split
      · exact counted _ rfl rfl
      · exact same rfl rfl
      · exact same rfl rfl

/-! ### Restarts -/

theorem State.QueueInv.emptied (h : s.QueueInv) (ch : Chan) {f : Channel → Channel} (store : (f s.cm[ch]).store = [])
    (floor : s.cm[ch].floor ≤ (f s.cm[ch]).floor) : (s.onChannel ch f).QueueInv := by
  have cm : ∀ x ≠ ch, (s.onChannel ch f).cm[x] = s.cm[x] := fun x ne => modifyAt_other _ _ _ _ (Ne.symm ne)
  have mine : (s.onChannel ch f).cm[ch] = f s.cm[ch] := modifyAt_self ..
  have unsent : ∀ x, ((s.onChannel ch f).unsent x).Sublist (s.unsent x) := fun x => by
    unfold State.unsent
    by_cases e : x = ch
    · subst e
      rw [mine, store, List.append_nil]
      exact List.sublist_append_left ..
    · rw [cm x e]; exact List.Sublist.refl _
  refine ⟨h.fill, h.seq, fun x => ?_, fun x => ?_, h.oneClass, fun x => (h.ordered x).sublist (unsent x), fun x q hq => ?_,
    fun x => ?_⟩
  · by_cases e : x = ch
    · subst e; rw [mine, store]; exact Nat.zero_le _
    · rw [cm x e]; exact h.stores x
  · by_cases e : x = ch
    · subst e; rw [mine, store]; exact nofun
    · rw [cm x e]; exact h.own x
  · have below := h.floors x q ((unsent x).mem hq)
    by_cases e : x = ch
    · subst e; rw [mine]; exact below.trans floor
    · rw [cm x e]; exact below
  · by_cases e : x = ch
    · subst e; rw [releasable_eq_none, mine, store]; exact nofun
    · exact (releasable_congr (s := s) (congrArg Channel.store (cm x e)) rfl).trans (h.waiting x)

theorem State.QueueInv.restartChannel (h : s.QueueInv) (ch : Chan) (source : Option UnitNo) :
    (s.restartChannel ch source).QueueInv := by
  have discarded : (s.cm[ch].store.foldl State.discardEntry s).QueueInv := foldl_keeps (P := State.QueueInv) (fun _ r g => g.lose ..) _ h
  have restarted := discarded.emptied ch (f := Channel.restart) rfl (Nat.le_refl _)
  unfold State.restartChannel
  dsimp only
  split
  · exact restarted.eventChange _ _
  · exact restarted

theorem State.QueueInv.restartChannels (h : s.QueueInv) (cm : Vector Channel 24) (l : List Chan) :
    (s.restartChannels cm l).QueueInv :=
  foldl_keeps (fun _ _ h => h.restartChannel _ _) l h

theorem State.QueueInv.writeEntries (h : s.QueueInv) (l : List Chan) (e : ChannelEntry) : (s.writeEntries l e).QueueInv := by
  have written : (l.foldl (fun t ch => t.onChannel ch fun x => { x with entry := e }) s).QueueInv :=
    foldl_keeps (P := State.QueueInv) (fun _ ch g => g.then_onChannel ch (f := fun x => { x with entry := e }) fun _ => ⟨rfl, rfl⟩) l h
  refine foldl_keeps (fun t u h => ?_) _ (written.restartChannels s.cm l)
  split
  · exact h
  · exact h.eventChange _ _

/-- With nothing in the queue and in the pending stores the invariant holds. -/
theorem queueInv_of_empty (records : s.eq.records = []) (seq : s.eq.seq = 0) (store : ∀ ch : Chan, s.cm[ch].store = []) :
    s.QueueInv := by
  have unsent : ∀ ch, s.unsent ch = [] := fun ch => by unfold State.unsent; rw [records, store]; rfl
  refine ⟨?_, ?_, fun ch => ?_, fun ch => ?_, fun ch => ?_, fun ch => ?_, fun ch => ?_, fun ch => ?_⟩
  · rw [records]; exact Nat.zero_le _
  · rw [seq]; exact Nat.zero_lt_succ _
  · rw [store]; exact Nat.zero_le _
  · rw [store]; exact nofun
  · rw [records]; exact nofun
  · rw [unsent]; exact .nil
  · rw [unsent]; exact nofun
  · rw [releasable_eq_none, store]; exact nofun

theorem queueInv_reset (q : List Instr) (held : Bool) :
    State.QueueInv { State.reset with inReset := held, pending := q } :=
  queueInv_of_empty rfl rfl fun ch => by
    show (Vector.replicate 24 Channel.reset)[ch].store = []
    simp only [Fin.getElem_fin, Vector.getElem_replicate]
    rfl

theorem queueInv_clearLinks (s : State) : s.clearLinks.QueueInv :=
  queueInv_of_empty rfl rfl fun ch => by
    show (s.cm.map Channel.warmRestart)[ch].store = []
    simp only [Fin.getElem_fin, Vector.getElem_map]
    rfl

/-! ### The commands -/

theorem State.QueueInv.after (c : Instr) (h : s.QueueInv) : (s.after c).QueueInv := by
  have k := queueInv_cascadeKept
  cases handover : isHandoverCommand c with
  | true => exact k.after handover h
  | false =>
    cases loop : isLoopCommand c with
    | true => exact queueInv_loopKept.after loop h
    | false =>
      cases c
      case powerOnReset cause => exact powerOn_keeps (fun held => queueInv_reset _ held) h cause
      case localSecondBoundary => exact k.secondBoundary queueInv_quietKept h
      case stepApplication => exact k.stepApplies queueInv_quietKept h
      case upwardFrameEnd => exact h.upwardEnd
      case downlinkFrameStart =>
        show s.downlinkStart.QueueInv
        unfold State.downlinkStart State.startDownlink State.readDown
        have slot : ∀ f g, ((s.onUbi f).onHc g).QueueInv := fun f g => h.of_same ⟨rfl, rfl, fun _ => rfl, fun _ => Nat.le_refl _⟩
        split
        · split
          · exact queueInv_loopKept.readStore .down (slot _ _)
          · exact slot _ _
        · exact h
      case look u o =>
        refine k.look u o (fun t g => ?_) (fun t g => queueInv_loopKept.writeStore .up _ g) h
        exact k.takeHandOns _ _ (fun _ x _ g => g.handToTally x) (g.allLooks _)
      case quietDeadline ch =>
        show (s.quietDeadline ch).QueueInv
        unfold State.quietDeadline
        split
        · exact h
        · split
          · exact h.endChatter ..
          · exact h
      case cascadeClose g => exact k.cascadeCloses g h
      case startTimeout u =>
        show (s.startTimeout u).QueueInv
        unfold State.startTimeout
        split
        · exact h
        · split
          · exact h.failAttempt ..
          · exact h
      case writeChannel =>
        refine k.request _ (fun req => withLength_fst 13 req h ?_) h
        unfold writeChannel
        dsimp only
        split
        · exact h
        · split
          · exact h.writeEntries _ _
          · exact h
      case restartChannel =>
        refine k.request _ (fun req => withLength_fst 5 req h ?_) h
        unfold Machine.restartChannel
        dsimp only
        split
        · exact h.restartChannels _ _
        · exact h
      case writeUnit =>
        refine k.request _ (fun req => withLength_fst 21 req h ?_) h
        unfold Machine.writeUnit
        split
        · exact State.QueueInv.eventChange (h.apart (onUnit_within ..) rfl) _ _
        · exact h
      case warmRestartActs =>
        show s.restartActs.QueueInv
        unfold State.restartActs
        split
        · have looped : s.clearLinks.restartLoop.QueueInv :=
            State.QueueInv.apart (queueInv_loopKept.endSearch (queueInv_clearLinks s)) (onDl_within ..) rfl
          exact k.restartCascades (foldl_keeps (fun _ _ h => h.eventChange _ _) _ looped)
        · exact h
      all_goals first | exact queueInv_dependsOn.after rfl h | (cases loop; done) | cases handover

/-- Settles O5: a channel's record is stamped no earlier than its floor, which no unsent record of the channel exceeds, and
goes behind them; a release round takes heads of pending stores until none can be taken. -/
theorem queueOrderKept : Obligations.QueueOrderKept := by
  unfold Obligations.QueueOrderKept
  exact fun s t => queueInv_dependsOn.step rfl fun c _ => .after c

end Sys2Proof.Machine
end

/-! The operations of the Channel Monitor, of the Event Queue and of the Tally Unit keep every property that their parts keep:
for properties that a channel's items and the queue's contents do not matter to. -/

section
namespace Sys2Proof.Machine

/-- The parts that the channel and unit commands are made of keep a property. -/
structure RecordKept (P : State → Prop) : Prop where
  apart : ∀ {s t : State}, Within [.cm, .ra, .sli, .eq] s t → P s → P t
  link : ∀ {s : State} {f : MgmtLink → MgmtLink}, (∀ m, (f m).params.scheduleMode = m.params.scheduleMode) → P s →
    P (s.onMl f)
  count : ∀ {s : State} {f : Header → Header}, (∀ h, (f h).start = h.start) → P s → P (s.countCurrent f)
  failAttempt : ∀ {s : State} (u : UnitNo) (r : FailReason) (old new : UnitMode) (st : Stamp), P s →
    P (s.failAttempt u r old new st)
  eventChange : ∀ {s : State} (u : UnitNo) (m : UnitMode), P s → P (s.eventChange u m)

theorem countAdmission_start (c : RecClass) (h : Header) : (Header.countAdmission c h).start = h.start := by cases c <;> rfl

theorem countLoss_start (c : RecClass) (n : Nat) (h : Header) : (Header.countLoss c n h).start = h.start := by cases c <;> rfl

namespace RecordKept

variable {P : State → Prop} {s : State}

theorem onChannel (k : RecordKept P) (ch : Chan) (f : Channel → Channel) (h : P s) : P (s.onChannel ch f) :=
  k.apart ((onChannel_within ch f s).mono (by decide)) h

theorem setEq (k : RecordKept P) (q : EventQueue) (h : P s) : P { s with eq := q } :=
  k.apart ⟨fun b hb => by cases b <;> first | exact absurd (by decide) hb | rfl⟩ h

theorem enqueue (k : RecordKept P) (r : EventRecord) (h : P s) : P (s.enqueue r) :=
  k.count (countAdmission_start _) (k.setEq _ h)

theorem lose (k : RecordKept P) (c : RecClass) (n : Nat) (h : P s) : P (s.lose c n) :=
  k.count (countLoss_start c n) (k.setEq _ h)

theorem offer (k : RecordKept P) (r : EventRecord) (h : P s) : P (s.offer r) := by
  rcases offer_cases r s with ⟨-, e⟩ | ⟨-, e⟩ <;> rw [e]
  · exact k.enqueue r h
  · exact k.lose _ _ h

theorem channelRecord (k : RecordKept P) (ch : Chan) (kind : RecKind) (cls : RecClass) (i : Bool) (old new : Option Code)
    (aux stamp : Nat) (v : StationVals) (h : P s) : P (s.channelRecord ch kind cls i old new aux stamp v) := by
  unfold State.channelRecord State.offerChannel
  dsimp only
  split
  · exact k.enqueue _ (k.onChannel ch _ h)
  · exact k.onChannel ch _ (k.onChannel ch _ h)

theorem endChatter (k : RecordKept P) (ch : Chan) (c : Chatter) (new : Option Code) (h : P s) : P (s.endChatter ch c new) :=
  k.onChannel ch _ (k.channelRecord ch _ _ _ _ _ _ _ _ h)

theorem recordChange (k : RecordKept P) (ch : Chan) (c : Change) (h : P s) : P (s.recordChange ch c) := by
  unfold State.recordChange
  dsimp only
  split
  · exact k.onChannel ch _ h
  · split
    · exact k.onChannel ch _ (k.channelRecord ch _ _ _ _ _ _ _ _ h)
    · exact k.onChannel ch _ (k.channelRecord ch _ _ _ _ _ _ _ _ h)

theorem validate (k : RecordKept P) (ch : Chan) (x : Candidate) (h : P s) : P (s.validate ch x).1 := by
  unfold State.validate
  dsimp only
  split
  · exact k.channelRecord ch _ _ _ _ _ _ _ _ (k.onChannel ch _ h)
  · exact k.channelRecord ch _ _ _ _ _ _ _ _ (k.onChannel ch _ h)
  · exact k.recordChange ch _ (k.onChannel ch _ h)

theorem loseChannel (k : RecordKept P) (ch : Chan) (r : RunStart) (h : P s) : P (s.loseChannel ch r).1 := by
  unfold State.loseChannel
  dsimp only
  refine k.channelRecord ch _ _ _ _ _ _ _ _ (k.onChannel ch _ ?_)
  split
  · exact k.endChatter ch _ _ h
  · exact h

theorem channelLook (k : RecordKept P) (ch : Chan) (o : Octet) (h : P s) : P (s.channelLook ch o).1 := by
  have noted := k.onChannel ch (fun y => { y with rawLast := some o }) h
  unfold State.channelLook State.noDeviceLook State.codeLook
  dsimp only
  split
  · split
    · split
      · exact k.loseChannel ch _ (k.onChannel ch _ noted)
      · exact k.onChannel ch _ noted
    · split
      · split
        · exact k.onChannel ch _ noted
        · exact k.onChannel ch _ (k.onChannel ch _ noted)
      · split
        · exact k.validate ch _ (k.onChannel ch _ noted)
        · exact k.onChannel ch _ (k.onChannel ch _ noted)
  · exact noted

theorem allLooks (k : RecordKept P) (status : Vector Octet 24) (h : P s) : P (s.allLooks status).1 := by
  unfold State.allLooks
  generalize allChannels = chs
  suffices ∀ p : State × List HandOn, P p.1 → P (chs.foldl (fun (p : State × List HandOn) ch =>
      let q := p.1.channelLook ch status[ch]; (q.1, p.2 ++ q.2)) p).1 from this (s, []) h
  induction chs with
  | nil => exact fun _ g => g
  | cons ch chs ih => exact fun p g => ih _ (k.channelLook ch _ g)

theorem handToTally (k : RecordKept P) (x : HandOn)
    (change : ∀ c u, x = .change c → P (s.sourceChange u c.stamp c.vals)) (h : P s) : P (s.handToTally x) := by
  unfold State.handToTally
  split
  · split
    · exact change _ _ rfl
    · exact h
  · split
    · exact k.eventChange _ _ h
    · exact h

theorem quietDeadline (k : RecordKept P) (ch : Chan) (h : P s) : P (s.quietDeadline ch) := by
  unfold State.quietDeadline
  split
  · exact h
  · split
    · exact k.endChatter ch _ _ h
    · exact h

theorem startTimeout (k : RecordKept P) (u : UnitNo) (h : P s) : P (s.startTimeout u) := by
  unfold State.startTimeout
  split
  · exact h
  · split
    · exact k.failAttempt _ _ _ _ _ h
    · exact h

theorem restartChannel (k : RecordKept P) (ch : Chan) (source : Option UnitNo) (h : P s) : P (s.restartChannel ch source) := by
  have restarted : P ((s.cm[ch].store.foldl State.discardEntry s).onChannel ch Channel.restart) :=
    k.onChannel ch _ (foldl_keeps (fun _ _ g => k.lose _ _ g) _ h)
  unfold State.restartChannel
  dsimp only
  split
  · exact k.eventChange _ _ restarted
  · exact restarted

theorem restartChannels (k : RecordKept P) (cm : Vector Channel 24) (l : List Chan) (h : P s) : P (s.restartChannels cm l) :=
  foldl_keeps (fun _ _ g => k.restartChannel _ _ g) l h

theorem writeEntries (k : RecordKept P) (l : List Chan) (e : ChannelEntry) (h : P s) : P (s.writeEntries l e) := by
  refine foldl_keeps (fun t u g => ?_) _
    (k.restartChannels s.cm l (foldl_keeps (fun _ ch g => k.onChannel ch (fun x => { x with entry := e }) g) l h))
  split
  · exact g
  · exact k.eventChange _ _ g

theorem afterTurn (k : RecordKept P) (h : P s) : P s.afterTurn := by
  cases chosen : releaseChoice s with
  | none => rw [afterTurn_of_none chosen]; exact h
  | some p => rw [afterTurn_of_choice chosen]; exact k.onChannel _ _ (k.enqueue _ h)

theorem upwardEnd (k : RecordKept P) (h : P s) : P s.upwardEnd := by
  have sli : ∀ f, P (s.onSli f) := fun f => k.apart ((onSli_within f s).mono (by decide)) h
  have ra : ∀ {t : State} f, P t → P (t.onRa f) := fun f g => k.apart ((onRa_within f _).mono (by decide)) g
  unfold State.upwardEnd
  split
  · exact h
  · split
    · exact h
    · unfold State.endUpward State.recordFrameEnds
      dsimp only
      split
      · split
        · split
          · exact releaseRound_keeps (fun _ g => k.afterTurn g) (k.setEq _ (ra _ (ra _ (sli _))))
          · exact ra _ (sli _)
        · exact ra _ (sli _)
      · exact ra _ (sli _)
      · exact sli _

theorem restartUnits (k : RecordKept P) (h : P s) : P s.restartUnits :=
  foldl_keeps (fun _ _ g => k.eventChange _ _ g) _ h

theorem request (k : RecordKept P) (mine : List Octet → Bool) {act : List Octet → State → Executed}
    (keeps : ∀ req, P (act req s).1) (h : P s) : P (s.runRequest mine act) :=
  runRequest_keeps mine (fun _ _ _ _ g => k.link (fun _ => rfl) g) h keeps

end RecordKept

/-- The commands made of these operations alone. -/
def isRecordCommand : Instr → Bool
  | .upwardFrameEnd | .quietDeadline _ | .startTimeout _ | .writeChannel | .restartChannel => true
  | _ => false

theorem RecordKept.after {P : State → Prop} (k : RecordKept P) {c : Instr} (made : isRecordCommand c = true) {s : State}
    (h : P s) : P (s.after c) := by
  cases c
  case upwardFrameEnd => exact k.upwardEnd h
  case quietDeadline ch => exact k.quietDeadline ch h
  case startTimeout u => exact k.startTimeout u h
  case writeChannel =>
    refine k.request _ (fun req => withLength_fst 13 req h ?_) h
    unfold writeChannel
    dsimp only
    split
    · exact h
    · split
      · exact k.writeEntries _ _ h
      · exact h
  case restartChannel =>
    refine k.request _ (fun req => withLength_fst 5 req h ?_) h
    unfold Machine.restartChannel
    dsimp only
    split
    · exact k.restartChannels _ _ h
    · exact h
  all_goals cases made

end Sys2Proof.Machine
end

/-! The items of the handover states and the one duty console (R145, R146, R150 to R154). -/

section
namespace Sys2Proof.Machine

variable {s t : State}

/-! ### The downlink queue -/

theorem Handover.flush_length (e : Nat) (h : Handover) : (h.flush e).queue.length ≤ h.queue.length := by
  unfold Handover.flush
  split
  · split
    · simp
    · exact Nat.le_refl _
  · exact Nat.le_refl _

theorem dropNotice_length {l r : List DownMsg} (h : dropNotice l = some r) : r.length + 1 = l.length := by
  induction l generalizing r with
  | nil => cases h
  | cons m l ih =>
    unfold dropNotice at h
    split at h
    · obtain rfl := Option.some.inj h; rfl
    · obtain ⟨q, dropped, rfl⟩ := Option.map_eq_some_iff.mp h
      simp [ih dropped]

/-- The queue never holds more than four messages (R145). -/
theorem Handover.enqueue_length (e : Nat) (m : DownMsg) {h : Handover} (few : h.queue.length ≤ 4) :
    (h.enqueue e m).queue.length ≤ 4 := by
  have flushed := (h.flush_length e).trans few
  unfold Handover.enqueue
  dsimp only
  split
  · next room => simpa using room
  · split
    · next r dropped =>
      have one := dropNotice_length dropped
      simp only [List.length_append, List.length_take, List.length_drop, List.length_cons, List.length_nil] at one ⊢
      omega
    · exact flushed

theorem notice_length (few : s.hc.queue.length ≤ 4) : s.notice.hc.queue.length ≤ 4 := Handover.enqueue_length _ _ few

theorem answer_length (k : DownKind) (m : ConsoleMsg) (few : s.hc.queue.length ≤ 4) :
    (s.answer k m).hc.queue.length ≤ 4 :=
  Handover.enqueue_length _ _ few

theorem announce_length (o : HState) (c : HCause) (k : RecClass) (n : Nat) (few : s.hc.queue.length ≤ 4) :
    (s.announce o c k n).hc.queue.length ≤ 4 :=
  notice_length (by simpa using few)

/-! ### What the invariant needs of a state -/

/-- The items that the invariant speaks of are the same, and the queue holds at most four messages. -/
structure SameDuty (s t : State) : Prop where
  mode : t.ml.params.scheduleMode = s.ml.params.scheduleMode
  cut : t.sh.cut = s.sh.cut
  closing : t.sh.closing.isSome = s.sh.closing.isSome
  current : t.sh.current.isSome = s.sh.current.isSome
  incident : t.ct.incident = s.ct.incident
  state : t.hc.state = s.hc.state
  timer : t.hc.timer = s.hc.timer
  resume : t.hc.resume = s.hc.resume
  heldSince : t.hc.heldSince = s.hc.heldSince
  settleEnd : t.hc.settleEnd = s.hc.settleEnd
  deferred : t.hc.deferred.isSome = s.hc.deferred.isSome
  shiftOpen : t.hc.shiftOpen = s.hc.shiftOpen
  duty : t.hc.duty = s.hc.duty
  incoming : t.hc.incoming = s.hc.incoming
  queue : t.hc.queue.length ≤ 4

theorem consolesFit_congr {m : SchedMode} {k : Option CloseKind} {g h : Handover} (state : h.state = g.state)
    (resume : h.resume = g.resume) (shiftOpen : h.shiftOpen = g.shiftOpen) (duty : h.duty = g.duty)
    (incoming : h.incoming = g.incoming) (fit : consolesFit m k g) : consolesFit m k h := by
  unfold consolesFit at *
  rw [state, resume, shiftOpen, duty, incoming]
  exact fit

theorem State.HandoverInv.of_same (h : s.HandoverInv) (e : SameDuty s t) : t.HandoverInv where
  consoles := by
    rw [e.mode, e.cut]
    exact consolesFit_congr e.state e.resume e.shiftOpen e.duty e.incoming h.consoles
  distinct := by rw [e.duty, e.incoming]; exact h.distinct
  timer := by rw [e.state, e.timer]; exact h.timer
  resume := by rw [e.state, e.resume]; exact h.resume
  heldSince := by rw [e.state, e.heldSince]; exact h.heldSince
  settleEnd := by rw [e.state, e.settleEnd]; exact h.settleEnd
  cut := by rw [e.state, e.cut]; exact h.cut
  closing := by rw [e.state, e.closing]; exact h.closing
  deferred := by rw [e.state, e.deferred]; exact h.deferred
  opened := by rw [e.state, e.shiftOpen]; exact h.opened
  header := by rw [e.current, e.shiftOpen]; exact h.header
  incident := by rw [e.state, e.incident]; exact h.incident
  held := by rw [e.state, e.incident]; exact h.held
  queue := e.queue

theorem SameDuty.refl (few : s.hc.queue.length ≤ 4) : SameDuty s s :=
  ⟨rfl, rfl, rfl, rfl, rfl, rfl, rfl, rfl, rfl, rfl, rfl, rfl, rfl, rfl, few⟩

theorem SameDuty.trans {u : State} (h : SameDuty s t) (g : SameDuty t u) : SameDuty s u :=
  ⟨g.mode.trans h.mode, g.cut.trans h.cut, g.closing.trans h.closing, g.current.trans h.current, g.incident.trans h.incident,
    g.state.trans h.state, g.timer.trans h.timer, g.resume.trans h.resume, g.heldSince.trans h.heldSince,
    g.settleEnd.trans h.settleEnd, g.deferred.trans h.deferred, g.shiftOpen.trans h.shiftOpen, g.duty.trans h.duty,
    g.incoming.trans h.incoming, g.queue⟩

/-- Blocks that the invariant does not speak of. -/
theorem SameDuty.of_within {l : List Block} (w : Within l s t)
    (apart : (([.ml, .sh, .ct, .hc] : List Block).all fun b => !l.contains b) = true) (few : s.hc.queue.length ≤ 4) :
    SameDuty s t := by
  have ⟨ml, sh, ct, hc⟩ : t.ml = s.ml ∧ t.sh = s.sh ∧ t.ct = s.ct ∧ t.hc = s.hc := by
    simp only [List.all_cons, List.all_nil, Bool.and_true, Bool.and_eq_true, Bool.not_eq_true', List.contains_eq_mem,
      decide_eq_false_iff_not] at apart
    obtain ⟨ml, sh, ct, hc⟩ := apart
    exact ⟨w.out .ml ml, w.out .sh sh, w.out .ct ct, w.out .hc hc⟩
  constructor <;> simp only [ml, sh, ct, hc, few]

theorem SameDuty.count (f : Header → Header) (few : s.hc.queue.length ≤ 4) : SameDuty s (s.countCurrent f) :=
  ⟨rfl, rfl, rfl, by simp [State.countCurrent], rfl, rfl, rfl, rfl, rfl, rfl, rfl, rfl, rfl, rfl, few⟩

theorem SameDuty.offer (r : EventRecord) (few : s.hc.queue.length ≤ 4) : SameDuty s (s.offer r) := by
  have current : (s.offer r).sh.current.isSome = s.sh.current.isSome := by
    obtain ⟨f, e, -⟩ := s.offer_sh_current r
    rw [e, Option.isSome_map]
  refine ⟨?_, ?_, ?_, current, ?_, ?_, ?_, ?_, ?_, ?_, ?_, ?_, ?_, ?_, ?_⟩ <;> simp [few]

theorem SameDuty.answer (k : DownKind) (m : ConsoleMsg) (few : s.hc.queue.length ≤ 4) : SameDuty s (s.answer k m) := by
  have length := answer_length k m few
  have hc := s.answer_hc k m
  constructor <;> first | exact length | rfl | rw [hc]

theorem SameDuty.notice (few : s.hc.queue.length ≤ 4) : SameDuty s s.notice := by
  have length := notice_length few
  have hc := s.notice_hc
  constructor <;> first | exact length | rfl | rw [hc]

theorem SameDuty.announce (o : HState) (c : HCause) (k : RecClass) (n : Nat) (few : s.hc.queue.length ≤ 4) :
    SameDuty s (s.announce o c k n) :=
  have offered := SameDuty.offer (mkRecord .handover k n (hStateCode o) (hStateCode s.hc.state) (hCauseCode c) s.tb.now) few
  offered.trans (.notice offered.queue)

theorem State.HandoverInv.announce (h : s.HandoverInv) (o : HState) (c : HCause) (k : RecClass) (n : Nat) :
    (s.announce o c k n).HandoverInv :=
  h.of_same (.announce o c k n h.queue)

theorem State.HandoverInv.answer (h : s.HandoverInv) (k : DownKind) (m : ConsoleMsg) : (s.answer k m).HandoverInv :=
  h.of_same (.answer k m h.queue)

/-- Changes of the handover's other items. -/
theorem State.HandoverInv.onHc (h : s.HandoverInv) {f : Handover → Handover} (same : SameDuty s (s.onHc f)) :
    (s.onHc f).HandoverInv :=
  h.of_same same

/-! ### The items of the states other than HELD and SETTLING, and the entry to each kind of state -/

/-- No item of HELD or SETTLING is present. -/
structure State.Plain (s : State) : Prop where
  resume : s.hc.resume = .none
  heldSince : s.hc.heldSince = none
  settleEnd : s.hc.settleEnd = none
  cut : s.sh.cut = none
  closing : s.sh.closing = none
  deferred : s.hc.deferred = none

theorem State.HandoverInv.plain (h : s.HandoverInv) (notHeld : s.hc.state ≠ .held) (notSettling : s.hc.state ≠ .settling) :
    s.Plain where
  resume := h.resume.mpr notHeld
  heldSince := by simpa [beq_eq_false_iff_ne.mpr notHeld] using h.heldSince
  settleEnd := by simpa [beq_eq_false_iff_ne.mpr notSettling] using h.settleEnd
  cut := by simpa [beq_eq_false_iff_ne.mpr notSettling] using h.cut
  closing := by simpa [beq_eq_false_iff_ne.mpr notSettling] using h.closing
  deferred := by
    cases e : s.hc.deferred with
    | none => rfl
    | some b => exact absurd (h.deferred (by rw [e]; rfl)) notSettling

theorem handoverInv_of_plain (p : s.Plain) (notHeld : s.hc.state ≠ .held) (notSettling : s.hc.state ≠ .settling)
    (consoles : consolesFit s.ml.params.scheduleMode none s.hc) (distinct : ∀ d ∈ s.hc.duty, ∀ i ∈ s.hc.incoming, d ≠ i)
    (timer : HTimer.fits s.hc.state s.hc.timer = true) (opened : s.hc.state ≠ .noDuty → s.hc.shiftOpen = true)
    (header : s.sh.current.isSome = s.hc.shiftOpen)
    (incident : s.ct.incident = true → s.hc.state ≠ .windowOpen ∧ s.hc.state ≠ .accepted ∧ s.hc.state ≠ .overrun)
    (few : s.hc.queue.length ≤ 4) : s.HandoverInv where
  consoles := by rw [p.cut]; exact consoles
  distinct := distinct
  timer := timer
  resume := by simp [p.resume, notHeld]
  heldSince := by simp [p.heldSince, notHeld]
  settleEnd := by simp [p.settleEnd, notSettling]
  cut := by simp [p.cut, notSettling]
  closing := by simp [p.closing, notSettling]
  deferred := by simp [p.deferred]
  opened := opened
  header := header
  incident := incident
  held := fun held => absurd held notHeld
  queue := few

/-- HELD is entered from a state with a shift open while an incident is active (R148, R150). -/
theorem handoverInv_of_held (p : s.Plain) {x : Resume} {r : Nat} {timer : HTimer} (resume : x ≠ .none) (stopped : timer = .none)
    (consoles : consolesFit s.ml.params.scheduleMode none { s.hc with state := .held, resume := x })
    (distinct : ∀ d ∈ s.hc.duty, ∀ i ∈ s.hc.incoming, d ≠ i) (opened : s.hc.shiftOpen = true)
    (header : s.sh.current.isSome = s.hc.shiftOpen) (incident : s.ct.incident = true) (few : s.hc.queue.length ≤ 4) :
    (s.onHc fun h => { h with state := .held, resume := x, timer := timer, heldSince := some r }).HandoverInv where
  consoles := by
    show consolesFit s.ml.params.scheduleMode (s.sh.cut.map CutNoted.kind) _
    rw [p.cut]
    exact consolesFit_congr (g := { s.hc with state := .held, resume := x }) rfl rfl rfl rfl rfl consoles
  distinct := distinct
  timer := by rw [stopped]; rfl
  resume := by simp [resume]
  heldSince := rfl
  settleEnd := by simp [p.settleEnd]
  cut := by simp [p.cut]
  closing := by simp [p.closing]
  deferred := by simp [p.deferred]
  opened := fun _ => opened
  header := header
  incident := fun _ => ⟨nofun, nofun, nofun⟩
  held := fun _ => incident
  queue := few

/-- The consoles that a cut of a kind needs: it hands over to an incoming console, or there is none (R154). -/
def cutFits (mode : SchedMode) (kind : CloseKind) (incoming : Option Console) : Prop :=
  match mode, kind with
  | .console, .normal | .console, .late | .console, .forced => incoming.isSome
  | .console, .unattended => incoming = none
  | .auto, .auto => incoming = none
  | .console, .auto | .auto, _ => False

/-- SETTLING is entered by a cut of an open shift (R154, R161). -/
theorem handoverInv_makeCut {k : CloseKind} {e : Nat} (resume : s.hc.resume = .none) (heldSince : s.hc.heldSince = none)
    (fits : cutFits s.ml.params.scheduleMode k s.hc.incoming) (opened : s.hc.shiftOpen = true)
    (header : s.sh.current.isSome = s.hc.shiftOpen) (few : s.hc.queue.length ≤ 4) : (s.makeCut k e).HandoverInv where
  consoles := by
    show consolesFit s.ml.params.scheduleMode (some k) _
    unfold cutFits at fits
    split at fits <;> simp_all [consolesFit, Handover.cut, State.makeCut, State.noteCut]
  distinct := nofun
  timer := rfl
  resume := by simp [State.makeCut, Handover.cut, State.noteCut, resume]
  heldSince := by simp [State.makeCut, Handover.cut, State.noteCut, heldSince]
  settleEnd := rfl
  cut := rfl
  closing := by simp [State.makeCut, Handover.cut, State.noteCut, header, opened]
  deferred := fun _ => rfl
  opened := fun _ => opened
  header := by simp [State.makeCut, Handover.cut, State.noteCut, opened]
  incident := fun _ => ⟨nofun, nofun, nofun⟩
  held := nofun
  queue := few

theorem handoverInv_takeCut {k : CloseKind} {e : Nat} (c : HCause) (resume : s.hc.resume = .none)
    (heldSince : s.hc.heldSince = none) (fits : cutFits s.ml.params.scheduleMode k s.hc.incoming)
    (opened : s.hc.shiftOpen = true) (header : s.sh.current.isSome = s.hc.shiftOpen) (few : s.hc.queue.length ≤ 4) :
    (s.takeCut k c e).HandoverInv :=
  State.HandoverInv.announce (handoverInv_makeCut resume heldSince fits opened header few) ..

/-! ### The consoles of each state -/

/-- What the consoles are where a reached boundary acts (R146). -/
theorem State.HandoverInv.onShift_console (h : s.HandoverInv) (mode : s.ml.params.scheduleMode = .console)
    (state : s.hc.state = .onShift ∨ s.hc.state = .overrun ∨ s.hc.state = .windowOpen) :
    s.hc.duty.isSome = true ∧ s.hc.incoming = none := by
  have fit := h.consoles
  unfold consolesFit at fit
  rcases state with state | state | state <;> simp only [mode, state] at fit <;> exact fit

theorem State.HandoverInv.noDuty_console (h : s.HandoverInv) (mode : s.ml.params.scheduleMode = .console)
    (state : s.hc.state = .noDuty) : s.hc.duty = none ∧ s.hc.incoming = none := by
  simpa [consolesFit, mode, state] using h.consoles

theorem State.HandoverInv.accepted_console (h : s.HandoverInv) (state : s.hc.state = .accepted) :
    s.ml.params.scheduleMode = .console ∧ s.hc.duty.isSome = true ∧ s.hc.incoming.isSome = true := by
  have fit := h.consoles
  cases mode : s.ml.params.scheduleMode with
  | console => exact ⟨rfl, by simpa [consolesFit, mode, state] using fit⟩
  | auto => simp [consolesFit, mode, state] at fit

theorem State.HandoverInv.onShift_auto (h : s.HandoverInv) (mode : s.ml.params.scheduleMode = .auto)
    (state : s.hc.state = .onShift) : s.hc.duty = none ∧ s.hc.incoming = none := by
  simpa [consolesFit, mode, state] using h.consoles

theorem State.HandoverInv.noDuty_auto (h : s.HandoverInv) (mode : s.ml.params.scheduleMode = .auto)
    (state : s.hc.state = .noDuty) : s.hc.duty = none ∧ s.hc.incoming = none ∧ s.hc.shiftOpen = false := by
  simpa [consolesFit, mode, state] using h.consoles

theorem State.HandoverInv.stopped (h : s.HandoverInv) (state : s.hc.state ≠ .windowOpen ∧ s.hc.state ≠ .accepted) :
    s.hc.timer = .none := by
  have fits := h.timer
  cases e : s.hc.state <;> cases timer : s.hc.timer <;> simp_all [HTimer.fits]

/-! ### A boundary reached (R148, R155) -/

theorem State.HandoverInv.noteBoundary (h : s.HandoverInv) (b : BoundaryId) :
    (s.onHc (Handover.noteBoundary b)).HandoverInv :=
  h.of_same ⟨rfl, rfl, rfl, rfl, rfl, rfl, rfl, rfl, rfl, rfl, rfl, rfl, rfl, rfl, h.queue⟩

theorem State.HandoverInv.openWindow (h : s.HandoverInv) (mode : s.ml.params.scheduleMode = .console)
    (state : s.hc.state = .onShift ∨ s.hc.state = .overrun) (r : Nat) : (s.openWindow r).HandoverInv := by
  have p := h.plain (by rcases state with e | e <;> simp [e]) (by rcases state with e | e <;> simp [e])
  obtain ⟨duty, incoming⟩ := h.onShift_console mode (by tauto)
  have opened := h.opened (by rcases state with e | e <;> simp [e])
  have stopped := h.stopped (by rcases state with e | e <;> simp [e])
  unfold State.openWindow
  dsimp only
  split
  · next active =>
    have held := handoverInv_of_held (x := .windowOpen (s.ml.params.handoverWindow * ticksPerMinute)) (r := r) p nofun stopped
      (by rw [mode]; exact ⟨duty, incoming⟩) h.distinct opened h.header active h.queue
    exact held.announce ..
  · next quiet =>
    have window : (s.onHc fun h =>
        { h with state := .windowOpen, timer := .window (r + s.ml.params.handoverWindow * ticksPerMinute) }).HandoverInv :=
      handoverInv_of_plain ⟨p.resume, p.heldSince, p.settleEnd, p.cut, p.closing, p.deferred⟩ nofun nofun
        (by rw [State.onHc_ml, mode]; exact ⟨duty, incoming⟩) h.distinct rfl (fun _ => opened) h.header
        (fun active => absurd active quiet) h.queue
    exact window.announce ..

theorem State.HandoverInv.cutAtBoundary (h : s.HandoverInv) {k : CloseKind} {x : Resume}
    (state : s.hc.state = .onShift ∨ s.hc.state = .noDuty) (opened : s.hc.shiftOpen = true) (resume : x ≠ .none)
    (fits : cutFits s.ml.params.scheduleMode k s.hc.incoming)
    (consoles : consolesFit s.ml.params.scheduleMode none { s.hc with state := .held, resume := x }) (r : Nat) :
    (s.cutAtBoundary k x r).HandoverInv := by
  have p := h.plain (by rcases state with e | e <;> simp [e]) (by rcases state with e | e <;> simp [e])
  have stopped := h.stopped (by rcases state with e | e <;> simp [e])
  unfold State.cutAtBoundary
  split
  · next active =>
    have held := handoverInv_of_held (r := r) p resume stopped consoles h.distinct opened h.header active h.queue
    exact held.announce ..
  · exact handoverInv_takeCut _ p.resume p.heldSince fits opened h.header h.queue

theorem State.HandoverInv.actBoundary (h : s.HandoverInv) (b : BoundaryId) (r : Nat) : (s.actBoundary b r).HandoverInv := by
  have noted := h.noteBoundary b
  have missed : ∀ n, (s.onHc fun h => (h.noteBoundary b).miss n).HandoverInv := fun n =>
    h.of_same ⟨rfl, rfl, rfl, rfl, rfl, rfl, rfl, rfl, rfl, rfl, rfl, rfl, rfl, rfl, h.queue⟩
  unfold State.actBoundary
  split
  · next state mode =>
    obtain ⟨duty, incoming⟩ := h.noDuty_console mode state
    split
    · next opened =>
      exact noted.cutAtBoundary (k := .unattended) (x := .cutUnattended) (.inr state) opened nofun (by rw [State.onHc_ml, mode]; exact incoming)
        (by rw [State.onHc_ml, mode]; exact ⟨duty, incoming⟩) r
    · exact h
  · exact h
  · next state mode => exact noted.openWindow mode (.inl state) r
  · next state mode =>
    obtain ⟨duty, incoming⟩ := h.onShift_auto mode state
    exact noted.cutAtBoundary (k := .auto) (x := .cutAuto) (.inl state) (h.opened (by rw [state]; nofun)) nofun (by rw [State.onHc_ml, mode]; exact incoming)
      (by rw [State.onHc_ml, mode]; exact ⟨duty, incoming, rfl⟩) r
  · exact missed 1
  · exact missed 1
  · exact missed 1
  · next state mode => exact noted.openWindow mode (.inr state) r
  · exact noted
  · next state =>
    have missing : (fun h : Handover => { (if h.deferred.isSome then h.miss 1 else h).noteBoundary b with deferred := some b }) =
        fun h => { h with missed := if h.deferred.isSome then (h.miss 1).missed else h.missed, boundary := some b,
                          deferred := some b } := by
      funext h
      split <;> rfl
    rw [missing]
    exact ⟨h.consoles, h.distinct, h.timer, h.resume, h.heldSince, h.settleEnd, h.cut, h.closing, fun _ => state, h.opened,
      h.header, h.incident, h.held, h.queue⟩

theorem State.HandoverInv.evaluate (h : s.HandoverInv) : s.evaluate.HandoverInv := by
  unfold State.evaluate
  dsimp only
  split
  · exact h
  · split
    · exact h
    · refine State.HandoverInv.actBoundary ?_ ..
      exact h.of_same ⟨rfl, rfl, rfl, rfl, rfl, rfl, rfl, rfl, rfl, rfl, rfl, rfl, rfl, rfl, h.queue⟩

theorem State.HandoverInv.reseat (h : s.HandoverInv) : s.reseat.HandoverInv :=
  h.of_same ⟨rfl, rfl, rfl, rfl, rfl, rfl, rfl, rfl, rfl, rfl, rfl, rfl, rfl, rfl, h.queue⟩

theorem State.HandoverInv.onLocalTime (h : s.HandoverInv) (b : Bool) : (s.onLocalTime b).HandoverInv := by
  unfold State.onLocalTime
  split
  · exact h
  · split
    · exact h.reseat
    · exact h.evaluate

/-! ### The incident hold (R150, R151) -/

theorem State.HandoverInv.incidentBegins (h : s.HandoverInv) :
    (s.onCt fun c => { c with incident := true }).incidentBegins.HandoverInv := by
  have held : ∀ x : Resume, x ≠ .none → s.hc.state ≠ .held → s.hc.state ≠ .settling → s.hc.state ≠ .noDuty →
      consolesFit s.ml.params.scheduleMode none { s.hc with state := .held, resume := x } →
      ((s.onCt fun c => { c with incident := true }).holdAtIncident x).HandoverInv :=
    fun x resume notHeld notSettling notIdle consoles => by
      obtain ⟨resume', heldSince, settleEnd, cut, closing, deferred⟩ := h.plain notHeld notSettling
      have held := handoverInv_of_held (s := s.onCt fun c => { c with incident := true }) (r := s.tb.e)
        ⟨resume', heldSince, settleEnd, cut, closing, deferred⟩ resume rfl consoles h.distinct (h.opened notIdle) h.header rfl
        h.queue
      exact held.announce ..
  have quiet : (s.hc.state ≠ .windowOpen ∧ s.hc.state ≠ .accepted ∧ s.hc.state ≠ .overrun) →
      (s.onCt fun c => { c with incident := true }).HandoverInv := fun other =>
    ⟨h.consoles, h.distinct, h.timer, h.resume, h.heldSince, h.settleEnd, h.cut, h.closing, h.deferred, h.opened, h.header,
      fun _ => other, fun _ => rfl, h.queue⟩
  have mode : s.hc.state = .windowOpen ∨ s.hc.state = .overrun → s.ml.params.scheduleMode = .console := fun state => by
    have fit := h.consoles
    cases e : s.ml.params.scheduleMode with
    | console => rfl
    | auto => rcases state with state | state <;> simp [consolesFit, e, state] at fit
  unfold State.incidentBegins
  split
  · next state =>
    have state : s.hc.state = .windowOpen := state
    have m := mode (.inl state)
    exact held _ nofun (by simp [state]) (by simp [state]) (by simp [state])
      (by rw [m]; exact h.onShift_console m (by tauto))
  · next state =>
    have state : s.hc.state = .accepted := state
    obtain ⟨m, consoles⟩ := h.accepted_console state
    exact held _ nofun (by simp [state]) (by simp [state]) (by simp [state]) (by rw [m]; exact consoles)
  · next state =>
    have state : s.hc.state = .overrun := state
    have m := mode (.inr state)
    exact held _ nofun (by simp [state]) (by simp [state]) (by simp [state])
      (by rw [m]; exact h.onShift_console m (by tauto))
  all_goals
    next state =>
      have state : s.hc.state = _ := state
      exact quiet (by simp [state])

/-- What the consoles are in HELD, by the resume item (R150). -/
def heldConsoles (mode : SchedMode) (h : Handover) : Resume → Prop
  | .windowOpen _ | .overrun => mode = .console ∧ h.duty.isSome = true ∧ h.incoming = none
  | .accepted _ => mode = .console ∧ h.duty.isSome = true ∧ h.incoming.isSome = true
  | .cutUnattended => cutFits mode .unattended h.incoming
  | .cutAuto => cutFits mode .auto h.incoming
  | .none => False

theorem State.HandoverInv.held_consoles (h : s.HandoverInv) (held : s.hc.state = .held) {x : Resume}
    (resume : s.hc.resume = x) : heldConsoles s.ml.params.scheduleMode s.hc x := by
  have fit := h.consoles
  unfold consolesFit at fit
  cases mode : s.ml.params.scheduleMode <;> cases x <;> simp_all [cutFits, heldConsoles]

/-- HELD resumes the state that it held (R151). -/
theorem State.HandoverInv.resumeTo (h : s.HandoverInv) {c : Cascades} {n : Nat} {x : HState} {y : HTimer}
    (ended : c.incident = false) (held : s.hc.state = .held) (plain : x ≠ .held ∧ x ≠ .settling)
    (consoles : consolesFit s.ml.params.scheduleMode none { s.hc with state := x, resume := .none }) (timer : HTimer.fits x y = true) :
    (((s.onCt fun _ => c).onHc fun h => { h with heldTicks := n, heldSince := none }).resumeTo x y).HandoverInv := by
  have settleEnd := h.settleEnd
  have cut := h.cut
  have closing := h.closing
  have deferred := h.deferred
  have opened := h.opened (by rw [held]; nofun)
  rw [held] at settleEnd cut closing deferred
  have resumed : (((s.onCt fun _ => c).onHc fun h => { h with heldTicks := n, heldSince := none }).onHc fun h =>
      { h with state := x, timer := y, resume := .none }).HandoverInv := by
    refine handoverInv_of_plain ⟨rfl, rfl, ?_, ?_, ?_, ?_⟩ plain.1 plain.2 ?_ h.distinct timer (fun _ => opened) h.header
      (fun active => absurd (ended.symm.trans active) nofun) h.queue
    · exact Option.isSome_eq_false_iff.mp settleEnd |> Option.isNone_iff_eq_none.mp
    · exact Option.isSome_eq_false_iff.mp cut |> Option.isNone_iff_eq_none.mp
    · exact Option.isSome_eq_false_iff.mp closing |> Option.isNone_iff_eq_none.mp
    · cases e : s.hc.deferred with
      | none => exact e
      | some b => exact absurd (deferred (by rw [e]; rfl)) nofun
    · exact consolesFit_congr (g := { s.hc with state := x, resume := .none }) rfl rfl rfl rfl rfl consoles
  exact resumed.announce ..

/-- The end of an incident, with what the Cascade Tracker then holds. -/
theorem State.HandoverInv.incidentEnds (h : s.HandoverInv) {c : Cascades} (ended : c.incident = false) :
    (s.onCt fun _ => c).incidentEnds.HandoverInv := by
  have other : s.hc.state ≠ .held → (s.onCt fun _ => c).HandoverInv := fun notHeld =>
    ⟨h.consoles, h.distinct, h.timer, h.resume, h.heldSince, h.settleEnd, h.cut, h.closing, h.deferred, h.opened, h.header,
      fun active => absurd (ended.symm.trans active) nofun, fun held => absurd held notHeld, h.queue⟩
  unfold State.incidentEnds
  split
  · next held =>
    have held : s.hc.state = .held := held
    have cut : ∀ {k : CloseKind} {n : Nat}, cutFits s.ml.params.scheduleMode k s.hc.incoming →
        ((((s.onCt fun _ => c).onHc fun h => { h with heldTicks := n, heldSince := none }).onHc fun h =>
          { h with resume := .none }).takeCut k .incidentEnd s.tb.e).HandoverInv := fun fits =>
      handoverInv_takeCut _ rfl rfl fits (h.opened (by rw [held]; nofun)) h.header h.queue
    dsimp only
    split
    · next resume =>
      obtain ⟨mode, consoles⟩ := h.held_consoles held resume
      exact h.resumeTo ended held ⟨nofun, nofun⟩ (by rw [mode]; exact consoles) rfl
    · next resume =>
      obtain ⟨mode, consoles⟩ := h.held_consoles held resume
      exact h.resumeTo ended held ⟨nofun, nofun⟩ (by rw [mode]; exact consoles) rfl
    · next resume =>
      obtain ⟨mode, consoles⟩ := h.held_consoles held resume
      exact h.resumeTo ended held ⟨nofun, nofun⟩ (by rw [mode]; exact consoles) rfl
    · next resume => exact cut (h.held_consoles held resume)
    · next resume => exact cut (h.held_consoles held resume)
    · next resume => exact (h.held_consoles held resume).elim
  all_goals
    next state =>
      have state : s.hc.state = _ := state
      exact other (by simp [state])

theorem State.HandoverInv.evalIncident (h : s.HandoverInv) : s.evalIncident.HandoverInv := by
  unfold State.evalIncident
  split
  · exact h.incidentBegins
  · exact h.incidentEnds (c := { s.ct with incident := false, holdEnd := none }) rfl
  · exact h
  · exact h

/-! ### Console messages (R147) -/

theorem State.HandoverInv.enterShift (h : s.HandoverInv) (c : Console) (mode : s.ml.params.scheduleMode = .console)
    (state : s.hc.state = .noDuty) (opened : s.hc.shiftOpen = true) :
    (s.onHc fun h => { h with duty := some c, state := .onShift }).HandoverInv := by
  obtain ⟨resume, heldSince, settleEnd, cut, closing, deferred⟩ := h.plain (by simp [state]) (by simp [state])
  obtain ⟨duty, incoming⟩ := h.noDuty_console mode state
  exact handoverInv_of_plain ⟨resume, heldSince, settleEnd, cut, closing, deferred⟩ nofun nofun
    (by rw [State.onHc_ml, mode]; exact ⟨rfl, incoming⟩)
    (fun _ _ i hi => absurd (show i ∈ s.hc.incoming from hi) (by simp [incoming]))
    (by show HTimer.fits .onShift s.hc.timer = true; rw [h.stopped (by simp [state])]; rfl) (fun _ => opened) h.header
    (fun _ => ⟨nofun, nofun, nofun⟩) h.queue

theorem State.HandoverInv.takeOpeningCut (h : s.HandoverInv) (mode : s.ml.params.scheduleMode = .console)
    (state : s.hc.state = .noDuty) (e : Nat) : (s.takeOpeningCut e).HandoverInv := by
  obtain ⟨resume, heldSince, settleEnd, cut, closing, deferred⟩ := h.plain (by simp [state]) (by simp [state])
  exact handoverInv_of_plain ⟨resume, heldSince, settleEnd, cut, closing, deferred⟩
    (by show s.hc.state ≠ _; simp [state]) (by show s.hc.state ≠ _; simp [state])
    (by show consolesFit s.ml.params.scheduleMode none { s.hc with missed := 0, shiftOpen := true }
        rw [mode]; unfold consolesFit; simpa [state] using h.noDuty_console mode state)
    h.distinct h.timer (fun _ => rfl) rfl h.incident h.queue

theorem State.HandoverInv.takeClaim (h : s.HandoverInv) (m : ConsoleMsg) : (s.takeClaim m).HandoverInv := by
  have answered : ∀ k, (s.answer k m).HandoverInv := fun k => h.answer k m
  unfold State.takeClaim State.refuseAuto State.refuseMsg
  split
  · split <;> exact answered _
  · next mode =>
    split
    · next state =>
      have entered : ((if s.hc.shiftOpen then s else s.takeOpeningCut m.arrival).onHc fun h =>
          { h with duty := some m.console, state := .onShift }).HandoverInv := by
        split
        · next opened => exact h.enterShift _ mode state opened
        · exact (h.takeOpeningCut mode state _).enterShift _ mode state rfl
      exact (entered.answer .confirm m).announce ..
    all_goals exact answered _

theorem State.HandoverInv.acceptFrom (h : s.HandoverInv) (m : ConsoleMsg) (mode : s.ml.params.scheduleMode = .console)
    (state : s.hc.state = .windowOpen ∨ s.hc.state = .overrun) (other : s.hc.duty ≠ some m.console) :
    (s.acceptFrom m).HandoverInv := by
  obtain ⟨resume, heldSince, settleEnd, cut, closing, deferred⟩ :=
    h.plain (by rcases state with e | e <;> simp [e]) (by rcases state with e | e <;> simp [e])
  obtain ⟨duty, -⟩ := h.onShift_console mode (by tauto)
  have quiet : s.ct.incident ≠ true := fun active => by have := h.incident active; tauto
  have accepted : (s.onHc fun h =>
      { h with incoming := some m.console, state := .accepted,
               timer := .release (m.arrival + s.ml.params.releaseLimit * ticksPerMinute) }).HandoverInv :=
    handoverInv_of_plain ⟨resume, heldSince, settleEnd, cut, closing, deferred⟩ nofun nofun
      (by rw [State.onHc_ml, mode]; exact ⟨duty, rfl⟩)
      (fun d hd i hi => by
        obtain rfl := Option.some.inj hi
        rintro rfl
        exact other hd)
      rfl (fun _ => h.opened (by rcases state with e | e <;> simp [e])) h.header (fun active => absurd active quiet) h.queue
  exact (accepted.answer .confirm m).announce ..

theorem State.HandoverInv.takeAccept (h : s.HandoverInv) (m : ConsoleMsg) : (s.takeAccept m).HandoverInv := by
  have answered : ∀ k, (s.answer k m).HandoverInv := fun k => h.answer k m
  unfold State.takeAccept State.refuseAuto State.refuseMsg
  split
  · split <;> exact answered _
  · next mode =>
    split
    · exact answered _
    · exact answered _
    · next state =>
      split
      · exact answered _
      · next other => exact h.acceptFrom m mode (.inl state) other
    · next state =>
      split
      · exact answered _
      · next other => exact h.acceptFrom m mode (.inr state) other
    · split
      · exact answered _
      · split <;> exact answered _
    · exact answered _
    · exact answered _

theorem State.HandoverInv.accepted_cut (h : s.HandoverInv) (state : s.hc.state = .accepted) {k : CloseKind}
    (handed : k = .normal ∨ k = .late ∨ k = .forced) (e : Nat) : (s.makeCut k e).HandoverInv := by
  obtain ⟨mode, -, incoming⟩ := h.accepted_console state
  have p := h.plain (by simp [state]) (by simp [state])
  refine handoverInv_makeCut p.resume p.heldSince ?_ (h.opened (by simp [state])) h.header h.queue
  rw [mode]
  rcases handed with rfl | rfl | rfl <;> exact incoming

theorem State.HandoverInv.takeRelease (h : s.HandoverInv) (m : ConsoleMsg) : (s.takeRelease m).HandoverInv := by
  have answered : ∀ k, (s.answer k m).HandoverInv := fun k => h.answer k m
  unfold State.takeRelease State.refuseAuto State.refuseMsg
  split
  · split <;> exact answered _
  · split
    · exact answered _
    · split <;> exact answered _
    · split <;> exact answered _
    · split <;> exact answered _
    · next state =>
      split
      · have cut := h.accepted_cut state (k := if s.hc.overrun then .late else .normal) (by split <;> tauto) m.arrival
        exact (cut.answer .confirm m).announce ..
      · exact answered _
    · exact answered _
    · exact answered _

theorem State.HandoverInv.takeQuery (h : s.HandoverInv) (m : ConsoleMsg) : (s.takeQuery m).HandoverInv := by
  unfold State.takeQuery State.refuseAuto State.refuseMsg
  split
  · split <;> exact h.answer ..
  · split <;> exact h.answer ..

theorem State.HandoverInv.takeMessage (h : s.HandoverInv) (m : ConsoleMsg) : (s.takeMessage m).HandoverInv := by
  unfold State.takeMessage
  split
  · exact h.takeClaim m
  · exact h.takeAccept m
  · exact h.takeRelease m
  · exact h.takeQuery m

theorem State.HandoverInv.takeArrived (h : s.HandoverInv) (k : ConsoleKind) : (s.takeArrived k).HandoverInv := by
  unfold State.takeArrived
  split
  · exact h
  · split
    · refine State.HandoverInv.takeMessage ?_ _
      exact h.of_same ⟨rfl, rfl, rfl, rfl, rfl, rfl, rfl, rfl, rfl, rfl, rfl, rfl, rfl, rfl, h.queue⟩
    · exact h

/-! ### Timers and the end of SETTLING (R149, R155) -/

theorem State.HandoverInv.windowOpen_console (h : s.HandoverInv) (state : s.hc.state = .windowOpen) :
    s.ml.params.scheduleMode = .console ∧ s.hc.duty.isSome = true ∧ s.hc.incoming = none := by
  have fit := h.consoles
  cases mode : s.ml.params.scheduleMode with
  | console => exact ⟨rfl, by simpa [consolesFit, mode, state] using fit⟩
  | auto => simp [consolesFit, mode, state] at fit

theorem State.HandoverInv.windowExpires (h : s.HandoverInv) : s.windowExpires.HandoverInv := by
  unfold State.windowExpires
  split
  · next x state _ =>
    split
    · obtain ⟨resume, heldSince, settleEnd, cut, closing, deferred⟩ := h.plain (by simp [state]) (by simp [state])
      obtain ⟨mode, consoles⟩ := h.windowOpen_console state
      have expired : (s.onHc fun h => { h with state := .overrun, timer := .none, overrun := true }).HandoverInv :=
        handoverInv_of_plain ⟨resume, heldSince, settleEnd, cut, closing, deferred⟩ nofun nofun
          (by rw [State.onHc_ml, mode]; exact consoles) h.distinct rfl (fun _ => h.opened (by simp [state])) h.header
          (fun active => absurd state (h.incident active).1) h.queue
      exact expired.announce ..
    · exact h
  · exact h

theorem State.HandoverInv.releaseExpires (h : s.HandoverInv) : s.releaseExpires.HandoverInv := by
  unfold State.releaseExpires
  split
  · next x state _ =>
    split
    · exact State.HandoverInv.announce (h.accepted_cut state (by tauto) x) ..
    · exact h
  · exact h

theorem closeShift_current (s : State) : s.closeShift.sh.current.isSome = s.sh.current.isSome := by
  unfold State.closeShift
  split
  · next c h _ _ =>
    obtain ⟨f, e, -⟩ := State.offer_sh_current (shiftClosedRecord c)
      { s with sh := { s.sh with ring := (shiftRecordOf s.sh.number s.sh.openingMissed c h
        (Vector.ofFn fun u => s.tu[u].closeInterval c.stamp.elapsed) :: s.sh.ring).take 16 } }
    dsimp only
    rw [e]
    simp
  · rfl

theorem closeShift_ended {c : CutNoted} {g : Header} (cut : s.sh.cut = some c) (closing : s.sh.closing = some g) :
    s.closeShift.sh.cut = none ∧ s.closeShift.sh.closing = none := by
  simp [State.closeShift, cut, closing]

theorem SameDuty.clearDeferred (h : SameDuty s t) :
    SameDuty (s.onHc fun h => { h with deferred := none }) (t.onHc fun h => { h with deferred := none }) :=
  ⟨h.mode, h.cut, h.closing, h.current, h.incident, h.state, h.timer, h.resume, h.heldSince, h.settleEnd, rfl, h.shiftOpen,
    h.duty, h.incoming, h.queue⟩

/-- SETTLING is left for ON_SHIFT or NO_DUTY (R155). -/
theorem State.HandoverInv.leaveSettling (h : s.HandoverInv) {c : CutNoted} (cut : s.sh.cut = some c)
    (state : s.hc.state = .settling) (x : Nat) : (s.closeShift.leaveSettling c.kind x).HandoverInv := by
  have w := closeShift_within s
  have hc : s.closeShift.hc = s.hc := w.out .hc (by decide)
  have ml : s.closeShift.ml = s.ml := w.out .ml (by decide)
  have closing : s.sh.closing.isSome = true := by rw [h.closing, state]; rfl
  obtain ⟨g, closing⟩ := Option.isSome_iff_exists.mp closing
  obtain ⟨cutEnded, closingEnded⟩ := closeShift_ended cut closing
  have opened := h.opened (by rw [state]; nofun)
  have left : ((s.closeShift.onHc fun h =>
        { h with state := (afterSettling c.kind s.hc.incoming).1, duty := (afterSettling c.kind s.hc.incoming).2,
                 incoming := none, settleEnd := none }).onHc fun h => { h with deferred := none }).HandoverInv := by
    have fit := h.consoles
    rw [cut] at fit
    have after : (afterSettling c.kind s.hc.incoming).1 = .onShift ∨ (afterSettling c.kind s.hc.incoming).1 = .noDuty := by
      cases c.kind <;> simp [afterSettling]
    refine handoverInv_of_plain ⟨?_, ?_, rfl, cutEnded, closingEnded, rfl⟩ ?_ ?_ ?_ (by simp) ?_ (fun _ => ?_) ?_
      (fun _ => ?_) ?_
    · show s.closeShift.hc.resume = _
      rw [hc]; exact h.resume.mpr (by rw [state]; nofun)
    · show s.closeShift.hc.heldSince = _
      rw [hc]
      simpa [beq_eq_false_iff_ne.mpr (show s.hc.state ≠ .held by rw [state]; nofun)] using h.heldSince
    · rcases after with e | e <;> simp [e]
    · rcases after with e | e <;> simp [e]
    · show consolesFit s.closeShift.ml.params.scheduleMode _ _
      rw [ml]
      unfold consolesFit at fit ⊢
      cases mode : s.ml.params.scheduleMode <;> cases kind : c.kind <;>
        simp_all [afterSettling]
    · show HTimer.fits (afterSettling c.kind s.hc.incoming).1 s.closeShift.hc.timer = true
      rw [hc, h.stopped (by simp [state])]
      rcases after with e | e <;> rw [e] <;> rfl
    · show s.closeShift.hc.shiftOpen = true; rw [hc]; exact opened
    · show s.closeShift.sh.current.isSome = s.closeShift.hc.shiftOpen
      rw [hc, closeShift_current]; exact h.header
    · rcases after with e | e <;> simp [e]
    · show s.closeShift.hc.queue.length ≤ 4; rw [hc]; exact h.queue
  unfold State.leaveSettling
  dsimp only
  rw [hc]
  split
  · next nothing =>
    have entered : (s.closeShift.onHc fun h =>
        { h with state := (afterSettling c.kind s.hc.incoming).1, duty := (afterSettling c.kind s.hc.incoming).2,
                 incoming := none, settleEnd := none }).HandoverInv :=
      left.of_same ⟨rfl, rfl, rfl, rfl, rfl, rfl, rfl, rfl, rfl, rfl, by simp [hc, nothing], rfl, rfl, rfl, left.queue⟩
    exact entered.announce ..
  · exact State.HandoverInv.actBoundary (left.of_same (SameDuty.clearDeferred
      (SameDuty.announce .settling .settled .b (consoleCode (afterSettling c.kind s.hc.incoming).2) left.queue))) ..

theorem State.HandoverInv.settleEnds (h : s.HandoverInv) : s.settleEnds.HandoverInv := by
  unfold State.settleEnds
  split
  · next x c state _ cut =>
    split
    · exact h.leaveSettling cut state x
    · exact h
  · exact h

/-! ### The requests (R137, R138, R153) -/

/-- A shift in AUTO mode has no console (R152, R153). -/
theorem State.HandoverInv.enterAutoShift (p : s.Plain) (mode : s.ml.params.scheduleMode = .auto)
    (incoming : s.hc.incoming = none) (timer : s.hc.timer = .none) (opened : s.hc.shiftOpen = true)
    (header : s.sh.current.isSome = s.hc.shiftOpen) (few : s.hc.queue.length ≤ 4) (o : HState) (c : HCause) :
    (s.enterAutoShift o c).HandoverInv := by
  obtain ⟨resume, heldSince, settleEnd, cut, closing, deferred⟩ := p
  have entered : (s.onHc fun h => { h with state := .onShift, duty := none }).HandoverInv :=
    handoverInv_of_plain ⟨resume, heldSince, settleEnd, cut, closing, deferred⟩ nofun nofun
      (by rw [State.onHc_ml, mode]; exact ⟨rfl, incoming⟩) nofun (by show HTimer.fits .onShift s.hc.timer = true; rw [timer]; rfl)
      (fun _ => opened) header (fun _ => ⟨nofun, nofun, nofun⟩) few
  exact entered.announce ..

theorem settled_iff (x : HState) : x.settled = true ↔ x = .noDuty ∨ x = .onShift := by
  cases x <;> simp [HState.settled]

theorem State.HandoverInv.writeMode (h : s.HandoverInv) {v : SchedMode} (allowed : modeAllowed v s = true) :
    (s.writeMode v).HandoverInv := by
  unfold State.writeMode
  split
  · exact h
  · next changed =>
    have state : s.hc.state = .noDuty ∨ s.hc.state = .onShift := by
      simp only [modeAllowed, Bool.or_eq_true, beq_iff_eq] at allowed
      exact (settled_iff _).mp (allowed.resolve_left changed)
    have notHeld : s.hc.state ≠ .held := by rcases state with e | e <;> simp [e]
    have notSettling : s.hc.state ≠ .settling := by rcases state with e | e <;> simp [e]
    obtain ⟨resume, heldSince, settleEnd, cut, closing, deferred⟩ := h.plain notHeld notSettling
    have stopped := h.stopped (by rcases state with e | e <;> simp [e])
    have plain : (s.onParams fun p => { p with scheduleMode := v }).Plain := ⟨resume, heldSince, settleEnd, cut, closing, deferred⟩
    have stays : consolesFit v none s.hc → (s.onParams fun p => { p with scheduleMode := v }).HandoverInv := fun fit =>
      handoverInv_of_plain plain notHeld notSettling fit h.distinct h.timer h.opened h.header h.incident h.queue
    cases v with
    | console =>
      have mode : s.ml.params.scheduleMode = .auto := by
        cases e : s.ml.params.scheduleMode with
        | console => exact absurd e.symm changed
        | auto => rfl
      show (State.toConsole _).HandoverInv
      unfold State.toConsole
      split
      · next shift =>
        obtain ⟨duty, incoming⟩ := h.onShift_auto mode shift
        have left : ((s.onParams fun p => { p with scheduleMode := .console }).onHc fun h =>
            { h with state := .noDuty }).HandoverInv :=
          handoverInv_of_plain ⟨resume, heldSince, settleEnd, cut, closing, deferred⟩ nofun nofun
            (show consolesFit .console none { s.hc with state := .noDuty } from ⟨duty, incoming⟩) h.distinct
            (by show HTimer.fits .noDuty s.hc.timer = true; rw [stopped]; rfl) (fun idle => absurd rfl idle) h.header
            (fun _ => ⟨nofun, nofun, nofun⟩) h.queue
        exact left.announce ..
      · next idle =>
        have idle : s.hc.state = .noDuty := state.resolve_right idle
        obtain ⟨duty, incoming, -⟩ := h.noDuty_auto mode idle
        exact stays (by unfold consolesFit; simpa [idle] using ⟨duty, incoming⟩)
    | auto =>
      have mode : s.ml.params.scheduleMode = .console := by
        cases e : s.ml.params.scheduleMode with
        | console => rfl
        | auto => exact absurd e.symm changed
      show (State.toAuto _).HandoverInv
      unfold State.toAuto
      split
      · next shift =>
        have shift : s.hc.state = .onShift := shift
        obtain ⟨duty, incoming⟩ := h.onShift_console mode (.inl shift)
        split
        · next nobody => exact absurd duty (by rw [show s.hc.duty = none from nobody]; nofun)
        · exact .enterAutoShift plain rfl incoming stopped (h.opened (by rw [shift]; nofun)) h.header h.queue _ _
      · next idle =>
        have idle : s.hc.state = .noDuty := idle
        obtain ⟨duty, incoming⟩ := h.noDuty_console mode idle
        split
        · next opened => exact .enterAutoShift plain rfl incoming stopped opened h.header h.queue _ _
        · next shut =>
          split
          · refine stays ?_
            unfold consolesFit
            have shut : s.hc.shiftOpen ≠ true := shut
            simp [idle, duty, incoming, shut]
          · exact State.HandoverInv.enterAutoShift
              (s := (s.onParams fun p => { p with scheduleMode := .auto }).takeOpeningCut s.tb.e) ⟨resume, heldSince, settleEnd, cut, closing, deferred⟩ rfl incoming stopped rfl rfl h.queue _ _
      all_goals
        next other =>
          have other : s.hc.state = _ := other
          rcases state with e | e <;> rw [e] at other <;> cases other

theorem State.HandoverInv.writeOffset (h : s.HandoverInv) (v : Int) : (s.writeOffset v).HandoverInv := by
  have written : (s.onParams fun p => { p with localOffset := v }).HandoverInv :=
    h.of_same ⟨rfl, rfl, rfl, rfl, rfl, rfl, rfl, rfl, rfl, rfl, rfl, rfl, rfl, rfl, h.queue⟩
  unfold State.writeOffset
  dsimp only
  split
  · exact written
  · split
    · exact written.reseat
    · exact written.evaluate

theorem State.HandoverInv.writeSchedule (h : s.HandoverInv) (allowed : s.hc.state.settled = true) (l : List Nat) :
    (s.writeSchedule l).HandoverInv := by
  have same : ∀ x, SameDuty s (s.onHc fun h => { h with schedule := l, lastReached := x }) := fun _ =>
    ⟨rfl, rfl, rfl, rfl, rfl, rfl, rfl, rfl, rfl, rfl, rfl, rfl, rfl, rfl, h.queue⟩
  have seated : ∃ x, (if (s.onHc fun h => { h with schedule := l }).tb.unset then s.onHc fun h => { h with schedule := l }
      else (s.onHc fun h => { h with schedule := l }).reseat) = s.onHc fun h => { h with schedule := l, lastReached := x } := by
    split
    · exact ⟨s.hc.lastReached, rfl⟩
    · exact ⟨_, rfl⟩
  obtain ⟨x, seated⟩ := seated
  unfold State.writeSchedule
  dsimp only
  rw [seated]
  split
  · next opens =>
    obtain ⟨mode, shut⟩ := opens
    simp only [Bool.not_eq_true'] at shut
    have state : s.hc.state = .noDuty := by
      by_contra other
      rw [h.opened other] at shut
      cases shut
    obtain ⟨resume, heldSince, settleEnd, cut, closing, deferred⟩ := h.plain (by simp [state]) (by simp [state])
    obtain ⟨-, incoming, -⟩ := h.noDuty_auto mode state
    exact State.HandoverInv.enterAutoShift
      (s := (s.onHc fun h => { h with schedule := l, lastReached := x }).takeOpeningCut s.tb.e) ⟨resume, heldSince, settleEnd, cut, closing, deferred⟩ mode incoming (h.stopped (by simp [state])) rfl rfl h.queue _ _
  · exact h.of_same (same x)

/-! ### The commands -/

theorem State.HandoverInv.apart {l : List Block} (h : s.HandoverInv) (w : Within l s t)
    (apart : (([.ml, .sh, .ct, .hc] : List Block).all fun b => !l.contains b) = true) : t.HandoverInv :=
  h.of_same (.of_within w apart h.queue)

theorem State.HandoverInv.link (h : s.HandoverInv) {f : MgmtLink → MgmtLink}
    (mode : ∀ m, (f m).params.scheduleMode = m.params.scheduleMode) : (s.onMl f).HandoverInv :=
  h.of_same ⟨mode _, rfl, rfl, rfl, rfl, rfl, rfl, rfl, rfl, rfl, rfl, rfl, rfl, rfl, h.queue⟩

theorem State.HandoverInv.offer (h : s.HandoverInv) (r : EventRecord) : (s.offer r).HandoverInv := h.of_same (.offer r h.queue)

theorem handoverInv_loopKept : LoopKept State.HandoverInv :=
  .of_apart (fun w _ h => h.apart w rfl) (fun mode h => h.link mode) fun r _ h => h.offer r

theorem State.HandoverInv.failAttempt (h : s.HandoverInv) (u : UnitNo) (r : FailReason) (old new : UnitMode) (st : Stamp) :
    (s.failAttempt u r old new st).HandoverInv := by
  unfold State.failAttempt
  split
  · exact h
  · exact State.HandoverInv.offer (h.apart (onUnit_within ..) rfl) _

theorem State.HandoverInv.eventChange (h : s.HandoverInv) (u : UnitNo) (new : UnitMode) : (s.eventChange u new).HandoverInv := by
  unfold State.eventChange
  dsimp only
  split
  · exact h
  · exact State.HandoverInv.failAttempt (h.apart (onUnit_within ..) rfl) ..

theorem State.HandoverInv.sourceChange (h : s.HandoverInv) (u : UnitNo) (stamp : Nat) (v : StationVals) :
    (s.sourceChange u stamp v).HandoverInv := by
  have unit : ∀ {t : State} f, t.HandoverInv → (t.onUnit u f).HandoverInv := fun f g => g.apart (onUnit_within ..) rfl
  unfold State.sourceChange
  dsimp only
  split
  · exact h
  · unfold State.settleAttempt
    split
    · split
      · exact unit _ (unit _ h)
      · split
        · exact (unit _ h).failAttempt ..
        · split
          · exact (unit _ h).failAttempt ..
          · exact unit _ h
    · split
      · dsimp only
        split
        · exact unit _ (unit _ (unit _ h))
        · exact unit _ (unit _ h)
      · exact unit _ h

theorem handoverInv_recordKept : RecordKept State.HandoverInv where
  apart w h := h.apart w rfl
  link mode h := h.link mode
  count _ h := h.of_same (.count _ h.queue)
  failAttempt u r old new st h := h.failAttempt u r old new st
  eventChange u m h := h.eventChange u m

theorem handoverInv_offsetKept : OffsetKept State.HandoverInv where
  quiet w _ h := h.apart w rfl
  takeClass h := by
    unfold State.takeClass
    split
    · exact h
    · exact h.of_same
        ⟨rfl, rfl, rfl, by simp [State.countCurrent], rfl, rfl, rfl, rfl, rfl, rfl, rfl, rfl, rfl, rfl, h.queue⟩
  offer r _ h := h.offer r
  localTime b h := h.onLocalTime b

theorem handoverInv_incidentKept : IncidentKept State.HandoverInv where
  offer r _ h := h.offer r
  slots same h := h.of_same
    ⟨rfl, rfl, rfl, rfl, same _, rfl, rfl, rfl, rfl, rfl, rfl, rfl, rfl, rfl, h.queue⟩
  evalIncident h := h.evalIncident
  cascadeOpened u h := h.failAttempt ..
  countTrip g load h := h.apart (countTrip_within ..) rfl
  attributeCascade {s} g ch st load h := by
    unfold State.attributeCascade
    split
    · split
      · exact h.of_same
          ⟨rfl, rfl, by simp, rfl, rfl, rfl, rfl, rfl, rfl, rfl, rfl, rfl, rfl, rfl, h.queue⟩
      · exact h.of_same (.count _ h.queue)
    · exact h.of_same (.count _ h.queue)

/-- The console slot of a look changes the levels, the grant and the arrived message. -/
theorem Handover.look_items (u : Uplink) (e : Nat) (h : Handover) :
    (h.look u e).1 = { h with levels := (h.look u e).1.levels, grant := (h.look u e).1.grant } := by
  have half : ∀ n, (h.takeHalf u e n).1 =
      { h with levels := (h.takeHalf u e n).1.levels, grant := (h.takeHalf u e n).1.grant } := fun n => by
    unfold Handover.takeHalf
    split
    · rfl
    · split <;> split <;> rfl
  have grant : ∀ (g : Handover) n, g.decideGrant u n =
      { g with levels := (g.decideGrant u n).levels, grant := (g.decideGrant u n).grant } := fun g n => by
    unfold Handover.decideGrant
    split <;> rfl
  unfold Handover.look
  dsimp only
  rw [grant, half]

theorem SameDuty.look (u : Uplink) (e : Nat) (x : Option ConsoleMsg) (few : s.hc.queue.length ≤ 4) :
    SameDuty s (s.onHc fun _ => { (s.hc.look u e).1 with arrived := x }) := by
  have items := s.hc.look_items u e
  rw [items]
  exact ⟨rfl, rfl, rfl, rfl, rfl, rfl, rfl, rfl, rfl, rfl, rfl, rfl, rfl, rfl, few⟩

theorem State.HandoverInv.look (h : s.HandoverInv) (u : Uplink) (o : LookOrder) : (s.look u o).HandoverInv := by
  refine look_keeps u o (fun t w => h.apart w rfl) (fun t g => ?_) (fun t g => g.of_same (.look u t.tb.e _ g.queue))
    (fun t g => ?_) (fun t g => handoverInv_loopKept.writeStore .up _ g) h
  · have slot : (t.onHc fun _ => (t.hc.look u t.tb.e).1).HandoverInv :=
      g.of_same (.look u t.tb.e (t.hc.look u t.tb.e).1.arrived g.queue)
    unfold State.consoleFirst
    dsimp only
    split
    · exact slot.takeMessage _
    · exact slot
  · exact handoverInv_incidentKept.takeHandOns _ _ (fun _ x _ g => handoverInv_recordKept.handToTally x (fun _ _ _ => g.sourceChange ..) g)
      (handoverInv_recordKept.allLooks _ g)

theorem Handover.flush_items (e : Nat) (h : Handover) :
    h.flush e = { h with queue := (h.flush e).queue, tx := (h.flush e).tx } := by
  unfold Handover.flush
  split
  · split <;> rfl
  · rfl

/-- The console slot of a downlink changes the queue and the message in transmission. -/
theorem Handover.downlinkSlot_items (e : Nat) (h : Handover) : (h.downlinkSlot e).1 =
    { h with queue := (h.flush e).queue, tx := (h.downlinkSlot e).1.tx, gap := (h.downlinkSlot e).1.gap } := by
  unfold Handover.downlinkSlot
  dsimp only
  rw [h.flush_items e]
  split
  · rfl
  · split
    · rfl
    · split <;> rfl

theorem SameDuty.slot (e : Nat) (few : s.hc.queue.length ≤ 4) : SameDuty s (s.onHc fun h => (h.downlinkSlot e).1) := by
  have short := (s.hc.flush_length e).trans few
  show SameDuty s { s with hc := (s.hc.downlinkSlot e).1 }
  rw [s.hc.downlinkSlot_items e]
  exact ⟨rfl, rfl, rfl, rfl, rfl, rfl, rfl, rfl, rfl, rfl, rfl, rfl, rfl, rfl, short⟩

theorem State.HandoverInv.downlinkStart (h : s.HandoverInv) : s.downlinkStart.HandoverInv := by
  unfold State.downlinkStart State.startDownlink State.readDown
  have noted : ∀ f, (s.onUbi f).HandoverInv := fun f => h.apart (onUbi_within ..) rfl
  have slot : ∀ f, ((s.onUbi f).onHc fun h => (h.downlinkSlot s.tb.e).1).HandoverInv := fun f =>
    (noted f).of_same (.slot _ h.queue)
  split
  · split
    · exact handoverInv_loopKept.readStore .down (slot _)
    · exact slot _
  · exact h

theorem State.HandoverInv.restartCascades (h : s.HandoverInv) : s.restartCascades.HandoverInv := by
  unfold State.restartCascades
  dsimp only
  split
  · exact h.incidentEnds (c := { slots := Vector.replicate 9 none, holdEnd := none, incident := false }) rfl
  · next quiet =>
    have quiet : s.ct.incident = false := by simpa using quiet
    exact h.of_same ⟨rfl, rfl, rfl, rfl, quiet.symm, rfl, rfl, rfl, rfl, rfl, rfl, rfl, rfl, rfl, h.queue⟩

theorem State.HandoverInv.restartActs (h : s.HandoverInv) : s.restartActs.HandoverInv := by
  unfold State.restartActs
  split
  · have cleared : s.clearLinks.HandoverInv := by
      refine h.of_same ?_
      unfold State.clearLinks Handover.clearSlot
      rw [s.hc.flush_items]
      exact ⟨rfl, rfl, rfl, rfl, rfl, rfl, rfl, rfl, rfl, rfl, rfl, rfl, rfl, rfl, Nat.zero_le _⟩
    have looped : s.clearLinks.restartLoop.HandoverInv :=
      State.HandoverInv.apart (handoverInv_loopKept.endSearch cleared) (onDl_within ..) rfl
    exact (handoverInv_recordKept.restartUnits looped).restartCascades
  · exact h

theorem State.HandoverInv.reset (q : List Instr) (held : Bool) :
    State.HandoverInv { State.reset with inReset := held, pending := q } where
  consoles := ⟨rfl, rfl⟩
  distinct := nofun
  timer := rfl
  resume := ⟨fun _ => nofun, fun _ => rfl⟩
  heldSince := rfl
  settleEnd := rfl
  cut := rfl
  closing := rfl
  deferred := nofun
  opened := fun other => absurd rfl other
  header := rfl
  incident := nofun
  held := nofun
  queue := Nat.zero_le _

theorem State.HandoverInv.after (c : Instr) (h : s.HandoverInv) : (s.after c).HandoverInv := by
  cases loop : isLoopCommand c with
  | true => exact handoverInv_loopKept.after loop h
  | false =>
    cases record : isRecordCommand c with
    | true => exact handoverInv_recordKept.after record h
    | false =>
      cases c
      case powerOnReset cause => exact powerOn_keeps (fun held => .reset _ held) h cause
      case localSecondBoundary => exact handoverInv_offsetKept.secondBoundary h
      case stepApplication => exact handoverInv_offsetKept.stepApplies h
      case downlinkFrameStart => exact h.downlinkStart
      case look u o => exact h.look u o
      case cascadeClose g => exact handoverInv_incidentKept.cascadeCloses g h
      case incidentHoldEnd => exact handoverInv_incidentKept.holdEnds h
      case dutyClaim => exact h.takeArrived .dutyClaim
      case accept => exact h.takeArrived .accept
      case release => exact h.takeArrived .release
      case query => exact h.takeArrived .query
      case windowExpiry => exact h.windowExpires
      case releaseExpiry => exact h.releaseExpires
      case settleEnd => exact h.settleEnds
      case setTime =>
        exact handoverInv_recordKept.request _ (fun req => withLength_fst 10 req h (h.apart (setTime_within req s) rfl)) h
      case writeScheduleMode =>
        exact handoverInv_recordKept.request _
          (fun req => withLength_fst 6 req h (writeParam_fst _ _ _ _ req h fun v _ ok => h.writeMode ok)) h
      case writeLocalOffset =>
        exact handoverInv_recordKept.request _
          (fun req => withLength_fst 6 req h (writeParam_fst _ _ _ _ req h fun v _ _ => h.writeOffset v)) h
      case writeSchedule =>
        refine handoverInv_recordKept.request _ (fun req => ?_) h
        unfold Machine.writeSchedule
        split
        · split
          · split
            · next allowed => exact h.writeSchedule allowed _
            · exact h
          · exact h
        · exact h
      case writeUnit =>
        refine handoverInv_recordKept.request _ (fun req => withLength_fst 21 req h ?_) h
        unfold Machine.writeUnit
        split
        · exact State.HandoverInv.eventChange (h.apart (onUnit_within ..) rfl) _ _
        · exact h
      case presetTally =>
        exact handoverInv_recordKept.request _ (fun req => withLength_fst 54 req h (h.apart (presetTally_within req s) rfl)) h
      case warmRestartActs => exact h.restartActs
      case tick =>
        show s.tick.HandoverInv
        unfold State.tick
        split
        · exact h
        · exact h.of_same ⟨rfl, rfl, rfl, rfl, rfl, rfl, rfl, rfl, rfl, rfl, rfl, rfl, rfl, rfl, h.queue⟩
      all_goals first | (cases loop; done) | cases record

/-- Settles O11: a cut empties the duty item and SETTLING keeps the incoming console; every other entry takes the items that
its state needs from the state before. -/
theorem handoverItemsKept : Obligations.HandoverItemsKept := by
  unfold Obligations.HandoverItemsKept
  intro s t h step
  refine step_keeps (P := State.HandoverInv) (fun s q g => ?_) (fun c s g => g.after c) h step
  exact g.of_same ⟨rfl, rfl, rfl, rfl, rfl, rfl, rfl, rfl, rfl, rfl, rfl, rfl, rfl, rfl, g.queue⟩

end Sys2Proof.Machine
end

/-! The shift sets of a unit: what the credits and counts make of them (R160 to R163, R166). -/

section
namespace Sys2Proof.Machine

/-! ### What the agreement with the header sets needs of a unit -/

/-- The items that the agreement of a unit with the header sets speaks of are the same. -/
structure GenUnit.SameSets (x y : GenUnit) : Prop where
  entry : y.entry = x.entry
  start : y.cur.start = x.cur.start
  durations : y.cur.durations = x.cur.durations
  next : y.next.map (fun n => (n.start, n.durations)) = x.next.map fun n => (n.start, n.durations)

/-- A unit that agrees with the header sets still does after a change, and its entry stamp stays no later than `e`. -/
structure GenUnit.KeepsSets (e : Nat) (x y : GenUnit) : Prop where
  noShift : x.noShift → y.noShift
  inShift : ∀ a, x.inShift a → y.inShift a
  inSettling : ∀ a c, a ≤ c → x.inSettling a c → y.inSettling a c
  entry : x.entry ≤ e → y.entry ≤ e

theorem GenUnit.SameSets.keeps {x y : GenUnit} (h : x.SameSets y) (e : Nat) : x.KeepsSets e y := by
  obtain ⟨entry, start, durations, next⟩ := h
  have none_iff : y.next = none ↔ x.next = none := by
    cases hx : x.next <;> cases hy : y.next <;> simp_all
  refine ⟨fun g => ⟨start.trans g.1, none_iff.mpr g.2⟩, fun a g => ⟨start.trans g.1, none_iff.mpr g.2.1, ?_⟩,
    fun a c _ g => ⟨start.trans g.1, ?_, ?_⟩, fun g => entry ▸ g⟩
  · unfold ShiftSet.total; rw [durations, entry]; exact g.2.2
  · unfold ShiftSet.total; rw [durations, entry]; exact g.2.1
  · obtain ⟨n, is, nstart, ntotal⟩ := g.2.2
    rw [is] at next
    obtain ⟨m, ism, same⟩ := Option.map_eq_some_iff.mp next
    obtain ⟨mstart, mdurations⟩ := Prod.mk.inj same
    refine ⟨m, ism, mstart.trans nstart, ?_⟩
    unfold ShiftSet.total at ntotal ⊢
    rw [mdurations, entry]; exact ntotal

theorem GenUnit.KeepsSets.refl (e : Nat) (x : GenUnit) : x.KeepsSets e x :=
  ⟨id, fun _ => id, fun _ _ _ => id, id⟩

theorem GenUnit.KeepsSets.trans {e : Nat} {x y z : GenUnit} (h : x.KeepsSets e y) (g : y.KeepsSets e z) : x.KeepsSets e z :=
  ⟨fun a => g.noShift (h.noShift a), fun a i => g.inShift a (h.inShift a i),
    fun a c le i => g.inSettling a c le (h.inSettling a c le i), fun i => g.entry (h.entry i)⟩

/-! ### Credits and counts -/

theorem credit_total (m : UnitMode) (n : Nat) (d : ShiftSet) : (d.credit m n).total = d.total + n := sum_set ..

theorem zero_total (a : Option Nat) : (ShiftSet.zero a).total = 0 := by cases a <;> rfl

/-- The shift share of an interval takes the sets on to its end, which becomes the entry stamp (R160, R162). -/
theorem keepsSets_credit {e b : Nat} {x y : GenUnit} (later : x.entry ≤ b) (past : b ≤ e) (cur : y.cur = (x.creditShift b).cur)
    (next : y.next = (x.creditShift b).next) (entry : y.entry = b) : x.KeepsSets e y := by
  refine ⟨fun g => ?_, fun a g => ?_, fun a c le g => ?_, fun _ => entry ▸ past⟩
  · obtain ⟨start, none⟩ := g
    have same : x.creditShift b = x := by unfold GenUnit.creditShift; rw [start]
    rw [same] at cur next
    exact ⟨by rw [cur]; exact start, by rw [next]; exact none⟩
  · obtain ⟨start, none, total⟩ := g
    have same : x.creditShift b = { x with cur := x.cur.credit x.mode (b - max x.entry a) } := by
      unfold GenUnit.creditShift; simp [start, none]
    rw [same] at cur next
    refine ⟨by rw [cur]; exact start, by rw [next]; exact none, ?_⟩
    rw [cur, credit_total, total, entry]
    omega
  · obtain ⟨start, total, n, is, nstart, ntotal⟩ := g
    have same : x.creditShift b = { x with cur := x.cur.credit x.mode (min b c - max x.entry a),
                                           next := some (n.credit x.mode (b - max (max x.entry a) c)) } := by
      unfold GenUnit.creditShift; simp [start, is, nstart]
    rw [same] at cur next
    refine ⟨by rw [cur]; exact start, ?_, _, next, nstart, ?_⟩
    · rw [cur, credit_total, total, entry]; omega
    · rw [credit_total, ntotal, entry]; omega

theorem countShift_sameSets (k : StartCount) (st : Nat) (x : GenUnit) : x.SameSets (x.countShift k st) := by
  have counted : ∀ d : ShiftSet, (d.count k).start = d.start ∧ (d.count k).durations = d.durations := fun d => by
    cases k <;> exact ⟨rfl, rfl⟩
  unfold GenUnit.countShift
  split
  · exact ⟨rfl, rfl, rfl, rfl⟩
  · exact ⟨rfl, (counted _).1, (counted _).2, rfl⟩
  · next n _ is =>
    split
    · exact ⟨rfl, (counted _).1, (counted _).2, rfl⟩
    · exact ⟨rfl, rfl, rfl, by simp [is, counted]⟩

theorem GenUnit.SameSets.trans {x y z : GenUnit} (h : x.SameSets y) (g : y.SameSets z) : x.SameSets z :=
  ⟨g.entry.trans h.entry, g.start.trans h.start, g.durations.trans h.durations, g.next.trans h.next⟩

theorem fail_sameSets (st : Nat) (x : GenUnit) : x.SameSets (x.fail st) := by
  obtain ⟨_, start, durations, next⟩ := countShift_sameSets .failed st x
  rw [fail_eq]; exact ⟨rfl, start, durations, next⟩

theorem succeed_sameSets (st : Nat) (x : GenUnit) : x.SameSets (x.succeed st) := by
  obtain ⟨_, start, durations, next⟩ := countShift_sameSets .succeeded st x
  rw [succeed_eq]; exact ⟨rfl, start, durations, next⟩

theorem openAttempt_sameSets (st : Nat) (x : GenUnit) : x.SameSets (x.openAttempt st) := by
  obtain ⟨_, start, durations, next⟩ := countShift_sameSets .opened st x
  rw [openAttempt_eq]; exact ⟨rfl, start, durations, next⟩

theorem failOpen_sameSets (st : Nat) (x : GenUnit) : x.SameSets (x.failOpen st) := by
  unfold GenUnit.failOpen
  split
  · exact fail_sameSets st x
  · exact ⟨rfl, rfl, rfl, rfl⟩

theorem settle_sameSets (old new : UnitMode) (st : Nat) (x : GenUnit) : x.SameSets (x.settle old new st) := by
  have same : x.SameSets x := ⟨rfl, rfl, rfl, rfl⟩
  unfold GenUnit.settle
  split
  · split
    · exact succeed_sameSets st x
    · split
      · exact fail_sameSets st x
      · exact same
  · split
    · split
      · exact (openAttempt_sameSets st x).trans (succeed_sameSets st _)
      · exact openAttempt_sameSets st x
    · exact same

theorem keepsSets_enter {e b : Nat} {x : GenUnit} (m : UnitMode) (later : x.entry ≤ b) (past : b ≤ e) :
    x.KeepsSets e (x.enter m b) := by
  refine keepsSets_credit later past ?_ ?_ ?_ <;> rw [enter_eq]

theorem keepsSets_preset {e : Nat} {x : GenUnit} (p : Preset) (later : x.entry ≤ e) : x.KeepsSets e (x.preset p e) := by
  have failed := failOpen_sameSets e x
  refine (failed.keeps e).trans (keepsSets_credit (b := e) ?_ (Nat.le_refl e) rfl rfl rfl)
  rw [failed.entry]; exact later

end Sys2Proof.Machine
end

/-! The shift records: contiguous, numbered, and summing to their length (R160 to R168). -/

section
namespace Sys2Proof.Machine

variable {s t : State}

/-! ### The agreement of the sets, by the stamps of the header sets -/

/-- What the agreement of a unit's sets with the header sets says, by the starts of the current and the closing header set
and the stamp of the noted cut. -/
def GenUnit.fitsShift (x : GenUnit) : Option Stamp → Option Stamp → Option Stamp → Prop
  | none, none, none => x.noShift
  | some h, none, none => x.inShift h.elapsed
  | some h, some g, some c => h = c ∧ g.elapsed ≤ c.elapsed ∧ x.inSettling g.elapsed c.elapsed
  | _, _, _ => False

theorem setsAgree_iff : s.setsAgree ↔
    ∀ u : UnitNo, s.tu[u].fitsShift (s.sh.current.map Header.start) (s.sh.closing.map Header.start) (s.sh.cut.map CutNoted.stamp) := by
  unfold State.setsAgree GenUnit.fitsShift
  cases s.sh.current <;> cases s.sh.closing <;> cases s.sh.cut <;> simp [forall_and]

theorem openStart_eq (h : ShiftHistory) : h.openStart = (h.closing.map Header.start).or (h.current.map Header.start) := by
  unfold ShiftHistory.openStart
  cases h.closing <;> rfl

theorem GenUnit.KeepsSets.fits {e : Nat} {x y : GenUnit} (h : x.KeepsSets e y) {a b c : Option Stamp}
    (fits : x.fitsShift a b c) : y.fitsShift a b c := by
  unfold GenUnit.fitsShift at *
  split
  · exact h.noShift fits
  · exact h.inShift _ fits
  · exact ⟨fits.1, fits.2.1, h.inSettling _ _ fits.2.1 fits.2.2⟩
  · next a b c _ _ _ =>
    split at fits <;> simp_all

/-! ### What the invariant needs of a state -/

/-- The shift records, the timers of the handover and the entry stamps: what the obligation states, with the part of the tally
equality that it needs. -/
structure State.ShiftCore (s : State) : Prop where
  shift : s.ShiftInv
  prompt : s.Prompt
  entries : ∀ u : UnitNo, s.tu[u].entry ≤ s.tb.e

/-- The records, the number and the stamps of the header sets are the same. -/
structure SameHeads (s t : State) : Prop where
  ring : t.sh.ring = s.sh.ring
  number : t.sh.number = s.sh.number
  current : t.sh.current.map Header.start = s.sh.current.map Header.start
  closing : t.sh.closing.map Header.start = s.sh.closing.map Header.start
  cut : t.sh.cut.map CutNoted.stamp = s.sh.cut.map CutNoted.stamp

/-- The timers of the handover and the arrived message are the same. -/
structure SameTimers (s t : State) : Prop where
  arrived : t.hc.arrived = s.hc.arrived
  timer : t.hc.timer = s.hc.timer
  settleEnd : t.hc.settleEnd = s.hc.settleEnd

theorem SameHeads.openStart (h : SameHeads s t) : t.sh.openStart = s.sh.openStart := by
  rw [openStart_eq, openStart_eq, h.closing, h.current]

theorem State.ShiftInv.of_same (h : s.ShiftInv) (heads : SameHeads s t) (tu : ∀ u : UnitNo, s.tu[u].KeepsSets s.tb.e t.tu[u])
    (e : t.tb.e = s.tb.e) : t.ShiftInv where
  ring := by rw [heads.ring]; exact h.ring
  whole := by rw [heads.ring]; exact h.whole
  chain := by rw [heads.ring]; exact h.chain
  last := by rw [heads.ring, heads.number, heads.openStart]; exact h.last
  sets := by
    have sets := setsAgree_iff.mp h.sets
    rw [setsAgree_iff, heads.current, heads.closing, heads.cut]
    exact fun u => (tu u).fits (sets u)
  starts := fun x hx => by
    have mapped : t.sh.current.map Header.start = some x.start := by rw [hx]; rfl
    rw [heads.current] at mapped
    obtain ⟨y, hy, same⟩ := Option.map_eq_some_iff.mp mapped
    rw [e, ← same]
    exact h.starts y hy

theorem State.Prompt.of_same (h : s.Prompt) (same : SameTimers s t) (e : t.tb.e = s.tb.e) : t.Prompt where
  arrived := by rw [same.arrived, e]; exact h.arrived
  window := by rw [same.timer, e]; exact h.window
  release := by rw [same.timer, e]; exact h.release
  settle := by rw [same.settleEnd, e]; exact h.settle

theorem State.ShiftCore.of_same (h : s.ShiftCore) (heads : SameHeads s t) (tu : ∀ u : UnitNo, s.tu[u].KeepsSets s.tb.e t.tu[u])
    (timers : SameTimers s t) (e : t.tb.e = s.tb.e) : t.ShiftCore :=
  ⟨h.shift.of_same heads tu e, h.prompt.of_same timers e, fun u => by rw [e]; exact (tu u).entry (h.entries u)⟩

theorem SameHeads.refl (s : State) : SameHeads s s := ⟨rfl, rfl, rfl, rfl, rfl⟩

theorem SameTimers.refl (s : State) : SameTimers s s := ⟨rfl, rfl, rfl⟩

theorem sameUnits {e : Nat} (same : t.tu = s.tu) (u : UnitNo) : s.tu[u].KeepsSets e t.tu[u] := by
  rw [same]; exact .refl ..

/-- One unit changed. -/
theorem keepsUnits {e : Nat} {u : UnitNo} {f : GenUnit → GenUnit} (tu : t.tu = modifyAt s.tu u f)
    (k : s.tu[u].KeepsSets e (f s.tu[u])) (j : UnitNo) : s.tu[j].KeepsSets e t.tu[j] := by
  rw [tu]
  exact forall_modifyAt (P := fun j (x : GenUnit) => s.tu[j].KeepsSets e x) (fun _ => .refl ..) k j

theorem SameHeads.count {f : Header → Header} (start : ∀ h, (f h).start = h.start) : SameHeads s (s.countCurrent f) := by
  refine ⟨rfl, rfl, ?_, rfl, rfl⟩
  show (s.sh.current.map f).map Header.start = _
  rw [Option.map_map]
  exact congrFun (congrArg Option.map (funext start)) _

theorem SameHeads.offer (r : EventRecord) : SameHeads s (s.offer r) := by
  refine ⟨by simp, by simp, ?_, by simp, by simp⟩
  obtain ⟨f, e, same⟩ := s.offer_sh_current r
  rw [e, Option.map_map]
  exact congrFun (congrArg Option.map (funext fun h => (same h).1)) _

theorem State.ShiftCore.apart {l : List Block} (h : s.ShiftCore) (w : Within l s t)
    (apart : (([.sh, .tu, .hc] : List Block).all fun b => !l.contains b) = true) (e : t.tb.e = s.tb.e) : t.ShiftCore := by
  simp only [List.all_cons, List.all_nil, Bool.and_true, Bool.and_eq_true, Bool.not_eq_true', List.contains_eq_mem,
    decide_eq_false_iff_not] at apart
  obtain ⟨sh, tu, hc⟩ := apart
  have sh : t.sh = s.sh := w.out .sh sh
  have hc : t.hc = s.hc := w.out .hc hc
  exact h.of_same ⟨by rw [sh], by rw [sh], by rw [sh], by rw [sh], by rw [sh]⟩ (sameUnits (w.out .tu tu))
    ⟨by rw [hc], by rw [hc], by rw [hc]⟩ e

theorem State.ShiftCore.offer (h : s.ShiftCore) (r : EventRecord) : (s.offer r).ShiftCore :=
  h.of_same (.offer r) (sameUnits (by simp)) ⟨by simp, by simp, by simp⟩ (by simp)

theorem State.ShiftCore.onHc (h : s.ShiftCore) {f : Handover → Handover} (timers : SameTimers s (s.onHc f)) :
    (s.onHc f).ShiftCore :=
  h.of_same ⟨rfl, rfl, rfl, rfl, rfl⟩ (sameUnits rfl) timers rfl

theorem State.ShiftCore.answer (h : s.ShiftCore) (k : DownKind) (m : ConsoleMsg) : (s.answer k m).ShiftCore := by
  have hc := s.answer_hc k m
  exact h.of_same ⟨rfl, rfl, rfl, rfl, rfl⟩ (sameUnits rfl) ⟨by rw [hc], by rw [hc], by rw [hc]⟩ rfl

theorem State.ShiftCore.announce (h : s.ShiftCore) (o : HState) (c : HCause) (k : RecClass) (n : Nat) :
    (s.announce o c k n).ShiftCore := by
  have hc := s.announce_hc o c k n
  have current : (s.announce o c k n).sh.current.map Header.start = s.sh.current.map Header.start :=
    (SameHeads.offer (s := s)
      (mkRecord .handover k n (hStateCode o) (hStateCode s.hc.state) (hCauseCode c) s.tb.now)).current
  exact h.of_same ⟨by simp, by simp, current, by simp, by simp⟩ (sameUnits (by simp)) ⟨by rw [hc], by rw [hc], by rw [hc]⟩
    (by simp)

/-! ### Cuts and the close of a shift -/

/-- With no shift open, no record stands in the ring and no shift set of a unit has a start. -/
theorem State.ShiftInv.closed (h : s.ShiftInv) (closed : s.sh.current = none) :
    s.sh.closing = none ∧ s.sh.cut = none ∧ s.sh.ring.head? = none ∧ ∀ u : UnitNo, s.tu[u].noShift := by
  have sets := h.sets
  unfold State.setsAgree at sets
  rw [closed] at sets
  cases closing : s.sh.closing with
  | some g => rw [closing] at sets; exact sets.elim
  | none =>
    cases cut : s.sh.cut with
    | some c => rw [closing, cut] at sets; exact sets.elim
    | none =>
      rw [closing, cut] at sets
      refine ⟨rfl, rfl, ?_, sets⟩
      cases newest : s.sh.ring.head? with
      | none => rfl
      | some r =>
        have start := (h.last r newest).2
        rw [openStart_eq, closing, closed] at start
        cases start

/-- The opening cut comes at E while no shift is open (R154, R160). -/
theorem State.ShiftCore.openingCut (h : s.ShiftCore) (closed : s.sh.current = none) {st : Stamp} (now : st.elapsed = s.tb.e) :
    (s.openingCut st).ShiftCore := by
  obtain ⟨closing, cut, idle, units⟩ := h.shift.closed closed
  have unit : ∀ u : UnitNo, (s.openingCut st).tu[u].inShift st.elapsed := fun u => by
    rw [openingCut_unit]
    refine ⟨rfl, (units u).2, ?_⟩
    have past := h.entries u
    show (ShiftSet.zero (some st.elapsed)).total = max s.tu[u].entry st.elapsed - st.elapsed
    rw [zero_total]
    omega
  refine ⟨⟨h.shift.ring, h.shift.whole, h.shift.chain, fun r newest => ?_, ?_, fun x hx => ?_⟩,
    ⟨h.prompt.arrived, h.prompt.window, h.prompt.release, h.prompt.settle⟩, fun u => ?_⟩
  · rw [show (s.openingCut st).sh.ring.head? = none from idle] at newest
    cases newest
  · rw [setsAgree_iff]
    intro u
    show GenUnit.fitsShift _ (some st) (s.sh.closing.map Header.start) (s.sh.cut.map CutNoted.stamp)
    rw [closing, cut]
    exact unit u
  · obtain rfl := Option.some.inj hx
    exact Nat.le_of_eq now
  · rw [openingCut_unit]; exact h.entries u

theorem State.ShiftCore.takeOpeningCut (h : s.ShiftCore) (closed : s.sh.current = none) {e : Nat} (now : e = s.tb.e) :
    (s.takeOpeningCut e).ShiftCore :=
  State.ShiftCore.onHc (h.openingCut closed (by rw [stampOf_elapsed]; exact now)) ⟨rfl, rfl, rfl⟩

/-- A cut comes at E while a shift is open and none is closing (R154, R161). -/
theorem State.ShiftCore.makeCut (h : s.ShiftCore) {k : CloseKind} (opened : s.sh.current.isSome = true) (closing : s.sh.closing = none)
    {e : Nat} (now : e = s.tb.e) : (s.makeCut k e).ShiftCore := by
  obtain ⟨g, current⟩ := Option.isSome_iff_exists.mp opened
  have sets := setsAgree_iff.mp h.shift.sets
  rw [current, closing] at sets
  have cut : s.sh.cut = none := by
    cases cut : s.sh.cut with
    | none => rfl
    | some c => rw [cut] at sets; exact (sets 0).elim
  rw [cut] at sets
  have before : g.start.elapsed ≤ e := now ▸ h.shift.starts g current
  have stamp : (stampOf s.tb.vals e).elapsed = e := stampOf_elapsed ..
  have unit : ∀ u : UnitNo, (s.makeCut k e).tu[u] = { s.tu[u] with next := some (ShiftSet.zero (some e)) } := fun u => by
    have noted := noteCut_unit k (stampOf s.tb.vals e) s u
    rw [stamp] at noted
    exact noted
  have heads : (s.makeCut k e).sh.closing = some g := current
  refine ⟨⟨h.shift.ring, h.shift.whole, h.shift.chain, fun r newest => ?_, ?_, fun x hx => ?_⟩,
    ⟨h.prompt.arrived, nofun, nofun, fun x hx => ?_⟩, fun u => ?_⟩
  · obtain ⟨number, start⟩ := h.shift.last r newest
    refine ⟨number, ?_⟩
    rw [openStart_eq, heads]
    rw [openStart_eq, closing, current] at start
    exact start
  · rw [setsAgree_iff, heads]
    intro u
    show GenUnit.fitsShift _ (some (stampOf s.tb.vals e)) (some g.start) (some (stampOf s.tb.vals e))
    refine ⟨rfl, by rw [stamp]; exact before, ?_⟩
    rw [stamp, unit]
    obtain ⟨start, -, total⟩ : s.tu[u].inShift g.start.elapsed := sets u
    have past := h.entries u
    refine ⟨start, ?_, _, rfl, rfl, ?_⟩
    · show s.tu[u].cur.total = min (max s.tu[u].entry g.start.elapsed) e - g.start.elapsed
      rw [total]; omega
    · show (ShiftSet.zero (some e)).total = max s.tu[u].entry e - e
      rw [zero_total]; omega
  · obtain rfl := Option.some.inj hx
    exact Nat.le_of_eq (stamp.trans now)
  · obtain rfl : e + 320 = x := Option.some.inj hx
    show s.tb.e ≤ e + 320
    omega
  · rw [unit]; exact h.entries u

theorem State.ShiftCore.takeCut (h : s.ShiftCore) (k : CloseKind) (c : HCause) (opened : s.sh.current.isSome = true)
    (closing : s.sh.closing = none) {e : Nat} (now : e = s.tb.e) : (s.takeCut k c e).ShiftCore :=
  State.ShiftCore.announce (h.makeCut opened closing now) ..

/-- What step 1 of the settle end makes of a unit's current set: the time from the start to the cut (R166). -/
theorem closeInterval_total {x : GenUnit} {a c : Nat} (le : a ≤ c) (h : x.inSettling a c) :
    (x.closeInterval c).cur.total = c - a := by
  obtain ⟨start, total, -⟩ := h
  unfold GenUnit.closeInterval
  rw [start]
  show (x.cur.credit x.mode (c - max x.entry a)).total = c - a
  rw [credit_total, total]
  omega

theorem promote_inShift {x : GenUnit} {a c : Nat} (h : x.inSettling a c) : ((x.closeInterval c).promote c).inShift c := by
  obtain ⟨start, -, n, next, nstart, ntotal⟩ := h
  unfold GenUnit.closeInterval
  rw [start]
  simp only [GenUnit.promote, next, Option.getD_some]
  exact ⟨nstart, rfl, ntotal⟩

theorem contiguous_take {l : List ShiftRecord} (h : contiguous l) (n : Nat) : contiguous (l.take n) := by
  induction l generalizing n with
  | nil => simpa using h
  | cons r l ih =>
    cases n with
    | zero => trivial
    | succ n =>
      cases l with
      | nil => simpa using h
      | cons q l =>
        cases n with
        | zero => trivial
        | succ n => exact ⟨h.1, ih h.2 (n + 1)⟩

/-- The record that the settle end makes (R166, R167). -/
def State.closingRecord (s : State) (c : CutNoted) (g : Header) : ShiftRecord :=
  shiftRecordOf s.sh.number s.sh.openingMissed c g (Vector.ofFn fun u => s.tu[u].closeInterval c.stamp.elapsed)

theorem closeShift_sh {c : CutNoted} {g : Header} (cut : s.sh.cut = some c) (closing : s.sh.closing = some g) :
    s.closeShift.sh.ring = (s.closingRecord c g :: s.sh.ring).take 16 ∧ s.closeShift.sh.number = nextShiftNumber s.sh.number ∧
      s.closeShift.sh.closing = none ∧ s.closeShift.sh.cut = none ∧
      s.closeShift.sh.current.map Header.start = s.sh.current.map Header.start := by
  have told : ∀ x : State, x.sh.current = s.sh.current →
      (x.offer (shiftClosedRecord c)).sh.current.map Header.start = s.sh.current.map Header.start := fun x same => by
    rw [(SameHeads.offer (s := x) (shiftClosedRecord c)).current, same]
  unfold State.closingRecord
  simp only [State.closeShift, cut, closing]
  refine ⟨by simp, by simp, trivial, trivial, ?_⟩
  rw [Option.map_map]
  exact told _ rfl

/-- The settle end: the record joins the ring and the next sets become the current ones (R166, R168). -/
theorem State.ShiftInv.closeShift (h : s.ShiftInv) : s.closeShift.ShiftInv := by
  cases cut : s.sh.cut with
  | none => rw [closeShift_of_none (.inl cut)]; exact h
  | some c =>
    cases closing : s.sh.closing with
    | none => rw [closeShift_of_none (.inr closing)]; exact h
    | some g =>
      obtain ⟨ring, number, noClosing, noCut, current⟩ := closeShift_sh cut closing
      have sets := setsAgree_iff.mp h.sets
      rw [cut, closing] at sets
      cases opened : s.sh.current with
      | none => rw [opened] at sets; exact (sets 0).elim
      | some n =>
        rw [opened] at sets current
        obtain ⟨begins, before, -⟩ := sets 0
        have before : g.start.elapsed ≤ c.stamp.elapsed := before
        have e : s.closeShift.tb.e = s.tb.e := congrArg Timebase.e ((closeShift_within s).out .tb (by decide))
        have unit : ∀ u : UnitNo, s.tu[u].inSettling g.start.elapsed c.stamp.elapsed := fun u => (sets u).2.2
        have whole : (s.closingRecord c g).whole := by
          refine ⟨before, fun u => ?_⟩
          have total := closeInterval_total before (unit u)
          unfold ShiftSet.total at total
          rw [← show (s.closingRecord c g).units[u].durations = (s.tu[u].closeInterval c.stamp.elapsed).cur.durations by
            simp [State.closingRecord, shiftRecordOf, shiftUnitOf]] at total
          exact total
        have follows : contiguous (s.closingRecord c g :: s.sh.ring) := by
          cases records : s.sh.ring with
          | nil => trivial
          | cons q l =>
            obtain ⟨numbered, start⟩ := h.last q (by rw [records]; rfl)
            rw [openStart_eq, closing] at start
            have chain := h.chain
            rw [records] at chain
            exact ⟨⟨Option.some.inj start, numbered⟩, chain⟩
        refine ⟨?_, fun r hr => ?_, ?_, fun r newest => ?_, ?_, fun x hx => ?_⟩
        · rw [ring]; exact List.length_take_le ..
        · rw [ring] at hr
          rcases List.mem_cons.mp (List.mem_of_mem_take hr) with rfl | older
          · exact whole
          · exact h.whole r older
        · rw [ring]; exact contiguous_take follows 16
        · rw [ring] at newest
          obtain rfl := Option.some.inj newest
          refine ⟨number, ?_⟩
          rw [openStart_eq, noClosing, current]
          exact congrArg some begins
        · rw [setsAgree_iff, noClosing, noCut, current]
          intro u
          rw [closeShift_unit cut closing]
          show GenUnit.inShift n.start.elapsed _
          rw [show n.start = c.stamp from begins]
          exact promote_inShift (unit u)
        · have mapped : s.closeShift.sh.current.map Header.start = some x.start := by rw [hx]; rfl
          rw [current] at mapped
          rw [e, ← Option.some.inj mapped]
          exact h.starts n opened

theorem closeShift_entry (s : State) (u : UnitNo) : s.closeShift.tu[u].entry = s.tu[u].entry := by
  have same := closeShift_sameTally s u
  unfold GenUnit.SameTally at same
  rw [same]

theorem State.ShiftCore.closeShift (h : s.ShiftCore) : s.closeShift.ShiftCore := by
  have w := closeShift_within s
  have hc : s.closeShift.hc = s.hc := w.out .hc (by decide)
  have e : s.closeShift.tb.e = s.tb.e := congrArg Timebase.e (w.out .tb (by decide))
  exact ⟨h.shift.closeShift, h.prompt.of_same ⟨by rw [hc], by rw [hc], by rw [hc]⟩ e,
    fun u => by rw [closeShift_entry, e]; exact h.entries u⟩

end Sys2Proof.Machine
end

/-! The commands of the handover and the shift records (R160 to R168). -/

section
namespace Sys2Proof.Machine

variable {s t : State}

/-- A change of the handover's timers that leaves none of them behind E. -/
theorem State.ShiftCore.onTimers (h : s.ShiftCore) {f : Handover → Handover} (prompt : (s.onHc f).Prompt) :
    (s.onHc f).ShiftCore :=
  ⟨h.shift.of_same ⟨rfl, rfl, rfl, rfl, rfl⟩ (sameUnits rfl) rfl, prompt, h.entries⟩

/-- A new schedule re-seats the last reached boundary at most (R138, R141). -/
theorem seatedSchedule_eq (l : List Nat) (s : State) :
    ∃ x, (if (s.onHc fun h => { h with schedule := l }).tb.unset then s.onHc fun h => { h with schedule := l }
      else (s.onHc fun h => { h with schedule := l }).reseat) = s.onHc fun h => { h with schedule := l, lastReached := x } := by
  split
  · exact ⟨s.hc.lastReached, rfl⟩
  · exact ⟨_, rfl⟩

/-! ### A boundary reached (R148, R155) -/

/-- What a boundary that cuts the shift needs: an open shift has its header set, and none is closing. -/
structure State.CutReady (s : State) : Prop where
  header : s.sh.current.isSome = s.hc.shiftOpen
  opened : s.hc.state = .onShift → s.hc.shiftOpen = true
  closing : s.hc.state = .onShift ∨ s.hc.state = .noDuty → s.sh.closing = none

theorem State.HandoverInv.cutReady (d : s.HandoverInv) : s.CutReady where
  header := d.header
  opened state := d.opened (by rw [state]; nofun)
  closing state := (d.plain (by rcases state with e | e <;> rw [e] <;> nofun) (by rcases state with e | e <;> rw [e] <;> nofun)).closing

theorem State.CutReady.announce (d : s.CutReady) (o : HState) (c : HCause) (k : RecClass) (n : Nat) :
    (s.announce o c k n).CutReady := by
  have hc := s.announce_hc o c k n
  obtain ⟨f, current, -⟩ :=
    s.offer_sh_current (mkRecord .handover k n (hStateCode o) (hStateCode s.hc.state) (hCauseCode c) s.tb.now)
  have header : (s.announce o c k n).sh.current.isSome = s.sh.current.isSome := by
    show (s.offer _).sh.current.isSome = _
    rw [current, Option.isSome_map]
  refine ⟨?_, ?_, ?_⟩
  · rw [header, hc]; exact d.header
  · rw [hc]; exact d.opened
  · rw [hc, State.announce_sh_closing]; exact d.closing

theorem State.HandoverInv.shut (d : s.HandoverInv) (shut : ¬s.hc.shiftOpen = true) : s.sh.current = none := by
  have header := d.header
  rw [Bool.eq_false_iff.mpr shut] at header
  exact Option.isNone_iff_eq_none.mp (Option.isSome_eq_false_iff.mp header)

namespace State.ShiftCore

theorem holdAtBoundary (h : s.ShiftCore) (x : Resume) (r : Nat) : (s.holdAtBoundary x r).ShiftCore := by
  have held := h.onHc (f := fun h => { h with state := .held, resume := x, heldSince := some r }) ⟨rfl, rfl, rfl⟩
  exact held.announce ..

theorem openWindow (h : s.ShiftCore) {r : Nat} (now : r = s.tb.e) : (s.openWindow r).ShiftCore := by
  unfold State.openWindow
  dsimp only
  split
  · exact h.holdAtBoundary ..
  · have opened := h.onTimers
      (f := fun h => { h with state := .windowOpen, timer := .window (r + s.ml.params.handoverWindow * ticksPerMinute) })
      ⟨h.prompt.arrived, fun x hx => by
        obtain rfl := HTimer.window.inj hx
        show s.tb.e ≤ _
        omega, nofun, h.prompt.settle⟩
    exact opened.announce ..

theorem cutAtBoundary (h : s.ShiftCore) (k : CloseKind) (x : Resume) (opened : s.sh.current.isSome = true)
    (closing : s.sh.closing = none) {r : Nat} (now : r = s.tb.e) : (s.cutAtBoundary k x r).ShiftCore := by
  unfold State.cutAtBoundary
  split
  · exact h.holdAtBoundary ..
  · exact h.takeCut _ _ opened closing now

theorem actBoundary (h : s.ShiftCore) (d : s.CutReady) (b : BoundaryId) {r : Nat} (now : r = s.tb.e) :
    (s.actBoundary b r).ShiftCore := by
  have noted : (s.onHc (Handover.noteBoundary b)).ShiftCore := h.onHc ⟨rfl, rfl, rfl⟩
  have missed : (s.onHc fun h => (h.noteBoundary b).miss 1).ShiftCore := h.onHc ⟨rfl, rfl, rfl⟩
  unfold State.actBoundary
  split
  · next state _ =>
    split
    · next opened => exact noted.cutAtBoundary _ _ (d.header.trans opened) (d.closing (.inr state)) now
    · exact h
  · exact h
  · exact noted.openWindow now
  · next state _ => exact noted.cutAtBoundary _ _ (d.header.trans (d.opened state)) (d.closing (.inl state)) now
  · exact missed
  · exact missed
  · exact missed
  · exact noted.openWindow now
  · exact noted
  · refine h.onHc ⟨?_, ?_, ?_⟩ <;> (simp only [State.onHc]; split <;> rfl)

theorem evaluate (h : s.ShiftCore) (d : s.CutReady) : s.evaluate.ShiftCore := by
  unfold State.evaluate
  dsimp only
  split
  · exact h
  · split
    · exact h
    · next b _ _ =>
      have reached := h.onHc (f := fun h =>
        { h.miss (passedCount s.hc.schedule.length (latestBoundary s.hc.schedule s.localNow) s.hc.lastReached s.hc.reachMark - 1)
          with lastReached := some b, reachMark := some b }) ⟨rfl, rfl, rfl⟩
      exact reached.actBoundary ⟨d.header, d.opened, d.closing⟩ b rfl

theorem reseat (h : s.ShiftCore) : s.reseat.ShiftCore := h.onHc ⟨rfl, rfl, rfl⟩

theorem onLocalTime (h : s.ShiftCore) (d : s.CutReady) (b : Bool) : (s.onLocalTime b).ShiftCore := by
  unfold State.onLocalTime
  split
  · exact h
  · split
    · exact h.reseat
    · exact h.evaluate d

/-! ### The incident hold (R150, R151) -/

theorem onCt (h : s.ShiftCore) (f : Cascades → Cascades) : (s.onCt f).ShiftCore := h.apart (onCt_within f s) rfl rfl

theorem holdAtIncident (h : s.ShiftCore) (x : Resume) : (s.holdAtIncident x).ShiftCore := by
  have held := h.onTimers (f := fun h => { h with state := .held, resume := x, timer := .none, heldSince := some s.tb.e })
    ⟨h.prompt.arrived, nofun, nofun, h.prompt.settle⟩
  exact held.announce ..

theorem incidentBegins (h : s.ShiftCore) : s.incidentBegins.ShiftCore := by
  unfold State.incidentBegins
  split
  · exact h.holdAtIncident _
  · exact h.holdAtIncident _
  · exact h.holdAtIncident _
  all_goals exact h

theorem resumeTo (h : s.ShiftCore) (x : HState) {y : HTimer} (window : ∀ n, y = .window n → s.tb.e ≤ n)
    (release : ∀ n, y = .release n → s.tb.e ≤ n) : (s.resumeTo x y).ShiftCore := by
  have resumed := h.onTimers (f := fun h => { h with state := x, timer := y, resume := .none })
    ⟨h.prompt.arrived, window, release, h.prompt.settle⟩
  exact resumed.announce ..

/-- The end of the incident: a cut that was held comes at E (R151). -/
theorem incidentEnds (h : s.ShiftCore) (ready : s.hc.state = .held → s.sh.current.isSome = true ∧ s.sh.closing = none) :
    s.incidentEnds.ShiftCore := by
  unfold State.incidentEnds
  split
  · next held =>
    obtain ⟨opened, closing⟩ := ready held
    have counted := h.onHc (f := fun h =>
      { h with heldTicks := h.heldTicks + (s.tb.e - h.heldSince.getD s.tb.e), heldSince := none }) ⟨rfl, rfl, rfl⟩
    have cut : ∀ k : CloseKind, (((s.onHc fun h =>
        { h with heldTicks := h.heldTicks + (s.tb.e - h.heldSince.getD s.tb.e), heldSince := none }).onHc fun h =>
          { h with resume := .none }).takeCut k .incidentEnd s.tb.e).ShiftCore := fun k =>
      State.ShiftCore.takeCut (counted.onHc (f := fun h => { h with resume := .none }) ⟨rfl, rfl, rfl⟩) k _ opened closing rfl
    dsimp only
    split
    · exact counted.resumeTo _ (fun n hn => HTimer.window.inj hn ▸ Nat.le_add_right ..) nofun
    · exact counted.resumeTo _ nofun (fun n hn => HTimer.release.inj hn ▸ Nat.le_add_right ..)
    · exact counted.resumeTo _ nofun nofun
    · exact cut _
    · exact cut _
    · exact counted
  all_goals exact h

end State.ShiftCore

theorem State.HandoverInv.heldReady (d : s.HandoverInv) (held : s.hc.state = .held) :
    s.sh.current.isSome = true ∧ s.sh.closing = none := by
  refine ⟨d.header.trans (d.opened (by rw [held]; nofun)), ?_⟩
  have closing := d.closing
  rw [held] at closing
  exact Option.isNone_iff_eq_none.mp (Option.isSome_eq_false_iff.mp closing)

namespace State.ShiftCore

theorem evalIncident (h : s.ShiftCore) (d : s.HandoverInv) : s.evalIncident.ShiftCore := by
  unfold State.evalIncident
  split
  · exact (h.onCt _).incidentBegins
  · exact (h.onCt _).incidentEnds d.heldReady
  · exact h
  · exact h

/-! ### Console messages (R147) -/

theorem takeClaim (h : s.ShiftCore) (d : s.HandoverInv) {m : ConsoleMsg} (now : m.arrival = s.tb.e) :
    (s.takeClaim m).ShiftCore := by
  have answered : ∀ k, (s.answer k m).ShiftCore := fun k => h.answer k m
  unfold State.takeClaim State.refuseAuto State.refuseMsg
  split
  · split <;> exact answered _
  · split
    · have opened : (if s.hc.shiftOpen then s else s.takeOpeningCut m.arrival).ShiftCore := by
        split
        · exact h
        · next shut => exact h.takeOpeningCut (d.shut shut) now
      have entered := opened.onHc (f := fun h => { h with duty := some m.console, state := .onShift }) ⟨rfl, rfl, rfl⟩
      exact (entered.answer .confirm m).announce ..
    all_goals exact answered _

theorem acceptFrom (h : s.ShiftCore) {m : ConsoleMsg} (now : m.arrival = s.tb.e) : (s.acceptFrom m).ShiftCore := by
  have accepted := h.onTimers (f := fun h =>
      { h with incoming := some m.console, state := .accepted,
               timer := .release (m.arrival + s.ml.params.releaseLimit * ticksPerMinute) })
    ⟨h.prompt.arrived, nofun, fun x hx => by
        obtain rfl := HTimer.release.inj hx
        show s.tb.e ≤ _
        omega, h.prompt.settle⟩
  exact (accepted.answer .confirm m).announce ..

theorem takeAccept (h : s.ShiftCore) {m : ConsoleMsg} (now : m.arrival = s.tb.e) : (s.takeAccept m).ShiftCore := by
  have answered : ∀ k, (s.answer k m).ShiftCore := fun k => h.answer k m
  unfold State.takeAccept State.refuseAuto State.refuseMsg
  split
  · split <;> exact answered _
  · split
    · exact answered _
    · exact answered _
    · split
      · exact answered _
      · exact h.acceptFrom now
    · split
      · exact answered _
      · exact h.acceptFrom now
    · split
      · exact answered _
      · split <;> exact answered _
    · exact answered _
    · exact answered _

/-- A cut in ACCEPTED at E: a shift is open and none is closing. -/
theorem cutAccepted (h : s.ShiftCore) (d : s.HandoverInv) (state : s.hc.state = .accepted) (k : CloseKind) {e : Nat}
    (now : e = s.tb.e) : (s.makeCut k e).ShiftCore :=
  h.makeCut (d.header.trans (d.opened (by rw [state]; nofun)))
    (d.plain (by rw [state]; nofun) (by rw [state]; nofun)).closing now

theorem takeRelease (h : s.ShiftCore) (d : s.HandoverInv) {m : ConsoleMsg} (now : m.arrival = s.tb.e) :
    (s.takeRelease m).ShiftCore := by
  have answered : ∀ k, (s.answer k m).ShiftCore := fun k => h.answer k m
  unfold State.takeRelease State.refuseAuto State.refuseMsg
  split
  · split <;> exact answered _
  · split
    · exact answered _
    · split <;> exact answered _
    · split <;> exact answered _
    · split <;> exact answered _
    · next state =>
      split
      · have cut := h.cutAccepted d state (if s.hc.overrun then .late else .normal) now
        exact (cut.answer .confirm m).announce ..
      · exact answered _
    · exact answered _
    · exact answered _

theorem takeQuery (h : s.ShiftCore) (m : ConsoleMsg) : (s.takeQuery m).ShiftCore := by
  unfold State.takeQuery State.refuseAuto State.refuseMsg
  split
  · split <;> exact h.answer ..
  · split <;> exact h.answer ..

theorem takeMessage (h : s.ShiftCore) (d : s.HandoverInv) {m : ConsoleMsg} (now : m.arrival = s.tb.e) :
    (s.takeMessage m).ShiftCore := by
  unfold State.takeMessage
  split
  · exact h.takeClaim d now
  · exact h.takeAccept now
  · exact h.takeRelease d now
  · exact h.takeQuery m

theorem takeArrived (h : s.ShiftCore) (d : s.HandoverInv) (k : ConsoleKind) : (s.takeArrived k).ShiftCore := by
  unfold State.takeArrived
  split
  · exact h
  · next m arrived =>
    split
    · have cleared := h.onTimers (f := fun h => { h with arrived := none })
        ⟨nofun, h.prompt.window, h.prompt.release, h.prompt.settle⟩
      have items : (s.onHc fun h => { h with arrived := none }).HandoverInv :=
        d.of_same ⟨rfl, rfl, rfl, rfl, rfl, rfl, rfl, rfl, rfl, rfl, rfl, rfl, rfl, rfl, d.queue⟩
      exact cleared.takeMessage items (h.prompt.arrived m arrived)
    · exact h

/-! ### Timers and the end of SETTLING (R149, R155) -/

theorem windowExpires (h : s.ShiftCore) : s.windowExpires.ShiftCore := by
  unfold State.windowExpires
  split
  · split
    · have expired := h.onTimers (f := fun h => { h with state := .overrun, timer := .none, overrun := true })
        ⟨h.prompt.arrived, nofun, nofun, h.prompt.settle⟩
      exact expired.announce ..
    · exact h
  · exact h

theorem releaseExpires (h : s.ShiftCore) (d : s.HandoverInv) : s.releaseExpires.ShiftCore := by
  unfold State.releaseExpires
  split
  · next x state timer =>
    split
    · next due =>
      have cut := h.cutAccepted d state .forced (Nat.le_antisymm due (h.prompt.release x timer))
      exact cut.announce ..
    · exact h
  · exact h

theorem leaveSettling (h : s.ShiftCore) {k : CloseKind} {x : Nat} (header : s.sh.current.isSome = s.hc.shiftOpen)
    (opened : s.hc.shiftOpen = true) (closing : s.sh.closing = none) (now : x = s.tb.e) : (s.leaveSettling k x).ShiftCore := by
  have left := h.onTimers (f := fun h =>
      { h with state := (afterSettling k s.hc.incoming).1, duty := (afterSettling k s.hc.incoming).2, incoming := none,
               settleEnd := none })
    ⟨h.prompt.arrived, h.prompt.window, h.prompt.release, nofun⟩
  have told := left.announce .settling .settled .b (consoleCode (afterSettling k s.hc.incoming).2)
  unfold State.leaveSettling
  dsimp only
  split
  · exact told
  · next b _ =>
    have cleared := told.onHc (f := fun h => { h with deferred := none }) ⟨rfl, rfl, rfl⟩
    have ready : (s.onHc fun h =>
        { h with state := (afterSettling k s.hc.incoming).1, duty := (afterSettling k s.hc.incoming).2, incoming := none,
                 settleEnd := none }).CutReady := ⟨header, fun _ => opened, fun _ => closing⟩
    obtain ⟨header, opened, closing⟩ := ready.announce .settling .settled .b (consoleCode (afterSettling k s.hc.incoming).2)
    exact cleared.actBoundary ⟨header, opened, closing⟩ b (by simpa using now)

theorem settleEnds (h : s.ShiftCore) (d : s.HandoverInv) : s.settleEnds.ShiftCore := by
  unfold State.settleEnds
  split
  · next x c state timer cut =>
    split
    · next due =>
      have hc : s.closeShift.hc = s.hc := (closeShift_within s).out .hc (by decide)
      have e : s.closeShift.tb.e = s.tb.e := channelBlocks_e (closeShift_within s) rfl
      obtain ⟨g, closing⟩ := Option.isSome_iff_exists.mp (d.closing.trans (by rw [state]; rfl))
      refine h.closeShift.leaveSettling ?_ ?_ (closeShift_ended cut closing).2 ?_
      · rw [hc, closeShift_current]; exact d.header
      · rw [hc]; exact d.opened (by rw [state]; nofun)
      · rw [e]; exact Nat.le_antisymm due (h.prompt.settle x timer)
    · exact h
  · exact h

/-! ### The requests (R137, R138, R153) -/

theorem onParams (h : s.ShiftCore) (f : Params → Params) : (s.onParams f).ShiftCore :=
  h.apart ((onMl_within ..)) rfl rfl

theorem enterAutoShift (h : s.ShiftCore) (o : HState) (c : HCause) : (s.enterAutoShift o c).ShiftCore := by
  have entered := h.onHc (f := fun h => { h with state := .onShift, duty := none }) ⟨rfl, rfl, rfl⟩
  exact entered.announce ..

theorem writeMode (h : s.ShiftCore) (d : s.HandoverInv) (v : SchedMode) : (s.writeMode v).ShiftCore := by
  have written := h.onParams fun p => { p with scheduleMode := v }
  unfold State.writeMode
  split
  · exact h
  · dsimp only
    split
    · unfold State.toAuto
      split
      · split
        · exact written
        · exact written.enterAutoShift _ _
      · split
        · exact written.enterAutoShift _ _
        · next shut =>
          split
          · exact written
          · have opened := written.takeOpeningCut (d.shut shut) rfl
            exact opened.enterAutoShift _ _
      all_goals exact written
    · unfold State.toConsole
      split
      · have left := written.onHc (f := fun h => { h with state := .noDuty }) ⟨rfl, rfl, rfl⟩
        exact left.announce ..
      · exact written

theorem writeOffset (h : s.ShiftCore) (d : s.CutReady) (v : Int) : (s.writeOffset v).ShiftCore := by
  have written := h.onParams fun p => { p with localOffset := v }
  unfold State.writeOffset
  dsimp only
  split
  · exact written
  · split
    · exact written.reseat
    · exact written.evaluate ⟨d.header, d.opened, d.closing⟩

theorem writeSchedule (h : s.ShiftCore) (d : s.HandoverInv) (l : List Nat) : (s.writeSchedule l).ShiftCore := by
  obtain ⟨x, seated⟩ := seatedSchedule_eq l s
  have written := h.onHc (f := fun h => { h with schedule := l, lastReached := x }) ⟨rfl, rfl, rfl⟩
  unfold State.writeSchedule
  dsimp only
  rw [seated]
  split
  · next opens =>
    have opened := written.takeOpeningCut (d.shut (by simpa using opens.2)) rfl
    exact opened.enterAutoShift _ _
  · exact written

/-! ### The units (R160, R162) -/

theorem countCurrent (h : s.ShiftCore) {f : Header → Header} (start : ∀ h, (f h).start = h.start) :
    (s.countCurrent f).ShiftCore :=
  h.of_same (.count start) (sameUnits rfl) ⟨rfl, rfl, rfl⟩ rfl

theorem onUnit (h : s.ShiftCore) {u : UnitNo} {f : GenUnit → GenUnit} (k : s.tu[u].KeepsSets s.tb.e (f s.tu[u])) :
    (s.onUnit u f).ShiftCore :=
  h.of_same ⟨rfl, rfl, rfl, rfl, rfl⟩ (keepsUnits rfl k) ⟨rfl, rfl, rfl⟩ rfl

theorem failAttempt (h : s.ShiftCore) (u : UnitNo) (r : FailReason) (old new : UnitMode) (st : Stamp) :
    (s.failAttempt u r old new st).ShiftCore := by
  unfold State.failAttempt
  split
  · exact h
  · exact (h.onUnit ((fail_sameSets _ _).keeps _)).offer _

theorem eventChange (h : s.ShiftCore) (u : UnitNo) (m : UnitMode) : (s.eventChange u m).ShiftCore := by
  unfold State.eventChange
  dsimp only
  split
  · exact h
  · exact (h.onUnit (keepsSets_enter m (h.entries u) (Nat.le_refl _))).failAttempt ..

theorem sourceChange (h : s.ShiftCore) (u : UnitNo) {stamp : Nat} (past : stamp ≤ s.tb.e) (v : StationVals) :
    (s.sourceChange u stamp v).ShiftCore := by
  have succeeded : ∀ {t : State} (st : Nat), t.ShiftCore → (t.onUnit u (GenUnit.succeed st)).ShiftCore := fun st g =>
    g.onUnit ((succeed_sameSets _ _).keeps _)
  unfold State.sourceChange
  dsimp only
  split
  · exact h
  · have entered := h.onUnit (u := u) (keepsSets_enter (derivedMode s u) (Nat.le_max_right stamp _)
      (Nat.max_le.mpr ⟨past, h.entries u⟩))
    unfold State.settleAttempt
    split
    · split
      · exact succeeded _ entered
      · split
        · exact entered.failAttempt ..
        · split
          · exact entered.failAttempt ..
          · exact entered
    · split
      · have opened := entered.onUnit (u := u) ((openAttempt_sameSets (max stamp s.tu[u].entry) _).keeps _)
        dsimp only
        split
        · exact succeeded _ opened
        · exact opened
      · exact entered

theorem attributeCascade (h : s.ShiftCore) (g : Group) (ch : Chan) (st : Nat) (load : Bool) :
    (s.attributeCascade g ch st load).ShiftCore := by
  have counted : ∀ h : Header, (Header.countCascade g ch load h).start = h.start := fun h => by
    unfold Header.countCascade
    split <;> rfl
  unfold State.attributeCascade
  split
  · split
    · refine h.of_same ⟨rfl, rfl, rfl, ?_, rfl⟩ (sameUnits rfl) ⟨rfl, rfl, rfl⟩ rfl
      simp [Option.map_map, Function.comp_def, counted]
    · exact h.countCurrent counted
  · exact h.countCurrent counted

theorem countTrip (h : s.ShiftCore) (g : Group) (load : Bool) : (s.countTrip g load).ShiftCore := by
  unfold State.countTrip
  split
  · next u _ =>
    have same : s.tu[u].SameSets (GenUnit.countTrip load s.tu[u]) := ⟨rfl, rfl, rfl, rfl⟩
    exact h.onUnit (same.keeps _)
  · exact h

end State.ShiftCore

/-! ### The commands -/

theorem shiftCore_loopKept : LoopKept State.ShiftCore :=
  .of_apart (fun w e h => h.apart w rfl e) (fun _ h => h.apart (onMl_within ..) rfl rfl) fun r _ h => h.offer r

theorem shiftCore_recordKept : RecordKept State.ShiftCore where
  apart w h := h.apart w rfl (channelBlocks_e w rfl)
  link _ h := h.apart (onMl_within ..) rfl rfl
  count start h := h.countCurrent start
  failAttempt u r old new st h := h.failAttempt u r old new st
  eventChange u m h := h.eventChange u m

/-- What the records and the handover items need of each other. -/
def State.ShiftKept (s : State) : Prop := s.HandoverInv ∧ s.ShiftCore

theorem shiftKept_offsetKept : OffsetKept State.ShiftKept where
  quiet w e h := ⟨handoverInv_offsetKept.quiet w e h.1, h.2.apart w rfl e⟩
  takeClass {s} h := by
    refine ⟨handoverInv_offsetKept.takeClass h.1, ?_⟩
    unfold State.takeClass
    split
    · exact h.2
    · refine h.2.of_same ⟨rfl, rfl, ?_, rfl, rfl⟩ (sameUnits rfl) ⟨rfl, rfl, rfl⟩ rfl
      simp [State.countCurrent, Option.map_map, Function.comp_def]
  offer r other h := ⟨h.1.offer r, h.2.offer r⟩
  localTime b h := ⟨h.1.onLocalTime b, h.2.onLocalTime h.1.cutReady b⟩

theorem shiftKept_incidentKept : IncidentKept State.ShiftKept where
  offer r _ h := ⟨h.1.offer r, h.2.offer r⟩
  slots same h := ⟨handoverInv_incidentKept.slots same h.1, h.2.onCt _⟩
  evalIncident h := ⟨h.1.evalIncident, h.2.evalIncident h.1⟩
  cascadeOpened u h := ⟨handoverInv_incidentKept.cascadeOpened u h.1, h.2.failAttempt ..⟩
  countTrip g load h := ⟨handoverInv_incidentKept.countTrip g load h.1, h.2.countTrip g load⟩
  attributeCascade g ch st load h := ⟨handoverInv_incidentKept.attributeCascade g ch st load h.1, h.2.attributeCascade g ch st load⟩

/-! ### The look (R59, R144) -/

theorem consoleMessage_arrival {c : Console} {o0 o1 o2 o3 : Octet} {e : Nat} {m : ConsoleMsg}
    (h : consoleMessage c o0 o1 o2 o3 e = some m) : m.arrival = e := by
  unfold consoleMessage at h
  split at h
  · cases h
  · split at h
    · obtain rfl := Option.some.inj h; rfl
    · cases h

/-- A message that a look completes arrives at E. -/
theorem Handover.look_arrival {u : Uplink} {e : Nat} {h : Handover} {m : ConsoleMsg} (taken : (h.look u e).2 = some m) :
    m.arrival = e := by
  have taken : (h.takeHalf u e (frameNumber e)).2 = some m := taken
  unfold Handover.takeHalf at taken
  split at taken
  · cases taken
  · split at taken
    · split at taken <;> cases taken
    · split at taken
      · exact consoleMessage_arrival taken
      · cases taken

/-- The console slot keeps the timers; the message it completes arrives at E. -/
theorem State.ShiftCore.slot (h : s.ShiftCore) (u : Uplink) {x : Option ConsoleMsg} (arrived : ∀ m ∈ x, m.arrival = s.tb.e) :
    (s.onHc fun _ => { (s.hc.look u s.tb.e).1 with arrived := x }).ShiftCore := by
  have items := s.hc.look_items u s.tb.e
  rw [items]
  exact h.onTimers ⟨arrived, h.prompt.window, h.prompt.release, h.prompt.settle⟩

/-- What a look needs of the state it finds. -/
structure State.Looked (e : Nat) (s : State) : Prop where
  items : s.HandoverInv
  tally : s.TallyInv
  core : s.ShiftCore
  now : s.tb.e = e

theorem looked_incidentKept (e : Nat) : IncidentKept (State.Looked e) := by
  have tally := (tallyInv_cascadeKept.withE e).incident
  have shift := shiftKept_incidentKept
  have both : ∀ {s : State}, s.ShiftKept → s.TallyInv ∧ s.tb.e = e → s.Looked e := fun g k => ⟨g.1, k.1, g.2, k.2⟩
  exact {
    offer := fun r o g => both (shift.offer r o ⟨g.items, g.core⟩) (tally.offer r o ⟨g.tally, g.now⟩)
    slots := fun same g => both (shift.slots same ⟨g.items, g.core⟩) (tally.slots same ⟨g.tally, g.now⟩)
    evalIncident := fun g => both (shift.evalIncident ⟨g.items, g.core⟩) (tally.evalIncident ⟨g.tally, g.now⟩)
    cascadeOpened := fun u g => both (shift.cascadeOpened u ⟨g.items, g.core⟩) (tally.cascadeOpened u ⟨g.tally, g.now⟩)
    countTrip := fun x load g => both (shift.countTrip x load ⟨g.items, g.core⟩) (tally.countTrip x load ⟨g.tally, g.now⟩)
    attributeCascade := fun x ch st load g =>
      both (shift.attributeCascade x ch st load ⟨g.items, g.core⟩) (tally.attributeCascade x ch st load ⟨g.tally, g.now⟩) }

theorem State.Looked.apart {e : Nat} {l : List Block} (h : s.Looked e) (w : Within l s t)
    (apart : (([.tb, .cm, .tu, .ml, .sh, .ct, .hc] : List Block).all fun b => !l.contains b) = true) : t.Looked e := by
  simp only [List.all_cons, List.all_nil, Bool.and_true, Bool.and_eq_true] at apart
  obtain ⟨tb, cm, tu, ml, sh, ct, hc⟩ := apart
  have now := channelBlocks_e w (by simpa using tb)
  exact ⟨h.items.apart w (by simp [*, -List.contains_eq_mem]), h.tally.apart w (by simp [*, -List.contains_eq_mem]),
    h.core.apart w (by simp [*, -List.contains_eq_mem]) now, now.trans h.now⟩

theorem State.Looked.handToTally {e : Nat} (h : s.Looked e) {x : HandOn} (past : x.PastAt e) : (s.handToTally x).Looked e where
  items := handoverInv_recordKept.handToTally x (fun _ _ _ => h.items.sourceChange ..) h.items
  tally := h.tally.handToTally (by rw [h.now]; exact past)
  core := shiftCore_recordKept.handToTally x (fun c u is => h.core.sourceChange u (by rw [h.now]; rw [is] at past; exact past) _)
    h.core
  now := (channelBlocks_e (handToTally_within ..) rfl).trans h.now

theorem State.Looked.look {e : Nat} (h : s.Looked e) (u : Uplink) (o : LookOrder) : (s.look u o).Looked e := by
  have slotItems : ∀ (t : State) x, t.HandoverInv → (t.onHc fun _ => { (t.hc.look u t.tb.e).1 with arrived := x }).HandoverInv :=
    fun t x g => g.of_same (.look u t.tb.e x g.queue)
  have kept : (t : State) → t.Looked e → (t.hc.look u t.tb.e).1.arrived = t.hc.arrived := fun t _ => by
    rw [t.hc.look_items u t.tb.e]
  refine look_keeps (P := State.Looked e) u o (fun t w => h.apart w rfl) (fun t g => ?_) (fun t g => ?_) (fun t g => ?_)
    (fun t g => ⟨handoverInv_loopKept.writeStore .up _ g.items, g.tally.apart (writeStore_within ..) rfl,
      shiftCore_loopKept.writeStore .up _ g.core, (channelBlocks_e (writeStore_within ..) rfl).trans g.now⟩) h
  · have slot : (t.onHc fun _ => (t.hc.look u t.tb.e).1).Looked e :=
      ⟨slotItems t (t.hc.look u t.tb.e).1.arrived g.items, g.tally.apart (onHc_within ..) rfl,
        g.core.slot u (x := (t.hc.look u t.tb.e).1.arrived) (by rw [kept t g]; exact g.core.prompt.arrived), g.now⟩
    unfold State.consoleFirst
    dsimp only
    split
    · next m taken =>
      refine ⟨slot.items.takeMessage m, tallyInv_cascadeKept.takeMessage m slot.tally,
        slot.core.takeMessage slot.items (Handover.look_arrival taken), ?_⟩
      exact (channelBlocks_e (takeMessage_within ..) rfl).trans slot.now
    · exact slot
  · refine ⟨slotItems t _ g.items, g.tally.apart (onHc_within ..) rfl, g.core.slot u fun m taken => ?_, g.now⟩
    rw [kept t g] at taken
    cases completed : (t.hc.look u t.tb.e).2 with
    | none => rw [completed] at taken; exact g.core.prompt.arrived m taken
    | some x =>
      rw [completed] at taken
      obtain rfl := Option.some.inj taken
      exact Handover.look_arrival completed
  · have looks := g.tally.allLooks u.status
    rw [g.now] at looks
    refine (looked_incidentKept e).takeHandOns _ _ (fun t' x hx g' => g'.handToTally (looks.2 x hx)) ⟨?_, looks.1, ?_, ?_⟩
    · exact handoverInv_recordKept.allLooks _ g.items
    · exact shiftCore_recordKept.allLooks _ g.core
    · exact (channelBlocks_e (allLooks_within ..) rfl).trans g.now

/-! ### The other commands -/

namespace State.ShiftCore

theorem downlinkStart (h : s.ShiftCore) : s.downlinkStart.ShiftCore := by
  have slot : ((s.onUbi fun x => { x with frame := some s.downlinkFrame, distribution := s.distribution }).onHc
      fun h => (h.downlinkSlot s.tb.e).1).ShiftCore := by
    have noted := h.apart (onUbi_within (fun x => { x with frame := some s.downlinkFrame, distribution := s.distribution }) s) rfl rfl
    have items := s.hc.downlinkSlot_items s.tb.e
    refine noted.onHc ⟨?_, ?_, ?_⟩
    · exact (congrArg Handover.arrived items :)
    · exact (congrArg Handover.timer items :)
    · exact (congrArg Handover.settleEnd items :)
  unfold State.downlinkStart State.startDownlink State.readDown
  split
  · split
    · exact shiftCore_loopKept.readStore .down slot
    · exact slot
  · exact h

theorem restartCascades (h : s.ShiftCore) (d : s.HandoverInv) : s.restartCascades.ShiftCore := by
  have cleared := h.onCt fun _ => { slots := Vector.replicate 9 none, holdEnd := none, incident := false }
  unfold State.restartCascades
  dsimp only
  split
  · exact cleared.incidentEnds d.heldReady
  · exact cleared

theorem restartActs (h : s.ShiftCore) (d : s.HandoverInv) : s.restartActs.ShiftCore := by
  unfold State.restartActs
  split
  · have cleared : s.clearLinks.ShiftCore := by
      refine h.of_same ⟨rfl, rfl, rfl, rfl, rfl⟩ (sameUnits rfl) ?_ rfl
      unfold State.clearLinks Handover.clearSlot
      rw [s.hc.flush_items]
      exact ⟨rfl, rfl, rfl⟩
    have cleared' : s.clearLinks.HandoverInv := by
      refine d.of_same ?_
      unfold State.clearLinks Handover.clearSlot
      rw [s.hc.flush_items]
      exact ⟨rfl, rfl, rfl, rfl, rfl, rfl, rfl, rfl, rfl, rfl, rfl, rfl, rfl, rfl, Nat.zero_le _⟩
    have looped : s.clearLinks.restartLoop.ShiftCore :=
      State.ShiftCore.apart (shiftCore_loopKept.endSearch cleared) (onDl_within ..) rfl rfl
    have looped' : s.clearLinks.restartLoop.HandoverInv :=
      State.HandoverInv.apart (handoverInv_loopKept.endSearch cleared') (onDl_within ..) rfl
    exact (shiftCore_recordKept.restartUnits looped).restartCascades (handoverInv_recordKept.restartUnits looped')
  · exact h

theorem reset (q : List Instr) (held : Bool) : State.ShiftCore { State.reset with inReset := held, pending := q } := by
  refine ⟨⟨Nat.zero_le _, nofun, trivial, nofun, ?_, nofun⟩, ⟨nofun, nofun, nofun, nofun⟩, fun u => ?_⟩
  · show ∀ u : UnitNo, (Vector.replicate 8 GenUnit.reset)[u].noShift
    intro u
    simp only [Fin.getElem_fin, Vector.getElem_replicate]
    exact ⟨rfl, rfl⟩
  · show (Vector.replicate 8 GenUnit.reset)[u].entry ≤ 0
    simp only [Fin.getElem_fin, Vector.getElem_replicate]
    exact Nat.le_refl 0

/-- The tick passes no timer of the handover, by the order of the commands (R144, R149, R155). -/
theorem tick (h : s.ShiftCore) (life : s.inService) (quiet : s.Quiet) : s.tick.ShiftCore := by
  unfold State.tick
  split
  · exact h
  · have raised : nextElapsed s.tb.e = s.tb.e + 1 := by
      unfold State.inService at life
      exact if_pos (by omega)
    refine ⟨⟨h.shift.ring, h.shift.whole, h.shift.chain, h.shift.last, h.shift.sets, fun x hx => ?_⟩,
      ⟨fun m hm => ?_, fun x hx => ?_, fun x hx => ?_, fun x hx => ?_⟩, fun u => ?_⟩
    · exact Nat.le_trans (h.shift.starts x hx) (by show _ ≤ nextElapsed s.tb.e; omega)
    · exact absurd (show s.hc.arrived = some m from hm) (by rw [quiet.arrived]; nofun)
    · show nextElapsed s.tb.e ≤ x; rw [raised]; exact quiet.window x hx
    · show nextElapsed s.tb.e ≤ x; rw [raised]; exact quiet.release x hx
    · show nextElapsed s.tb.e ≤ x; rw [raised]; exact quiet.settle x hx
    · exact Nat.le_trans (h.entries u) (by show _ ≤ nextElapsed s.tb.e; omega)

/-- Every command keeps the shift records in a state that meets the other invariants; the tick only in its time. -/
theorem after (c : Instr) (h : s.ShiftCore) (d : s.HandoverInv) (b : s.TallyInv) (life : s.inService)
    (inTime : c = .tick → s.Quiet) : (s.after c).ShiftCore := by
  cases loop : isLoopCommand c with
  | true => exact shiftCore_loopKept.after loop h
  | false =>
    cases record : isRecordCommand c with
    | true => exact shiftCore_recordKept.after record h
    | false =>
      have request := shiftCore_recordKept.request (s := s)
      cases c
      case powerOnReset cause => exact powerOn_keeps (fun held => .reset _ held) h cause
      case localSecondBoundary => exact (shiftKept_offsetKept.secondBoundary ⟨d, h⟩).2
      case stepApplication => exact (shiftKept_offsetKept.stepApplies ⟨d, h⟩).2
      case downlinkFrameStart => exact h.downlinkStart
      case look u o => exact (State.Looked.look ⟨d, b, h, rfl⟩ u o).core
      case cascadeClose g => exact (shiftKept_incidentKept.cascadeCloses g ⟨d, h⟩).2
      case incidentHoldEnd => exact (shiftKept_incidentKept.holdEnds ⟨d, h⟩).2
      case dutyClaim => exact h.takeArrived d .dutyClaim
      case accept => exact h.takeArrived d .accept
      case release => exact h.takeArrived d .release
      case query => exact h.takeArrived d .query
      case windowExpiry => exact h.windowExpires
      case releaseExpiry => exact h.releaseExpires d
      case settleEnd => exact h.settleEnds d
      case setTime =>
        refine request _ (fun req => withLength_fst 10 req h (h.apart (setTime_within req s) rfl ?_)) h
        unfold Machine.setTime
        split <;> rfl
      case writeScheduleMode =>
        exact request _ (fun req => withLength_fst 6 req h (writeParam_fst _ _ _ _ req h fun v _ _ => h.writeMode d v)) h
      case writeLocalOffset =>
        exact request _
          (fun req => withLength_fst 6 req h (writeParam_fst _ _ _ _ req h fun v _ _ => h.writeOffset d.cutReady v)) h
      case writeSchedule =>
        refine request _ (fun req => ?_) h
        unfold Machine.writeSchedule
        split
        · split
          · split
            · exact h.writeSchedule d _
            · exact h
          · exact h
        · exact h
      case writeUnit =>
        refine request _ (fun req => withLength_fst 21 req h ?_) h
        unfold Machine.writeUnit
        split
        · next u enabled map _ _ _ =>
          have same : s.tu[u].SameSets { s.tu[u] with enabled := enabled, modeMap := map, timeout := clampTimeout (fieldAt req 19 2) } :=
            ⟨rfl, rfl, rfl, rfl⟩
          have written := h.onUnit (u := u) (f := fun x =>
            { x with enabled := enabled, modeMap := map, timeout := clampTimeout (fieldAt req 19 2) }) (same.keeps _)
          exact written.eventChange _ _
        · exact h
      case presetTally =>
        refine request _ (fun req => withLength_fst 54 req h ?_) h
        unfold Machine.presetTally
        split
        · exact h
        · split
          · exact h.onUnit (keepsSets_preset _ (h.entries _))
          · exact h
      case warmRestartActs => exact h.restartActs d
      case tick => exact h.tick life (inTime rfl)
      all_goals first | (cases loop; done) | cases record

end State.ShiftCore

/-- Settles O12: a cut starts every set where the last one ends, and the settle end closes the set at the cut. -/
theorem shiftRecordsKept : Obligations.ShiftRecordsKept := by
  unfold Obligations.ShiftRecordsKept
  intro s t life inTime d b prompt shift step
  have core : s.ShiftCore := ⟨shift, prompt, fun u => (b.units u).entry⟩
  rcases step_cases step with ⟨-, rfl⟩ | ⟨c, rest, front, rfl⟩
  · exact ⟨shift, prompt⟩
  · have kept : ((s.withPending rest).after c).ShiftCore := by
      refine State.ShiftCore.after c (core.of_same ⟨rfl, rfl, rfl, rfl, rfl⟩ (sameUnits rfl) ⟨rfl, rfl, rfl⟩ rfl)
        (d.of_same ⟨rfl, rfl, rfl, rfl, rfl, rfl, rfl, rfl, rfl, rfl, rfl, rfl, rfl, rfl, d.queue⟩) (b.of_same rfl rfl rfl) life fun tick => ?_
      obtain ⟨arrived, window, release, settle⟩ := inTime (by rw [front, tick]; rfl)
      exact ⟨arrived, window, release, settle⟩
    exact ⟨kept.shift, kept.prompt⟩

end Sys2Proof.Machine
end

/-! The power-on reset (R1, R65, R185): O3 and O4. -/

section
namespace Sys2Proof.Machine

variable {s t : State}

theorem reset_channel (ch : Chan) : State.reset.cm[ch] = Channel.reset := by simp [State.reset]

theorem reset_unit (u : UnitNo) : State.reset.tu[u] = GenUnit.reset := by simp [State.reset]

theorem reset_slot (g : Group) : State.reset.ct.slots[g] = none := by simp [State.reset]

/-- While the pin holds the part in reset no other command changes anything (R1). -/
theorem State.atPowerOn.after {c : Instr} (h : s.atPowerOn true) (other : ∀ cause, c ≠ .powerOnReset cause) :
    s.after c = s := by
  unfold State.atPowerOn at h
  rw [h]
  cases c
  case powerOnReset cause => exact absurd rfl (other cause)
  case markerMissingTimeout r => cases r <;> rfl
  case markerAbsentTimeout r => cases r <;> rfl
  case quietDeadline ch =>
    show State.quietDeadline ch _ = _
    unfold State.quietDeadline
    rw [show State.cm _ = State.reset.cm from rfl, reset_channel]
    rfl
  case cascadeClose g =>
    show State.cascadeCloses g _ = _
    unfold State.cascadeCloses
    rw [show State.ct _ = State.reset.ct from rfl, reset_slot]
  case startTimeout u =>
    show State.startTimeout u _ = _
    unfold State.startTimeout
    rw [show State.tu _ = State.reset.tu from rfl, reset_unit]
    rfl
  all_goals rfl

theorem State.ResetInv.after (c : Instr) (h : s.ResetInv) : (s.after c).ResetInv := by
  by_cases reset : ∃ cause, c = .powerOnReset cause
  · obtain ⟨cause, rfl⟩ := reset
    refine powerOn_keeps (fun held on => ?_) h cause
    obtain rfl : held = true := on
    rfl
  · have other : ∀ cause, c ≠ .powerOnReset cause := fun cause is => reset ⟨cause, is⟩
    intro on
    have same : (s.after c).inReset = s.inReset := by
      cases c
      case powerOnReset cause => exact absurd rfl (other cause)
      all_goals exact after_same (b := .inReset) rfl s
    have values := h (same ▸ on)
    rw [values.after other]
    exact values

/-- Settles O3: the reset values are those of the blocks, and with them no other command finds anything to do. -/
theorem powerOnResetGivesPowerOnValues : Obligations.PowerOnResetGivesPowerOnValues := by
  unfold Obligations.PowerOnResetGivesPowerOnValues
  refine ⟨fun s => ⟨rfl, fun n long => ?_, fun n short => ?_, fun held => ?_, fun free => ?_⟩, fun c s on other => ?_,
    fun s t h step => step_keeps (P := State.ResetInv) (fun s q g on => ?_) (fun c s g => g.after c) h step, ?_⟩
  · exact congrArg Host.Outcome.next (if_pos long)
  · exact congrArg Host.Outcome.next (if_neg (by omega))
  · exact congrArg Host.Outcome.next (if_pos held)
  · exact congrArg Host.Outcome.next (if_neg (by simp [free]))
  · rw [exec_eq_after, on.after other]
  · have values : s.atPowerOn true := g on
    unfold State.atPowerOn at values ⊢
    rw [values]
    rfl
  · refine ⟨rfl, by decide, by decide, by decide, by decide, by decide, fun ch => ?_, by decide, by decide,
      ⟨reset_slot, rfl, rfl⟩, fun u => ?_, by decide, ⟨rfl, rfl, rfl, rfl, rfl⟩, by decide⟩
    · rw [reset_channel]; decide
    · rw [reset_unit]; decide

/-- Settles O4: the reset values of each block meet the part of each invariant that speaks of it. -/
theorem resetMeetsInvariants : Obligations.ResetMeetsInvariants := by
  unfold Obligations.ResetMeetsInvariants
  have records := State.ShiftCore.reset [] false
  refine ⟨nofun, queueInv_reset [] false, .reset [] false, fun u => ?_, .reset [] false, ⟨nofun, nofun, fun _ => rfl, rfl⟩,
    ⟨by decide, by decide, nofun, by decide⟩, .reset [] false, records.shift, records.prompt⟩
  rw [reset_unit]
  exact ⟨rfl, nofun⟩

end Sys2Proof.Machine
end

/-! The changes of the offset and the local second boundary (R4, R6, R9 to R19, R24). -/

section
namespace Sys2Proof.Machine

variable {s t : State}

/-! ### The class and the report of a change -/

theorem takeClass_tb (s : State) : s.takeClass.tb = { s.tb with quality := s.tb.classNow } := by
  unfold State.takeClass
  split
  · next same => rw [same]
  · rfl

theorem takeClass_eq (s : State) : s.takeClass.eq = s.eq := (takeClass_within s).out .eq (by decide)

theorem takes_a (h : s.eq.records.length < 512) : s.eq.takes .a = true := decide_eq_true h

theorem reportOffset_after (q : Quality) (b : Bool) (r : Stamp → EventRecord) (s : State) :
    (s.reportOffset q b r).tb = { s.tb with quality := s.tb.classNow } :=
  (reportOffset_tb q b r s).trans (takeClass_tb s)

/-- The record of the change is the first one offered (R13, R15). -/
theorem reportOffset_admitted (q : Quality) (b : Bool) {r : Stamp → EventRecord} (cls : ∀ st, (r st).cls = .a)
    (room : s.eq.records.length < 512) :
    s.admittedNext (s.reportOffset q b r) (r (s.reportOffset q b r).tb.now) := by
  rw [reportOffset_tb]
  have first : s.takeClass.admittedNext (s.takeClass.offer (r s.takeClass.tb.now)) (r s.takeClass.tb.now) :=
    State.offer_admitted (by rw [cls, takeClass_eq]; exact takes_a room)
  exact (first.of_eq (takeClass_eq s)).append ((reportClass_appended ..).trans (onLocalTime_appended ..))

theorem reportOffset_rm (q : Quality) (b : Bool) (r : Stamp → EventRecord) (s : State) : (s.reportOffset q b r).rm = s.rm := by
  unfold State.reportOffset
  exact ((((takeClass_within s).and (offer_within ..)).and (reportClass_within ..)).and (onLocalTime_within ..)).out .rm (by decide)

/-! ### The step (R10, R11, R13, R18) -/

/-- U after a step: the accuracy of the active reference with the residual where the step sets time (R18). -/
def State.steppedU (s : State) (p : PendingStep) : Nat :=
  if s.tb.unset then min (s.activeAccuracy + p.residual.natAbs) uTop else s.tb.u

theorem applyStep_tb (p : PendingStep) (s : State) :
    (s.applyStep p).tb = { s.tb with delta := steppedOffset s.tb.e s.tb.delta p.amount, stepCount := (s.tb.stepCount + 1) % 256,
                                     unset := false, pendingStep := none, u := s.steppedU p,
                                     quality := qualityOf false (s.steppedU p) } := by
  unfold State.applyStep State.steppedU
  dsimp only
  rw [reportOffset_after]
  split <;> rfl

theorem stepped_station (e : Nat) (delta k : Int) :
    (e : Int) + steppedOffset e delta k = max 0 (min 70368744177663999 ((e : Int) + delta + k)) := by
  unfold steppedOffset
  rw [show stationTop = 70368744177663999 from rfl]
  split
  · omega
  · split <;> omega

theorem stepApplies_of_due {p : PendingStep} (pending : s.tb.pendingStep = some p) (due : p.applyAt ≤ s.tb.e) :
    s.stepApplies = s.applyStep p := by
  unfold State.stepApplies
  rw [pending]
  exact if_pos due

theorem stepApplies_of_early (early : ∀ p ∈ s.tb.pendingStep, s.tb.e < p.applyAt) : s.stepApplies = s := by
  unfold State.stepApplies
  split
  · rfl
  · next p pending => exact if_neg (by have := early p pending; omega)

theorem applyStep_admitted (p : PendingStep) (room : s.eq.records.length < 512) :
    s.admittedNext (s.applyStep p) (timeStepRecord s.dl.active s.tb.stepCount ((s.tb.stepCount + 1) % 256)
      (steppedOffset s.tb.e s.tb.delta p.amount - s.tb.delta) (s.applyStep p).tb.now) := by
  unfold State.applyStep
  dsimp only
  split <;> exact State.admittedNext.of_eq (reportOffset_admitted _ _ (fun _ => rfl) room) rfl

/-- Settles O16. -/
theorem stepAppliedAtItsTick : Obligations.StepAppliedAtItsTick := by
  unfold Obligations.StepAppliedAtItsTick
  refine ⟨fun s p pending due => ⟨s.stepApplies, rfl, ?_⟩, fun s early => congrArg Host.Outcome.next (stepApplies_of_early early)⟩
  have within := stepApplies_within s
  rw [stepApplies_of_due pending due] at within ⊢
  have tb := applyStep_tb p s
  refine ⟨?_, by rw [tb], by rw [tb], by rw [tb], by rw [tb], by rw [tb], by rw [tb], fun set => ?_, fun r acc unset active accuracy => ?_,
    by rw [tb], fun room => ?_, within⟩
  · rw [tb]; exact stepped_station ..
  · rw [tb]; simp [State.steppedU, set]
  · rw [tb]; simp [State.steppedU, unset, State.activeAccuracy, active, accuracy]
  · have admitted := applyStep_admitted p room
    rw [tb] at admitted ⊢
    exact admitted

/-! ### The boundary (R4, R6, R9, R15, R17) -/

/-- What a boundary finds when it latches, before a time setting or the recomputed U. -/
theorem handed_tb (s : State) : ∃ x, s.latchSecond.handStep.tb =
    { s.tb with trim := s.tb.pendingTrim, lastBoundary := some s.tb.e, pendingStep := x } := by
  unfold State.handStep
  split
  · exact ⟨s.tb.pendingStep, rfl⟩
  · exact ⟨_, rfl⟩

theorem handed_within (s : State) : Within [.tb, .dl, .up, .down] s s.latchSecond.handStep :=
  (latchSecond_within s).trans ((handStep_within _).mono (by decide))

theorem plainSecond_after (s : State) : s.plainSecond.tb = { s.recomputeU.tb with quality := s.recomputeU.tb.classNow } :=
  (plainSecond_tb s).trans (takeClass_tb _)

theorem recomputeU_tb (s : State) :
    s.recomputeU.tb = { s.tb with u := min (if s.tb.unset then uTop else s.grownU) uTop } := by
  unfold State.recomputeU
  split <;> rfl

theorem applySetting_tb (x : TimeSetting) (s : State) :
    (s.applySetting x).tb = { s.tb with delta := (x.seconds : Int) * 64000 - s.tb.e, stepCount := (s.tb.stepCount + 1) % 256,
                                        unset := false, pendingSetting := none, u := min x.accuracy uTop,
                                        quality := qualityOf false (min x.accuracy uTop) } := by
  unfold State.applySetting
  dsimp only
  rw [reportOffset_after]
  rfl

theorem takeBoundary_of_setting {x : TimeSetting} (pending : s.tb.pendingSetting = some x) :
    s.takeBoundary = s.latchSecond.handStep.applySetting x := by
  unfold State.takeBoundary
  rw [pending]

theorem takeBoundary_of_plain (pending : s.tb.pendingSetting = none) : s.takeBoundary = s.latchSecond.handStep.plainSecond := by
  unfold State.takeBoundary
  rw [pending]

theorem applySetting_admitted (x : TimeSetting) (room : s.eq.records.length < 512) :
    s.admittedNext (s.applySetting x) (timeSetRecord s.tb.stepCount ((s.tb.stepCount + 1) % 256)
      ((x.seconds : Int) * 64000 - s.tb.e - s.tb.delta) (s.applySetting x).tb.now) := by
  unfold State.applySetting
  exact State.admittedNext.of_eq (reportOffset_admitted _ _ (fun _ => rfl) room) rfl

/-- Settles O19. -/
theorem timeSettingAppliedAtBoundary : Obligations.TimeSettingAppliedAtBoundary := by
  unfold Obligations.TimeSettingAppliedAtBoundary
  intro s x boundary pending
  refine ⟨s.secondBoundary, rfl, ?_⟩
  rw [secondBoundary_of_atBoundary boundary, takeBoundary_of_setting pending]
  have tb := applySetting_tb x s.latchSecond.handStep
  have eq : s.latchSecond.handStep.eq = s.eq := (handed_within s).out .eq (by decide)
  have admitted := applySetting_admitted x (s := s.latchSecond.handStep)
  rw [tb] at admitted ⊢
  obtain ⟨y, handed⟩ := handed_tb s
  rw [handed] at admitted ⊢
  refine ⟨add_sub_cancel .., rfl, rfl, rfl, rfl, rfl, rfl, fun room => ?_⟩
  exact (admitted (by rw [eq]; exact room)).of_eq eq

/-! ### What every boundary latches -/

theorem takeBoundary_of_handed (s : State) : Within [.tb, .rm, .hc, .eq, .sh, .tu] s.latchSecond.handStep s.takeBoundary := by
  unfold State.takeBoundary
  dsimp only
  split
  · exact (applySetting_within ..).mono (by decide)
  · exact (plainSecond_within ..).mono (by decide)

theorem handed_dl (s : State) : ∃ x y, s.latchSecond.handStep.dl =
    { s.dl with p := s.ml.params.p, q := s.ml.params.q, search := x, confirmed := y } := by
  unfold State.handStep
  split
  · exact ⟨_, s.dl.confirmed, rfl⟩
  · exact ⟨_, _, rfl⟩

/-- The boundary keeps what waits for its step, E and the pending trim. -/
theorem takeBoundary_tb (s : State) : ∃ d n b u x q, s.takeBoundary.tb =
    { s.latchSecond.handStep.tb with delta := d, stepCount := n, unset := b, u := u, pendingSetting := x, quality := q } := by
  cases pending : s.tb.pendingSetting with
  | some x => rw [takeBoundary_of_setting pending, applySetting_tb]; exact ⟨_, _, _, _, _, _, rfl⟩
  | none => rw [takeBoundary_of_plain pending, plainSecond_after, recomputeU_tb]; exact ⟨_, _, _, _, _, _, rfl⟩

theorem secondBoundary_of_not_atBoundary (h : ¬s.atBoundary) : s.secondBoundary = s := by
  unfold State.secondBoundary
  refine if_neg fun due => h ?_
  simp only [Bool.and_eq_true, Bool.not_eq_true'] at due
  exact ⟨due.1, (boundaryDue_iff s.tb).mp due.2⟩

/-- A confirmed step goes to the Timebase, alone or merged with the one that waits (R9, R38). -/
theorem handed_step {k res : Int} (confirmed : s.dl.confirmed = some (k, res)) :
    s.latchSecond.handStep.dl.confirmed = none ∧
      s.latchSecond.handStep.tb.pendingStep = some (mergeStep s.tb.pendingStep s.tb.e k res) := by
  have latched : s.latchSecond.dl.confirmed = some (k, res) := confirmed
  unfold State.handStep
  rw [latched]
  exact ⟨rfl, rfl⟩

/-- Settles O20. -/
theorem secondBoundaryLatches : Obligations.SecondBoundaryLatches := by
  unfold Obligations.SecondBoundaryLatches
  refine ⟨fun s k res boundary confirmed => ?_, fun s boundary => ?_,
    fun s early => congrArg Host.Outcome.next (secondBoundary_of_not_atBoundary early)⟩
  · obtain ⟨handed, step⟩ := handed_step confirmed
    obtain ⟨d, n, b, u, x, q, tb⟩ := takeBoundary_tb s
    have dl := (takeBoundary_of_handed s).out .dl (by decide)
    refine ⟨s.secondBoundary, mergeStep s.tb.pendingStep s.tb.e k res, rfl, ?_, ?_, fun alone => ?_, fun o other => ?_⟩
    · rw [secondBoundary_of_atBoundary boundary, dl]; exact handed
    · rw [secondBoundary_of_atBoundary boundary, tb]; exact step
    · rw [alone]
      refine ⟨rfl, rfl, ?_, ?_, ?_⟩ <;> simp only [mergeStep] <;> omega
    · rw [other]; exact ⟨rfl, rfl⟩
  · have within := secondBoundary_within s
    rw [secondBoundary_of_atBoundary boundary] at within
    obtain ⟨d, n, b, u, x, q, tb⟩ := takeBoundary_tb s
    obtain ⟨y, handed⟩ := handed_tb s
    obtain ⟨found, confirmed, dl⟩ := handed_dl s
    have dl := ((takeBoundary_of_handed s).out .dl (by decide)).trans dl
    refine ⟨s.secondBoundary, rfl, ?_⟩
    rw [secondBoundary_of_atBoundary boundary]
    refine ⟨by rw [tb, handed], by rw [tb, handed], by rw [tb, handed], by rw [tb, handed], by rw [dl], by rw [dl], by rw [dl],
      by rw [dl], by rw [dl], (takeBoundary_within s).out .up (by decide), (takeBoundary_within s).out .down (by decide), within⟩

/-! ### The phase errors (R24) -/

/-- A change of the offset moves the last phase errors by it and raises the step count; nothing else moves them. -/
def MovesErrors (s t : State) : Prop :=
  (t.rm = s.rm ∧ t.tb.delta = s.tb.delta ∧ t.tb.stepCount = s.tb.stepCount) ∨
    (t.rm = { s.rm with a := s.rm.a.shift (t.tb.delta - s.tb.delta), b := s.rm.b.shift (t.tb.delta - s.tb.delta) } ∧
      t.tb.stepCount = (s.tb.stepCount + 1) % 256)

theorem stepApplies_movesErrors (s : State) : MovesErrors s s.stepApplies := by
  by_cases due : ∃ p, s.tb.pendingStep = some p ∧ p.applyAt ≤ s.tb.e
  · obtain ⟨p, pending, due⟩ := due
    rw [stepApplies_of_due pending due]
    refine .inr ⟨?_, by rw [applyStep_tb]⟩
    rw [applyStep_tb]
    unfold State.applyStep
    dsimp only
    rw [reportOffset_rm]
    split <;> rfl
  · rw [stepApplies_of_early fun p pending => by by_contra late; exact due ⟨p, pending, by omega⟩]
    exact .inl ⟨rfl, rfl, rfl⟩

theorem secondBoundary_movesErrors (s : State) : MovesErrors s s.secondBoundary := by
  by_cases boundary : s.atBoundary
  · rw [secondBoundary_of_atBoundary boundary]
    have rm : s.latchSecond.handStep.rm = s.rm := (handed_within s).out .rm (by decide)
    obtain ⟨y, handed⟩ := handed_tb s
    cases pending : s.tb.pendingSetting with
    | some x =>
      rw [takeBoundary_of_setting pending]
      refine .inr ⟨?_, by rw [applySetting_tb, handed]⟩
      rw [applySetting_tb]
      unfold State.applySetting
      rw [reportOffset_rm]
      show State.rm (State.setOffset _ _) = _
      unfold State.setOffset
      rw [rm, handed]
    | none =>
      rw [takeBoundary_of_plain pending]
      refine .inl ⟨((plainSecond_within _).out .rm (by decide)).trans rm, ?_, ?_⟩ <;>
        rw [plainSecond_after, recomputeU_tb, handed]
  · rw [secondBoundary_of_not_atBoundary boundary]
    exact .inl ⟨rfl, rfl, rfl⟩

/-- A change of whole seconds leaves a phase error as it was. -/
theorem shift_wholeSeconds {x : RefState} {c : Int} (range : ∀ y ∈ x.lastErr, -500000000 ≤ y ∧ y < 500000000)
    (whole : c % 64000 = 0) : (x.shift c).lastErr = x.lastErr := by
  unfold RefState.shift
  cases e : x.lastErr with
  | none => rfl
  | some y =>
    obtain ⟨low, high⟩ := range y e
    show some (wrapPhase (y - c * 15625)) = some y
    unfold wrapPhase
    congr 1
    omega

theorem shift_zero_of_same {x : RefState} {c : Int} : (x.shift c).buildOut = x.buildOut := rfl

/-- Settles O17. -/
theorem phaseErrorsMoveWithOffset : Obligations.PhaseErrorsMoveWithOffset := by
  unfold Obligations.PhaseErrorsMoveWithOffset
  intro c s change
  have moved : ∃ t, exec c s = .next t ∧ MovesErrors s t := by
    rcases change with rfl | rfl
    · exact ⟨_, rfl, stepApplies_movesErrors s⟩
    · exact ⟨_, rfl, secondBoundary_movesErrors s⟩
  obtain ⟨t, exec, moved⟩ := moved
  refine ⟨t, exec, ?_⟩
  rcases moved with ⟨rm, delta, count⟩ | ⟨rm, count⟩
  · rw [rm]
    exact ⟨⟨rfl, rfl⟩, fun changed => absurd count changed, fun _ _ => ⟨delta, rfl, rfl⟩, fun _ _ => rfl, fun _ _ => rfl⟩
  · rw [rm]
    exact ⟨⟨rfl, rfl⟩, fun _ => ⟨rfl, rfl⟩, fun same low => by omega, shift_wholeSeconds, shift_wholeSeconds⟩

/-! ### The uncertainty (R17, R19) -/

theorem qualityOf_eq_count (u : Nat) :
    (qualityOf false u).val = ([1000, 10000, 100000, 1000000, 10000000, 100000000].filter (· < u)).length := by
  rw [← List.countP_eq_length_filter]
  simp only [List.countP_cons, List.countP_nil, qualityOf, Bool.false_eq_true, if_false, decide_eq_true_eq]
  grind

/-- The mode before the first change at a tick stays the closing one (R17). -/
theorem setMode_closingMode (m : TbMode) (a : Option Ref) (c : TbCause) (s : State) :
    (s.setMode m a c).closingMode = s.closingMode := by
  unfold State.setMode
  split
  · rfl
  · have e : (s.dropSetting m).tb.e = s.tb.e := by unfold State.dropSetting; split <;> rfl
    unfold State.closingMode
    simp only [State.offer_dl, State.offer_tb, State.onDl, State.noteBefore, e]
    cases before : s.dl.before with
    | none => simp
    | some b =>
      by_cases now : b.tick = s.tb.e <;> simp [now]

theorem closingMode_of_settled (settled : s.modeSettled) : s.closingMode = (s.dl.mode, s.dl.active) := by
  unfold State.closingMode
  split
  · next b before => exact if_neg (settled b before)
  · rfl

/-- The tick moves on, so a change of mode noted at an earlier tick is no change at this one. -/
theorem tick_modeSettled (running : s.inReset = false) (top : s.tb.e + 1 < 281474976710656)
    (past : ∀ b ∈ s.dl.before, b.tick ≤ s.tb.e) : s.tick.modeSettled := by
  have e : s.tick.tb.e = s.tb.e + 1 := by
    unfold State.tick
    rw [running]
    exact if_pos top
  have dl : s.tick.dl = s.dl := by
    unfold State.tick
    rw [running]
    rfl
  intro b hb
  rw [dl] at hb
  have := past b hb
  omega

theorem handed_grownU (s : State) : s.latchSecond.handStep.grownU = s.grownU := by
  have rm : s.latchSecond.handStep.rm = s.rm := (handed_within s).out .rm (by decide)
  have ml : s.latchSecond.handStep.ml = s.ml := (handed_within s).out .ml (by decide)
  obtain ⟨y, tb⟩ := handed_tb s
  obtain ⟨x, z, dl⟩ := handed_dl s
  have closing : s.latchSecond.handStep.closingMode = s.closingMode := by
    unfold State.closingMode
    rw [tb, dl]
  have locked : ∀ r, s.latchSecond.handStep.lockedU r = s.lockedU r := fun r => by
    unfold State.lockedU State.refClass
    rw [tb, rm, ml]
  unfold State.grownU
  simp only [closing, locked, ml, tb]

theorem lockedU_of_accuracy {r : Ref} {acc : Nat} {err : Int} (accuracy : accuracyNs (s.refClass r) = some acc)
    (error : (s.rm.get r).lastErr = some err) (agrees : r = .a → s.rm.agree ≠ 0) : s.lockedU r = acc + err.natAbs := by
  unfold State.lockedU
  rw [accuracy, error]
  exact if_neg fun both => agrees both.1 both.2

theorem lockedU_of_none {r : Ref} (none : s.refClass r = 7 ∨ (r = .a ∧ s.rm.agree = 0)) :
    s.lockedU r = s.tb.u + s.ml.params.driftBound := by
  unfold State.lockedU
  split
  · next accuracy _ =>
    rcases none with class7 | disagrees
    · rw [class7] at accuracy; cases accuracy
    · exact if_pos disagrees
  · rfl

/-- A class that the boundary changes is reported (R19). -/
theorem plainSecond_admitted (changed : s.plainSecond.tb.quality ≠ s.tb.quality) (room : s.eq.records.length < 512) :
    s.admittedNext s.plainSecond (mkRecord .quality .a 0 s.tb.quality.val s.plainSecond.tb.quality.val 0 s.plainSecond.tb.now) := by
  rw [plainSecond_tb] at changed ⊢
  have eq : s.recomputeU.takeClass.eq = s.eq := (takeClass_eq _).trans ((recomputeU_within s).out .eq (by decide))
  have reported : s.admittedNext (s.recomputeU.takeClass.reportClass s.tb.quality)
      (mkRecord .quality .a 0 s.tb.quality.val s.recomputeU.takeClass.tb.quality.val 0 s.recomputeU.takeClass.tb.now) := by
    unfold State.reportClass
    rw [if_neg changed]
    exact State.admittedNext.of_eq (State.offer_admitted (takes_a (by rw [eq]; exact room))) eq
  exact reported.append (onLocalTime_appended ..)

/-- Settles O18. -/
theorem uncertaintyRecomputedAtBoundary : Obligations.UncertaintyRecomputedAtBoundary := by
  unfold Obligations.UncertaintyRecomputedAtBoundary
  refine ⟨fun u => ⟨rfl, qualityOf_eq_count u⟩, fun s mode active cause => setMode_closingMode mode active cause s,
    fun s settled => closingMode_of_settled settled,
    fun s running top past => ⟨s.tick, rfl, tick_modeSettled running top past⟩, fun s boundary plain => ?_⟩
  intro mode active
  have tb := plainSecond_after s.latchSecond.handStep
  rw [recomputeU_tb, handed_grownU] at tb
  obtain ⟨y, handed⟩ := handed_tb s
  have eq : s.latchSecond.handStep.eq = s.eq := (handed_within s).out .eq (by decide)
  have admitted := plainSecond_admitted (s := s.latchSecond.handStep)
  rw [tb, handed, eq] at admitted
  rw [handed] at tb
  refine ⟨s.secondBoundary, rfl, ?_⟩
  rw [secondBoundary_of_atBoundary boundary, takeBoundary_of_plain plain]
  have grown : s.tb.unset = false → s.latchSecond.handStep.plainSecond.tb.u = min s.grownU 4000000000 := fun set => by
    rw [tb]; simp [set]
  have closing : s.closingMode = (mode, active) := rfl
  refine ⟨by rw [tb], by rw [tb], by rw [tb], fun unset => ?_, fun set => ⟨?_, fun m => ?_, fun m => ?_,
    fun r acc err m a accuracy error agrees => ?_, fun r m a none => ?_⟩, fun changed room => ?_⟩
  · rw [tb]; simp [Timebase.classNow, unset, qualityOf]
  · rw [tb]; simp [Timebase.classNow, set]
  · rw [grown set, State.grownU, closing, m]
  · rw [grown set, State.grownU, closing]
    rcases m with m | m <;> rw [m]
  · rw [grown set, State.grownU, closing, m, a]
    simp only [lockedU_of_accuracy accuracy error agrees]
  · rw [grown set, State.grownU, closing, m, a]
    simp only [lockedU_of_none none]
  · have reported := admitted (by rw [tb] at changed; exact changed) room
    rw [tb]
    exact reported.of_eq eq

end Sys2Proof.Machine
end

/-! The tick (R1 to R3, R57, R177). -/

section
namespace Sys2Proof.Machine

variable {s t : State}

theorem tickIntervals_le (f : Nat) (t : Int) : tickIntervals f t ≤ 2 := by
  unfold tickIntervals
  split_ifs <;> omega

/-- The carried fraction gains what the nominal ticks bring, less the tick made (R2). -/
theorem carry_eq (f : Nat) {t : Int} (ok : TrimOk t) :
    (carry f t : Int) + 1000000000 = f + tickIntervals f t * (1000000000 + t) := by
  obtain ⟨low, high⟩ := ok
  unfold carry tickIntervals
  simp only [fractionUnit]
  split_ifs <;> omega

theorem carry_lt {f : Nat} {t : Int} (ok : TrimOk t) (below : f < 1000200000) : carry f t < 1000200000 := by
  obtain ⟨low, high⟩ := ok
  have eq := carry_eq f ⟨low, high⟩
  unfold tickIntervals at eq
  simp only [fractionUnit] at eq
  split_ifs at eq <;> omega

theorem tick_of_running (running : s.inReset = false) : s.tick =
    { s with tb := s.tb.advance, sli := { s.sli with up := s.sli.up.map s.bringStatus },
             ml := { s.ml with reply := s.settledReply } } := by
  unfold State.tick
  rw [running]
  rfl

theorem tick_of_reset (held : s.inReset = true) : s.tick = s := by
  unfold State.tick
  exact if_pos held

theorem advance_eq {x : Timebase} (top : x.e + 1 < 281474976710656) :
    x.advance = { x with e := x.e + 1, fraction := carry x.fraction x.trim } := by
  unfold Timebase.advance nextElapsed
  rw [if_pos top]

/-- The status octet carries the class, the mode and the two flags in its bit fields (R57, 11.1). -/
theorem statusOctet_toNat (q : Quality) (m : TbMode) (f h : Bool) :
    (statusOctet q m f h).toNat = q.val * 32 + tbModeCode m * 8 + (if f then 4 else 0) + (if h then 2 else 0) := by
  have mode : tbModeCode m ≤ 3 := by cases m <;> decide
  have class_ := q.isLt
  unfold statusOctet octetOf bitAt
  rw [BitVec.toNat_ofNat, Nat.mod_eq_of_lt]
  · rfl
  · cases f <;> cases h <;> simp <;> omega

/-- Only the reply of a reading request executed at this tick is settled (R177). -/
theorem settledReply_of_other (other : ∀ k l, s.ml.request = .executed (k :: l) → s.ml.executedAt = some s.tb.e →
    k ∉ [0x01#8, 0x02#8, 0x11#8, 0x21#8, 0x31#8, 0x41#8, 0x42#8]) : s.settledReply = s.ml.reply := by
  unfold State.settledReply
  split
  · next req executed =>
    split
    · next now =>
      have unread : readingOf (kindOf req) = none := by
        cases req with
        | nil => rfl
        | cons k l =>
          have apart := other k l executed now
          have kind : kindOf (k :: l) = k.toNat := by simp [kindOf, fieldAt, natOf]
          have differs : ∀ n : Nat, n < 256 → k ≠ BitVec.ofNat 8 n → k.toNat ≠ n := fun n small ne eq =>
            ne (BitVec.eq_of_toNat_eq (by rw [eq, BitVec.toNat_ofNat, Nat.mod_eq_of_lt small]))
          simp only [List.mem_cons, List.not_mem_nil, or_false, not_or] at apart
          obtain ⟨a, b, c, d, e, f, g⟩ := apart
          rw [kind]
          unfold readingOf
          rw [if_neg (differs _ (by decide) a), if_neg (differs _ (by decide) b), if_neg (differs _ (by decide) c),
            if_neg (differs _ (by decide) d), if_neg (differs _ (by decide) e), if_neg (differs _ (by decide) f),
            if_neg (differs _ (by decide) g)]
      rw [unread]
    · rfl
  · rfl
  · rfl
  · rfl

theorem bringStatus_of_earlier (other : ∀ u ∈ s.sli.up, u.start ≠ s.tb.e) : s.sli.up.map s.bringStatus = s.sli.up := by
  cases up : s.sli.up with
  | none => rfl
  | some u => simp [State.bringStatus, other u up]

/-- Settles O14. -/
theorem tickRaisesElapsedCountByOne : Obligations.TickRaisesElapsedCountByOne := by
  unfold Obligations.TickRaisesElapsedCountByOne
  refine ⟨fun s held => congrArg Host.Outcome.next (tick_of_reset held), fun s running top ok below => ?_⟩
  refine ⟨s.tick, tickIntervals s.tb.fraction s.tb.trim, carry s.tb.fraction s.tb.trim, rfl, tickIntervals_le .., carry_lt ok below,
    carry_eq _ ok, ?_⟩
  rw [tick_of_running running]
  refine ⟨advance_eq top, ⟨fun b hb => ?_⟩, rfl, fun other => ?_, rfl, fun earlier => ?_, fun u up now => ?_⟩
  · cases b <;> first | rfl | exact absurd (by decide) hb
  · show { s.ml with reply := s.settledReply } = s.ml
    rw [settledReply_of_other other]
  · show { s.sli with up := s.sli.up.map s.bringStatus } = s.sli
    rw [bringStatus_of_earlier earlier]
  · refine ⟨s.statusNow (u.frame.status.getLsbD 2), ?_, ?_⟩
    · show s.sli.up.map s.bringStatus = _
      rw [up]
      simp [State.bringStatus, now]
    · unfold State.statusNow
      rw [statusOctet_toNat]
      simp

/-- The states that a span of ticks passes through, by the ticks made so far. -/
theorem ticks_follow {x : Nat → State} {k : Nat} (ticks : ∀ i < k, exec .tick (x i) = .next (x (i + 1)))
    (running : (x 0).inReset = false) (top : (x 0).tb.e + k < 281474976710656) (ok : TrimOk (x 0).tb.trim) :
    ∀ i ≤ k, (x i).inReset = false ∧ (x i).tb.trim = (x 0).tb.trim ∧ (x i).tb.e = (x 0).tb.e + i ∧
      ((x i).tb.fraction : Int) + i * 1000000000 = (x 0).tb.fraction +
        ((∑ j ∈ Finset.range i, tickIntervals (x j).tb.fraction (x 0).tb.trim : Nat) : Int) * (1000000000 + (x 0).tb.trim) := by
  intro i
  induction i with
  | zero => intro _; exact ⟨running, rfl, rfl, by simp⟩
  | succ i ih =>
    intro le
    obtain ⟨reset, trim, e, fraction⟩ := ih (by omega)
    have next : x (i + 1) = (x i).tick := (Host.Outcome.next.inj (ticks i (by omega))).symm
    rw [tick_of_running reset] at next
    have tb : (x (i + 1)).tb = { (x i).tb with e := (x i).tb.e + 1, fraction := carry (x i).tb.fraction (x i).tb.trim } := by
      rw [next]; exact advance_eq (by omega)
    refine ⟨by rw [next]; exact reset, by rw [tb]; exact trim, by rw [tb]; show (x i).tb.e + 1 = _; omega, ?_⟩
    have carried := carry_eq (x i).tb.fraction (t := (x i).tb.trim) (by rw [trim]; exact ok)
    rw [trim] at carried
    rw [tb, Finset.sum_range_succ]
    push_cast at fraction ⊢
    rw [trim]
    linarith

/-- Settles O15: the carried fractions at the ends of the span make the difference. -/
theorem ticksFollowTrim : Obligations.TicksFollowTrim := by
  unfold Obligations.TicksFollowTrim
  intro x k ticks running top ok first last
  obtain ⟨-, -, e, fraction⟩ := ticks_follow ticks running top ok k (Nat.le_refl k)
  refine ⟨e, ?_⟩
  rw [abs_lt]
  constructor <;> linarith

end Sys2Proof.Machine
end

/-! The Event Queue's admission and the upward frames with their report slot (R56, R57, R86, R87, R92 to R104). -/

section
namespace Sys2Proof.Machine

variable {s t : State}

/-! ### Admission (R86, R87, R92 to R94) -/

/-- The EQ takes a record of class A below 512 records, one of class B below 480 (R92). -/
theorem takes_iff (q : EventQueue) (c : RecClass) :
    q.takes c = true ↔ (c = .a ∧ q.records.length < 512) ∨ (c = .b ∧ q.records.length < 480) := by
  cases c <;> simp [EventQueue.takes]

/-- What an admission makes of the EQ and of the current header set (R93). -/
theorem enqueue_contents (r : EventRecord) (below : s.eq.seq < 65536) :
    (s.enqueue r).eq = { s.eq with records := s.eq.records ++ [{ r with seq := s.eq.seq, overflowBefore := s.eq.lossPending }],
                                   seq := if s.eq.seq = 65535 then 0 else s.eq.seq + 1, lossPending := false } ∧
    (s.enqueue r).sh = { s.sh with current := s.sh.current.map fun h =>
      { h with admittedA := if r.cls = .a then min (h.admittedA + 1) 4294967295 else h.admittedA,
               admittedB := if r.cls = .b then min (h.admittedB + 1) 4294967295 else h.admittedB } } := by
  have next : (s.eq.seq + 1) % 65536 = if s.eq.seq = 65535 then 0 else s.eq.seq + 1 := by split <;> omega
  refine ⟨?_, ?_⟩
  · unfold State.enqueue State.countCurrent EventQueue.sealRecord
    rw [next]
  · unfold State.enqueue State.countCurrent Header.countAdmission
    cases r.cls <;> simp [satAdd]

/-- What a loss makes of the EQ (R94). -/
theorem lose_eq (c : RecClass) (s : State) : (s.lose c 1).eq =
    { s.eq with lostA := if c = .a then min (s.eq.lostA + 1) 65535 else s.eq.lostA,
                lostB := if c = .b then min (s.eq.lostB + 1) 65535 else s.eq.lostB, lossPending := true } := by
  cases c <;> simp [State.lose, State.countCurrent, satAdd]

/-- A channel record enters at once exactly when its pending store is empty and the EQ takes it (R86). -/
theorem offerChannel_cases (ch : Chan) (r : EventRecord) (s : State) :
    (s.cm[ch].store = [] ∧ s.eq.takes r.cls = true ∧ otherClassHeld s.eq ch r.cls = false ∧ s.offerChannel ch r = s.enqueue r) ∨
    (¬(s.cm[ch].store = [] ∧ s.eq.takes r.cls = true ∧ otherClassHeld s.eq ch r.cls = false) ∧
      s.offerChannel ch r = s.onChannel ch fun x => { x with store := storeRecord x.store r }) := by
  unfold State.offerChannel
  split
  · next clear =>
    simp only [Bool.and_eq_true, Bool.not_eq_true', List.isEmpty_iff] at clear
    exact .inl ⟨clear.1.1, clear.1.2, clear.2, rfl⟩
  · next held =>
    simp only [Bool.and_eq_true, Bool.not_eq_true', List.isEmpty_iff, and_assoc] at held
    exact .inr ⟨held, rfl⟩

/-- Settles O40. -/
theorem admissionFollowsFillAndRoute : Obligations.AdmissionFollowsFillAndRoute := by
  unfold Obligations.AdmissionFollowsFillAndRoute
  intro s r open_ admitted below
  have taken : open_ ↔ s.eq.takes r.cls = true := (takes_iff s.eq r.cls).symm
  refine ⟨fun room => ?_, fun full => ?_, fun ch => ?_⟩
  · have entered : s.offer r = s.enqueue r := by unfold State.offer; exact if_pos (taken.mp room)
    refine ⟨?_, offer_within r s⟩
    rw [entered]
    exact enqueue_contents r below
  · have lost : s.offer r = s.lose r.cls 1 := by unfold State.offer; exact if_neg fun room => full (taken.mpr room)
    rw [lost]
    exact lose_eq r.cls s
  intro clear
  refine ⟨fun room empty free => ?_, fun held => ?_⟩
  · have free : otherClassHeld s.eq ch r.cls = false := otherClassHeld_eq_false.mpr free
    rcases offerChannel_cases ch r s with ⟨-, -, -, entered⟩ | ⟨other, -⟩
    · rw [entered]
      exact ⟨enqueue_contents r below, rfl⟩
    · exact absurd ⟨empty, taken.mp room, free⟩ other
  · rcases offerChannel_cases ch r s with ⟨empty, room, free, -⟩ | ⟨-, stored⟩
    · exact absurd ⟨taken.mpr room, empty, otherClassHeld_eq_false.mp free⟩ held
    · have kept : (s.offerChannel ch r).cm[ch].store = storeRecord s.cm[ch].store r := by
        rw [stored]
        show (modifyAt s.cm ch _)[ch].store = _
        rw [modifyAt_self]
      refine ⟨by rw [stored]; rfl, by rw [stored]; rfl, fun e => ?_, fun a e => ?_, fun a b e => ?_⟩
      · rw [kept, e]; rfl
      · rw [kept, e]; rfl
      · refine ⟨b.collapse r, by rw [kept, e]; rfl, rfl, rfl, rfl, rfl⟩

/-! ### The end of an upward frame (R96, R97, R101 to R104) -/

theorem idleFrame_eq (r : Arbiter) : r.idleFrame =
    { r with idle := min (r.idle + 1) 255, levelA := if r.idle = 3 then .normal else r.levelA,
             levelB := if r.idle = 3 then .normal else r.levelB } := by
  unfold Arbiter.idleFrame
  split
  · next four =>
    have three : r.idle = 3 := by omega
    simp [three]
  · next other =>
    have other : r.idle ≠ 3 := by omega
    simp [other, satAdd]

theorem complete_eq (c : RecClass) (r : Arbiter) : r.complete c =
    { r with sending := none, lastSender := some c, levelA := if c = .a then .lowered else .normal,
             levelB := if c = .a then .normal else .lowered } := by
  cases c <;> rfl

/-- A round only appends to the EQ and takes from the heads of the pending stores. -/
def TakenFrom (s t : State) : Prop :=
  s.eq.records <+: t.eq.records ∧ ∀ ch : Chan, t.cm[ch].store <:+ s.cm[ch].store

theorem TakenFrom.afterTurn (h : TakenFrom s t) : TakenFrom s t.afterTurn := by
  cases chosen : releaseChoice t with
  | none => rw [afterTurn_of_none chosen]; exact h
  | some p =>
    rw [afterTurn_of_choice chosen]
    refine ⟨h.1.trans (List.prefix_append ..), fun ch => ?_⟩
    show (modifyAt t.cm p.1 _)[ch].store <:+ _
    exact forall_modifyAt (P := fun ch (x : Channel) => x.store <:+ s.cm[ch].store) h.2 ((List.tail_suffix _).trans (h.2 p.1)) ch

/-- A head that a finished round leaves cannot be taken (R97). -/
theorem not_releasable_head {ch : Chan} {r : EventRecord} (done : releaseChoice s = none) (head : s.cm[ch].store.head? = some r) :
    s.eq.takes r.cls = false ∨ ∃ q ∈ s.eq.records, isChannelKind q.kind = true ∧ q.source = ch.val ∧ q.cls ≠ r.cls := by
  have free := releaseChoice_eq_none.mp done ch
  by_contra blocked
  push Not at blocked
  obtain ⟨room, clear⟩ := blocked
  have offered : releasable s ch = some r :=
    releasable_eq_some.mpr ⟨head, by simpa using room, otherClassHeld_eq_false.mpr clear⟩
  rw [free] at offered
  cases offered

theorem releaseRound_ra (s : State) : s.releaseRound.ra = s.ra := (releaseRound_within s).out .ra (by decide)

theorem upwardEnd_of_early {u : UpInProgress} (up : s.sli.up = some u) (elapsed : u.source = .elapsed)
    (early : s.tb.e < u.start + 16) : s.upwardEnd = s := by
  unfold State.upwardEnd
  rw [up]
  exact if_pos ⟨elapsed, early⟩

theorem upwardEnd_of_due {u : UpInProgress} (up : s.sli.up = some u) (due : u.source = .loop ∨ u.start + 16 ≤ s.tb.e) :
    s.upwardEnd = s.endUpward u := by
  unfold State.upwardEnd
  rw [up]
  refine if_neg fun early => ?_
  obtain ⟨elapsed, early⟩ := early
  rcases due with loop | late
  · rw [elapsed] at loop; cases loop
  · simp only [ticksPerFrame] at early; omega

/-- Settles O34. -/
theorem upwardFrameEndCounts : Obligations.UpwardFrameEndCounts := by
  unfold Obligations.UpwardFrameEndCounts
  refine ⟨fun s up => ?_, fun s u up => ⟨fun elapsed early => congrArg Host.Outcome.next (upwardEnd_of_early up elapsed early),
    fun due => ⟨s.upwardEnd, rfl, ?_⟩⟩⟩
  · show Host.Outcome.next s.upwardEnd = _
    unfold State.upwardEnd
    rw [up]
  have within : Within [.sli, .ra, .eq, .sh, .cm] s s.upwardEnd := (upwardEnd_within s).mono (by decide)
  rw [upwardEnd_of_due up due] at within ⊢
  have ended : ∀ t : State, Within [.ra, .eq, .cm, .sh] (s.onSli fun x => { x with up := none }) t →
      t.sli = { s.sli with up := none } := fun t w => w.out .sli (by decide)
  cases slot : u.slot with
  | idle =>
    have e : s.endUpward u = (s.onSli fun x => { x with up := none }).onRa Arbiter.idleFrame := by
      unfold State.endUpward; rw [slot]
    rw [e] at within ⊢
    exact ⟨rfl, fun _ => ⟨idleFrame_eq s.ra, rfl⟩, nofun, nofun, nofun, within⟩
  | abandoned =>
    have e : s.endUpward u = s.onSli fun x => { x with up := none } := by
      unfold State.endUpward; rw [slot]
    rw [e] at within ⊢
    exact ⟨rfl, nofun, fun _ => ⟨rfl, rfl⟩, nofun, nofun, within⟩
  | record =>
    have e : s.endUpward u = (s.onSli fun x => { x with up := none }).recordFrameEnds := by
      unfold State.endUpward; rw [slot]
    rw [e] at within ⊢
    have sli := ended _ ((recordFrameEnds_within (s.onSli fun x => { x with up := none })).mono (by decide))
    refine ⟨sli, nofun, nofun, fun _ x sending more => ?_, fun _ x sending eight => ?_, within⟩
    · unfold State.recordFrameEnds
      rw [show (s.onSli fun x => { x with up := none }).ra.sending = some x from sending]
      dsimp only
      rw [if_neg more]
      exact ⟨rfl, rfl⟩
    · unfold State.recordFrameEnds
      rw [show (s.onSli fun x => { x with up := none }).ra.sending = some x from sending]
      dsimp only
      rw [if_pos eight]
      unfold State.leave
      generalize begins : ({ State.onRa (Arbiter.complete x.record.cls) (State.onRa (fun r => { r with idle := 0 })
        (s.onSli fun x => { x with up := none })) with eq := _ } : State) = b
      have round : TakenFrom b b.releaseRound := releaseRound_keeps (fun _ g => g.afterTurn) ⟨List.prefix_rfl, fun _ => List.suffix_rfl⟩
      have done := releaseRound_done b
      refine ⟨?_, ?_, fun ch => ?_, fun ch r head => not_releasable_head done head⟩
      · rw [releaseRound_ra, ← begins]
        exact complete_eq x.record.cls { s.ra with idle := 0 }
      · have records := round.1
        rw [← begins] at records ⊢
        exact records
      · have store := round.2 ch
        rw [← begins] at store ⊢
        exact store

end Sys2Proof.Machine
end

/-! The upward frame that starts: its contents and its report slot (R56, R57, R63, R99 to R104). -/

section
namespace Sys2Proof.Machine

variable {s t : State}

/-! ### When a frame starts -/

theorem upwardStarts_iff (s : State) : s.upwardStarts = true ↔ s.upwardDueNow := by
  unfold State.upwardStarts State.upwardDueNow
  cases s.sli.upTiming with
  | loop => cases s.sli.upDue <;> simp [and_assoc]
  | elapsed => simp [and_assoc, ticksPerFrame]

theorem upwardStart_of_due (due : s.upwardDueNow) : s.upwardStart = s.startUpward :=
  if_pos ((upwardStarts_iff s).mpr due)

theorem upwardStart_of_not_due (early : ¬s.upwardDueNow) : s.upwardStart = s :=
  if_neg fun starts => early ((upwardStarts_iff s).mp starts)

/-! ### The report slot (R99, R100, R103, R104) -/

theorem oldest_isSome (q : EventQueue) (c : RecClass) : (q.oldest c).isSome = true ↔ ∃ r ∈ q.records, r.cls = c := by
  simp [EventQueue.oldest, List.find?_isSome]

theorem eligible_iff (s : State) (c : RecClass) : eligible s.eq s.ra c = true ↔ s.mayStart c := by
  unfold eligible State.mayStart
  rw [Bool.and_eq_true, oldest_isSome, decide_eq_true_iff]

theorem startingClass_of_turn {c : RecClass} (turn : s.turnOf c) : startingClass s.eq s.ra = some c := by
  obtain ⟨mine, other⟩ := turn
  have may := (eligible_iff s c).mpr mine
  unfold startingClass
  cases c with
  | a =>
    rw [may]
    by_cases last : s.ra.lastSender = some .a
    · have none : eligible s.eq s.ra .b = false := by
        rw [← Bool.not_eq_true, eligible_iff]; exact other last
      simp [none]
    · simp [last]
  | b =>
    rw [may]
    by_cases last : s.ra.lastSender = some .a
    · simp [last]
    · have none : eligible s.eq s.ra .a = false := by
        rw [← Bool.not_eq_true, eligible_iff]; exact other last
      simp [none]

theorem startingClass_of_none (a : ¬s.mayStart .a) (b : ¬s.mayStart .b) : startingClass s.eq s.ra = none := by
  have a : eligible s.eq s.ra .a = false := by rw [← Bool.not_eq_true, eligible_iff]; exact a
  have b : eligible s.eq s.ra .b = false := by rw [← Bool.not_eq_true, eligible_iff]; exact b
  simp [startingClass, a, b]

theorem wordOctets_length (n v : Nat) : (wordOctets n v).length = n := by
  induction n with
  | zero => rfl
  | succ n ih => simp [wordOctets, ih]

theorem natOctets_length (n v : Nat) : (natOctets n v).length = n := wordOctets_length ..

theorem octets_length (r : EventRecord) : r.octets.length = 16 := by
  unfold EventRecord.octets
  cases r.cls <;> simp [natOctets_length, wordOctets_length]

/-- The two octets of frame `k` of a record's transmission (R103). -/
theorem recordSlot_octets (r : EventRecord) {k : Nat} (first : 1 ≤ k) (last : k ≤ 8) :
    r.octets[2 * k - 2]? = some (recordSlot r k).first ∧ r.octets[2 * k - 1]? = some (recordSlot r k).second := by
  have length := octets_length r
  unfold recordSlot
  constructor
  · rw [List.getElem?_eq_getElem (by omega)]; rfl
  · rw [List.getElem?_eq_getElem (by omega)]; rfl

/-! ### What the frame takes -/

/-- The frame that an upward start sends. -/
def State.startedFrame (s : State) : UpInProgress :=
  let d := decideSlot s.eq s.ra
  { start := s.tb.e, source := s.sli.upTiming, slot := d.2.use,
    frame := (({ s with ra := d.1 } : State).readStore .up).upwardContents d.2 }

theorem startUpward_within (s : State) : Within [.up, .eq, .sh] { s with ra := (decideSlot s.eq s.ra).1 }
    (({ s with ra := (decideSlot s.eq s.ra).1 } : State).readStore .up) :=
  (readStore_within .up _).mono (by decide)

theorem startUpward_sli (s : State) : s.startUpward.sli = { s.sli with upDue := none, up := some s.startedFrame } := by
  have w := startUpward_within s
  have sli : (({ s with ra := (decideSlot s.eq s.ra).1 } : State).readStore .up).sli = s.sli := w.out .sli (by decide)
  unfold State.startUpward State.startedFrame
  simp only [State.onMl, State.onSli, sli]

theorem startUpward_ra (s : State) : s.startUpward.ra = (decideSlot s.eq s.ra).1 := (startUpward_within s).out .ra (by decide)

theorem startUpward_store (s : State) : s.startUpward.up = (s.readStore .up).up ∧ s.startUpward.eq = (s.readStore .up).eq := by
  have same : ∀ r : Arbiter, (({ s with ra := r } : State).readStore .up).up = (s.readStore .up).up ∧
      (({ s with ra := r } : State).readStore .up).eq = (s.readStore .up).eq := fun r => by
    unfold State.readStore State.slip State.offer State.store
    dsimp only
    split
    · exact ⟨rfl, rfl⟩
    · split
      · exact ⟨rfl, rfl⟩
      · split <;> split <;> first | exact ⟨rfl, rfl⟩ | contradiction
  exact same _

/-- The status octet shows what the EQ holds after the frame's own read (R57). -/
theorem startedFrame_status (s : State) : s.startedFrame.frame.status.toNat =
    s.tb.quality.val * 32 + tbModeCode s.dl.mode * 8 + (if s.sli.alignment = .lof then 4 else 0) +
      (if 480 ≤ s.startUpward.eq.records.length then 2 else 0) := by
  have w := startUpward_within s
  have tb := w.out .tb (by decide)
  have dl := w.out .dl (by decide)
  have sli := w.out .sli (by decide)
  show (State.statusNow _ (({ s with ra := (decideSlot s.eq s.ra).1 } : State).readStore .up)).toNat = _
  unfold State.statusNow
  rw [statusOctet_toNat, tb, dl, sli]
  simp [State.startUpward, State.onSli, State.onMl] <;> rfl

theorem startedFrame_octets (s : State) : s.startedFrame.frame.octets =
    [0x1B#8, 0xA7#8, s.startedFrame.frame.status, s.startedFrame.frame.report0, s.startedFrame.frame.report1,
      s.startedFrame.frame.recordStart, s.startedFrame.frame.mgmt, s.startedFrame.frame.control] ++
      s.startedFrame.frame.passthrough.toList ++ List.replicate 64 0xFF#8 := by
  rw [show List.replicate 64 0xFF#8 = idleFill.toList by simp [idleFill]]
  rfl

theorem startedFrame_passthrough (s : State) : s.startedFrame.frame.passthrough = s.startUpward.up.last := rfl

theorem decideSlot_of_sending {q : EventQueue} {r : Arbiter} {x : Sending} (sending : r.sending = some x) (more : x.frames < 8) :
    decideSlot q r = ({ r with sending := some { x with frames := x.frames + 1 } }, recordSlot x.record (x.frames + 1)) := by
  unfold decideSlot
  rw [sending]
  dsimp only
  rw [show min (x.frames + 1) 8 = x.frames + 1 by omega]

theorem decideSlot_of_abandoned {q : EventQueue} {r : Arbiter} (idle : r.sending = none) (left : 0 < r.abandoned) :
    decideSlot q r = ({ r with abandoned := r.abandoned - 1 }, idleSlot .abandoned) := by
  unfold decideSlot
  rw [idle]
  exact if_pos left

theorem decideSlot_of_turn {q : EventQueue} {r : Arbiter} {c : RecClass} {x : EventRecord} (idle : r.sending = none)
    (left : r.abandoned = 0) (turn : startingClass q r = some c) (oldest : q.oldest c = some x) :
    decideSlot q r = ({ r with sending := some { record := x, frames := 1 } }, recordSlot x 1) := by
  unfold decideSlot
  rw [idle, turn]
  simp [left, oldest]

theorem decideSlot_of_none {q : EventQueue} {r : Arbiter} (idle : r.sending = none) (left : r.abandoned = 0)
    (turn : startingClass q r = none) : decideSlot q r = (r, idleSlot .idle) := by
  unfold decideSlot
  rw [idle, turn]
  simp [left]

/-- The report slot of the frame is the decided one. -/
theorem startedFrame_slot {r : Arbiter} {x : SlotContents} (decided : decideSlot s.eq s.ra = (r, x)) :
    s.startUpward.ra = r ∧ s.startedFrame.slot = x.use ∧ s.startedFrame.frame.report0 = x.first ∧
      s.startedFrame.frame.report1 = x.second ∧ s.startedFrame.frame.recordStart = octetOf (bitAt 7 x.recordStart) := by
  have frame : s.startedFrame =
      { start := s.tb.e, source := s.sli.upTiming, slot := x.use
        frame := (({ s with ra := r } : State).readStore .up).upwardContents x } := by
    simp only [State.startedFrame, decided]
  rw [frame]
  exact ⟨by rw [startUpward_ra, decided], rfl, rfl, rfl, rfl⟩

theorem startUpward_up_of_nil (empty : s.up.frames = []) :
    s.startedFrame.frame.passthrough = s.up.last ∧ s.startUpward.up.slips = min (s.up.slips + 1) 65535 ∧
      (s.up.recordMade = false → s.eq.records.length < 480 →
        s.admittedNext s.startUpward
          (mkRecord .slip .b 0 s.up.slips (min (s.up.slips + 1) 65535) 1 (stampOf s.tb.vals s.tb.e))) := by
  obtain ⟨up, eq⟩ := startUpward_store s
  have read : s.readStore .up = s.slip .up .repeated := readStore_of_nil empty
  have slipped : (s.readStore .up).up = s.up.slipped := by rw [read]; exact store_slip .up .repeated s
  refine ⟨?_, ?_, fun first room => ?_⟩
  · rw [startedFrame_passthrough, up, slipped]; rfl
  · rw [up, slipped]; rfl
  · have reported := ((slip_reported .up .repeated s).2 first).1 room
    rw [← read] at reported
    unfold State.admittedNext at reported ⊢
    rw [eq]
    exact reported

theorem startUpward_up_of_cons {f : Vector Octet 24} {r : List (Vector Octet 24)} (frames : s.up.frames = f :: r) :
    s.startedFrame.frame.passthrough = f ∧ s.startUpward.up = { s.up with frames := r, last := f } ∧ s.startUpward.eq = s.eq := by
  obtain ⟨up, eq⟩ := startUpward_store s
  have read := readStore_of_cons (n := .up) (s := s) frames
  have taken : s.startUpward.up = { s.up with frames := r, last := f } := by rw [up, read]; rfl
  refine ⟨?_, taken, ?_⟩
  · rw [startedFrame_passthrough, taken]
  · rw [eq, read]; rfl

/-- Settles O33. -/
theorem upwardFrameHasItsContents : Obligations.UpwardFrameHasItsContents := by
  unfold Obligations.UpwardFrameHasItsContents
  refine fun s => ⟨fun early => congrArg Host.Outcome.next (upwardStart_of_not_due early), fun due => ?_⟩
  have within : Within [.sli, .ra, .ml, .up, .eq, .sh] s s.upwardStart := (upwardStart_within s).mono (by decide)
  refine ⟨s.upwardStart, s.startedFrame, rfl, ?_⟩
  rw [upwardStart_of_due due] at within ⊢
  refine ⟨startUpward_sli s, rfl, rfl, startedFrame_status s, startedFrame_octets s, fun f r => startUpward_up_of_cons,
    startUpward_up_of_nil, fun x sending first more => ?_, fun idle left => ?_, fun idle left c turn => ?_,
    fun idle left a b => ?_, within⟩
  · obtain ⟨ra, use, report0, report1, start⟩ := startedFrame_slot (decideSlot_of_sending (q := s.eq) sending more)
    obtain ⟨even, odd⟩ := recordSlot_octets x.record (k := x.frames + 1) (by omega) (by omega)
    rw [report0, report1, start]
    refine ⟨use, ra, even, odd, ?_⟩
    have later : (x.frames + 1 == 1) = false := by simp; omega
    simp [recordSlot, later, octetOf, bitAt]
  · obtain ⟨ra, use, report0, report1, start⟩ := startedFrame_slot (decideSlot_of_abandoned (q := s.eq) idle left)
    exact ⟨use, ra, report0, report1, start⟩
  · obtain ⟨x, oldest⟩ := Option.isSome_iff_exists.mp ((oldest_isSome s.eq c).mpr turn.1.1)
    obtain ⟨ra, use, report0, report1, start⟩ :=
      startedFrame_slot (decideSlot_of_turn idle left (startingClass_of_turn turn) oldest)
    obtain ⟨even, odd⟩ := recordSlot_octets x (k := 1) (by omega) (by omega)
    rw [report0, report1, start]
    exact ⟨x, oldest, use, ra, even, odd, rfl⟩
  · obtain ⟨ra, use, report0, report1, start⟩ :=
      startedFrame_slot (decideSlot_of_none idle left (startingClass_of_none a b))
    exact ⟨use, ra, report0, report1, start⟩

end Sys2Proof.Machine
end

/-! PROOF. The Discipline Loop's choice of its reference: what a change of mode, a switch, an abort and the return to A
leave, and the statement about REVERT_WAIT_EXPIRY. -/

section
namespace Sys2Proof.Machine

variable {s t : State} {m : TbMode} {a : Option Ref} {c : TbCause}

/-! ### A change of mode (R38, R45) -/

theorem setMode_same (c : TbCause) (s : State) : s.setMode s.dl.mode s.dl.active c = s := if_pos ⟨rfl, rfl⟩

@[simp] theorem setMode_rm (m : TbMode) (a : Option Ref) (c : TbCause) (s : State) : (s.setMode m a c).rm = s.rm := by
  have kept : (s.dropSetting m).rm = s.rm := (dropSetting_within m s).out .rm (by decide)
  unfold State.setMode
  split
  · rfl
  · simp [kept]

@[simp] theorem setMode_ml (m : TbMode) (a : Option Ref) (c : TbCause) (s : State) : (s.setMode m a c).ml = s.ml :=
  (setMode_within ..).out .ml (by decide)

/-- The DL's items after a change of mode or reference. -/
theorem setMode_changed_dl (changed : ¬(m = s.dl.mode ∧ a = s.dl.active)) (c : TbCause) :
    (s.setMode m a c).dl = { s.dl with mode := m, active := a, before := (s.dropSetting m).noteBefore, everLocked := s.dl.everLocked || m == .locked, confirmed := if a = s.dl.active ∧ isFollowing m then s.dl.confirmed else none } := by
  have dl : (s.dropSetting m).dl = s.dl := (dropSetting_within m s).out .dl (by decide)
  have before : s.noteBefore = (s.dropSetting m).noteBefore := by
    unfold State.noteBefore
    rw [dl, (show (s.dropSetting m).tb.e = s.tb.e by unfold State.dropSetting; split <;> rfl)]
  simp [State.setMode, changed, dl, before]

/-- What `setMode` makes of the mode, the active reference and whether the part has locked, changed or not. -/
theorem setMode_dl_items (m : TbMode) (a : Option Ref) (c : TbCause) (s : State) :
    (s.setMode m a c).dl.mode = m ∧ (s.setMode m a c).dl.active = a ∧
      (s.setMode m a c).dl.integral = s.dl.integral ∧ (s.setMode m a c).dl.search = s.dl.search ∧
      (s.setMode m a c).dl.history = s.dl.history := by
  by_cases same : m = s.dl.mode ∧ a = s.dl.active
  · obtain ⟨rfl, rfl⟩ := same
    rw [setMode_same]
    exact ⟨rfl, rfl, rfl, rfl, rfl⟩
  · rw [setMode_changed_dl same]
    exact ⟨rfl, rfl, rfl, rfl, rfl⟩

@[simp] theorem setMode_mode (m : TbMode) (a : Option Ref) (c : TbCause) (s : State) : (s.setMode m a c).dl.mode = m :=
  (setMode_dl_items m a c s).1

@[simp] theorem setMode_active (m : TbMode) (a : Option Ref) (c : TbCause) (s : State) : (s.setMode m a c).dl.active = a :=
  (setMode_dl_items m a c s).2.1

@[simp] theorem setMode_integral (m : TbMode) (a : Option Ref) (c : TbCause) (s : State) :
    (s.setMode m a c).dl.integral = s.dl.integral :=
  (setMode_dl_items m a c s).2.2.1

@[simp] theorem setMode_search (m : TbMode) (a : Option Ref) (c : TbCause) (s : State) :
    (s.setMode m a c).dl.search = s.dl.search :=
  (setMode_dl_items m a c s).2.2.2.1

@[simp] theorem setMode_history (m : TbMode) (a : Option Ref) (c : TbCause) (s : State) :
    (s.setMode m a c).dl.history = s.dl.history :=
  (setMode_dl_items m a c s).2.2.2.2

/-- A change among ACQUIRING and LOCKED, or out of them, leaves the Timebase: a time setting is discarded only at an
entry (R14). -/
theorem setMode_tb_of_following (following : isFollowing s.dl.mode = true) (m : TbMode) (a : Option Ref) (c : TbCause) :
    (s.setMode m a c).tb = s.tb := by
  have kept : s.dropSetting m = s := by simp [State.dropSetting, following]
  unfold State.setMode
  split
  · rfl
  · simp [kept]

/-- A change of mode or reference offers its TIMEBASE record (R45). -/
theorem setMode_admitted (changed : ¬(m = s.dl.mode ∧ a = s.dl.active)) (room : s.eq.records.length < 512) :
    s.admittedNext (s.setMode m a c) (timebaseRecord a s.dl.mode m c s.tb.now) := by
  have eq : (s.dropSetting m).eq = s.eq := (dropSetting_within m s).out .eq (by decide)
  rw [State.setMode, if_neg changed]
  refine State.admittedNext.of_eq (State.offer_admitted ?_) eq
  exact takes_a (s := s.dropSetting m) (by rwa [eq])

/-! ### A reference becomes the active one (R35, R40 to R43) -/

@[simp] theorem follow_rm (r : Ref) (m : TbMode) (b : Int) (c : TbCause) (s : State) :
    (s.follow r m b c).rm = s.rm.put r { s.rm.get r with buildOut := b } := by
  simp [State.follow]

@[simp] theorem follow_mode (r : Ref) (m : TbMode) (b : Int) (c : TbCause) (s : State) : (s.follow r m b c).dl.mode = m := by
  simp [State.follow]

@[simp] theorem follow_active (r : Ref) (m : TbMode) (b : Int) (c : TbCause) (s : State) :
    (s.follow r m b c).dl.active = some r := by
  simp [State.follow]

@[simp] theorem follow_history (r : Ref) (m : TbMode) (b : Int) (c : TbCause) (s : State) :
    (s.follow r m b c).dl.history = [] := by
  simp [State.follow]

@[simp] theorem follow_integral (r : Ref) (m : TbMode) (b : Int) (c : TbCause) (s : State) :
    (s.follow r m b c).dl.integral = s.dl.integral := by
  simp [State.follow]

@[simp] theorem follow_search (r : Ref) (m : TbMode) (b : Int) (c : TbCause) (s : State) :
    (s.follow r m b c).dl.search = s.dl.search := by
  simp [State.follow]

@[simp] theorem follow_ml (r : Ref) (m : TbMode) (b : Int) (c : TbCause) (s : State) : (s.follow r m b c).ml = s.ml := by
  simp [State.follow]

theorem follow_tb_of_following (following : isFollowing s.dl.mode = true) (r : Ref) (m : TbMode) (b : Int) (c : TbCause) :
    (s.follow r m b c).tb = s.tb := by
  rw [State.follow, setMode_tb_of_following (by simpa using following)]
  rfl

/-- Another reference than the active one: the confirmed step is dropped (R38). -/
theorem follow_confirmed {r : Ref} (other : s.dl.active ≠ some r) (m : TbMode) (b : Int) (c : TbCause) :
    (s.follow r m b c).dl.confirmed = none := by
  rw [State.follow, setMode_changed_dl (by simp [other.symm])]
  simp [other.symm]

theorem follow_admitted {r : Ref} (other : s.dl.active ≠ some r) (m : TbMode) (b : Int) (c : TbCause)
    (room : s.eq.records.length < 512) :
    s.admittedNext (s.follow r m b c) (timebaseRecord (some r) s.dl.mode m c s.tb.now) :=
  State.admittedNext.of_eq (setMode_admitted (s := (s.onRef r fun x => { x with buildOut := b }).onDl fun d =>
    { d with history := [] }) (by simp [other.symm]) room) rfl

/-! ### The return to A (R42) -/

theorem isFollowing_iff (m : TbMode) : isFollowing m = true ↔ m = .acquiring ∨ m = .locked := by cases m <;> simp [isFollowing]

theorem testRevert_of_due (due : s.revertDue) : s.testRevert = s.follow .a s.dl.mode 0 .revert := by
  obtain ⟨policy, revertive, active, mode, search, qual, q, since, holdoff⟩ := due
  unfold State.testRevert
  rw [since]
  exact if_pos ⟨policy, revertive, (isFollowing_iff _).mpr mode, active, search, qual, holdoff⟩

theorem testRevert_of_not_due (notDue : ¬s.revertDue) : s.testRevert = s := by
  unfold State.testRevert
  split
  · next q since =>
    refine if_neg fun ⟨policy, revertive, mode, active, search, qual, holdoff⟩ => notDue ?_
    exact ⟨policy, revertive, active, (isFollowing_iff _).mp mode, search, qual, q, since, holdoff⟩
  · rfl

/-- Settles O24: under its conditions the test follows A, and otherwise it leaves the state. -/
theorem revertWaitReturnsToA : Obligations.RevertWaitReturnsToA := by
  unfold Obligations.RevertWaitReturnsToA
  intro s
  refine ⟨fun due => ?_, fun notDue => congrArg _ (testRevert_of_not_due (s := s) notDue)⟩
  have due : s.revertDue := due
  obtain ⟨-, -, active, mode, -⟩ := id due
  have onB : s.dl.active ≠ some .a := by rw [active]; exact nofun
  refine ⟨s.follow .a s.dl.mode 0 .revert, congrArg _ (testRevert_of_due due), follow_active .., follow_mode ..,
    follow_history .., follow_confirmed onB .., follow_rm .., follow_tb_of_following ((isFollowing_iff _).mpr mode) ..,
    fun room => follow_admitted onB _ _ _ room, ?_⟩
  have tb := follow_tb_of_following ((isFollowing_iff _).mpr mode) .a s.dl.mode 0 .revert
  refine ⟨fun b out => ?_⟩
  by_cases timebase : b = .tb
  · subst timebase
    exact tb
  · refine (follow_within ..).out b fun h => ?_
    revert out timebase h
    cases b <;> simp [loopBlocks]

end Sys2Proof.Machine
end

/-! PROOF. A reference that leaves QUALIFIED: what the change of its state leaves, how the DL goes on without it, and the
statement about the marker timeouts. -/

section
namespace Sys2Proof.Machine

variable {s t : State}

/-! ### A change of qualification state (R32) -/

@[simp] theorem changeQual_rm (r : Ref) (q : Qual) (x : FaultReason) (f : RefState → RefState) (s : State) :
    (s.changeQual r q x f).rm = s.rm.put r { f (s.rm.get r) with qual := q } := by
  simp [State.changeQual]

@[simp] theorem changeQual_tb (r : Ref) (q : Qual) (x : FaultReason) (f : RefState → RefState) (s : State) :
    (s.changeQual r q x f).tb = s.tb := by
  simp [State.changeQual]

@[simp] theorem changeQual_ml (r : Ref) (q : Qual) (x : FaultReason) (f : RefState → RefState) (s : State) :
    (s.changeQual r q x f).ml = s.ml := by
  simp [State.changeQual]

theorem takes_b (h : s.eq.records.length < 480) : s.eq.takes .b = true := decide_eq_true h

/-- The REF_STATE record of a reference that does not leave QUALIFIED is of class B (R32). -/
theorem changeQual_admitted_b {r : Ref} (q : Qual) (x : FaultReason) (f : RefState → RefState)
    (other : (s.rm.get r).qual ≠ .qualified) (room : s.eq.records.length < 480) :
    s.admittedNext (s.changeQual r q x f) (refStateRecord r (s.rm.get r).qual q x .b s.tb.now) := by
  unfold State.changeQual
  dsimp only
  rw [if_neg fun h => other h.2]
  exact State.admittedNext.of_eq (State.offer_admitted (takes_b room)) rfl

/-- A change of state alone leaves the loop and the Timebase. -/
theorem changeQual_apart (r : Ref) (q : Qual) (x : FaultReason) (f : RefState → RefState) (s : State) :
    Within [.rm, .eq, .sh] s (s.changeQual r q x f) :=
  ((onRef_within ..).and (offer_within ..)).mono (by decide)

/-! ### The loop without its reference (R40, R41, R49) -/

@[simp] theorem abortSearch_rm (s : State) : s.abortSearch.rm = s.rm := by
  unfold State.abortSearch; split <;> simp

@[simp] theorem abortSearch_ml (s : State) : s.abortSearch.ml = s.ml := by
  unfold State.abortSearch; split <;> simp

@[simp] theorem abortSearch_search (s : State) : s.abortSearch.dl.search = none := by
  unfold State.abortSearch
  split
  · assumption
  · simp

@[simp] theorem abortSearch_mode (s : State) : s.abortSearch.dl.mode = s.dl.mode := by
  unfold State.abortSearch; split <;> simp

@[simp] theorem abortSearch_everLocked (s : State) : s.abortSearch.dl.everLocked = s.dl.everLocked := by
  unfold State.abortSearch; split <;> simp

theorem abortSearch_of_none (none : s.dl.search = none) : s.abortSearch = s := by
  unfold State.abortSearch
  rw [none]

theorem abortSearch_integral {x : Search} (running : s.dl.search = some x) : s.abortSearch.dl.integral = x.savedI := by
  unfold State.abortSearch
  rw [running]
  simp

theorem otherRef_ne (r : Ref) : otherRef r ≠ r := by cases r <;> exact nofun

theorem usable_of_same {r : Ref} (ml : t.ml = s.ml) (rm : t.rm.get r = s.rm.get r) : t.usable r = s.usable r := by
  unfold State.usable
  rw [ml, rm]

/-- A switch gives the reference the build-out of R41. -/
theorem switchTo_buildOut (r : Ref) (c : TbCause) (s : State) :
    s.switchedBuildOut r ((s.switchTo r c).rm.get r).buildOut := by
  unfold State.switchTo State.switchedBuildOut
  simp only [follow_rm, RefMonitor.get_put]
  cases r with
  | a => simp
  | b =>
    by_cases locked : s.dl.mode = .locked
    · unfold switchBuildOut
      by_cases on : s.ml.params.buildOut = true
      · simp +contextual [locked, on]
      · simp [locked, on]
    · simp [locked]

@[simp] theorem followNone_active (c : TbCause) (s : State) : (s.followNone c).dl.active = none := by simp [State.followNone]

@[simp] theorem followNone_mode (c : TbCause) (s : State) :
    (s.followNone c).dl.mode = if s.dl.everLocked then .holdover else .freeRun := by
  simp [State.followNone]

@[simp] theorem followNone_integral (c : TbCause) (s : State) : (s.followNone c).dl.integral = s.dl.integral := by
  simp [State.followNone]

@[simp] theorem followNone_search (c : TbCause) (s : State) : (s.followNone c).dl.search = s.dl.search := by
  simp [State.followNone]

@[simp] theorem followNone_rm (c : TbCause) (s : State) : (s.followNone c).rm = s.rm := by simp [State.followNone]

@[simp] theorem followNone_pendingTrim (c : TbCause) (s : State) : (s.followNone c).tb.pendingTrim = s.dl.integral := by
  simp [State.followNone]

/-- How the loop goes on when its reference `r` has left QUALIFIED: on the other reference where that is usable, on none
otherwise (R40, R41). -/
structure WithoutRef (r : Ref) (s t : State) : Prop where
  search : t.dl.search = none
  restored : ∀ x ∈ s.dl.search, t.dl.integral = x.savedI
  integral : s.dl.search = none → t.dl.integral = s.dl.integral
  switched : s.usable (otherRef r) = true → t.dl.active = some (otherRef r) ∧ t.dl.mode = s.dl.mode ∧ t.dl.history = [] ∧ s.switchedBuildOut (otherRef r) (t.rm.get (otherRef r)).buildOut
  unfollowed : s.usable (otherRef r) = false → t.dl.active = none ∧ t.tb.pendingTrim = t.dl.integral ∧ t.dl.mode = if s.dl.everLocked then .holdover else .freeRun

theorem activeLost_withoutRef (r : Ref) (s : State) : WithoutRef r s (s.activeLost r) := by
  have usable : s.abortSearch.usable (otherRef r) = s.usable (otherRef r) := usable_of_same (by simp) (by simp)
  have integral : (s.activeLost r).dl.integral = s.abortSearch.dl.integral := by
    unfold State.activeLost State.switchTo
    dsimp only
    split <;> simp
  constructor
  case search =>
    unfold State.activeLost State.switchTo
    dsimp only
    split <;> simp
  case restored => exact fun x running => integral.trans (abortSearch_integral running)
  case integral => exact fun none => integral.trans (by rw [abortSearch_of_none none])
  case switched =>
    intro free
    have eq : s.activeLost r = s.abortSearch.switchTo (otherRef r) .fault := if_pos (usable.trans free)
    have buildOut := switchTo_buildOut (otherRef r) .fault s.abortSearch
    rw [eq]
    refine ⟨follow_active .., ?_, follow_history .., ?_⟩
    · simp [State.switchTo]
    · simpa [State.switchedBuildOut] using buildOut
  case unfollowed =>
    intro none
    have eq : s.activeLost r = s.abortSearch.followNone .fault := if_neg (by rw [usable, none]; exact nofun)
    rw [eq]
    simp

theorem activeLost_own (r : Ref) (s : State) : (s.activeLost r).rm.get r = s.rm.get r := by
  unfold State.activeLost State.switchTo
  dsimp only
  split
  · simp only [follow_rm]
    cases r <;> simp [RefMonitor.get, RefMonitor.put, otherRef]
  · simp

/-! ### A fault (R29) -/

/-- A reference's items at a fault (R29). -/
def RefState.faulted (x : RefState) (reason : FaultReason) (e : Nat) : RefState :=
  { x with qual := .faulted, fault := reason, holdoffEnd := some (e + 128000), count := 0, qualifiedSince := none }

/-- The first step of a fault: the reference's own items, and its record (R29, R32). -/
def State.faultState (r : Ref) (reason : FaultReason) (s : State) : State :=
  s.changeQual r .faulted reason fun x =>
    { x with fault := reason, holdoffEnd := some (s.tb.e + 128000), count := 0, qualifiedSince := none }

theorem faultState_own (r : Ref) (reason : FaultReason) (s : State) :
    (s.faultState r reason).rm.get r = (s.rm.get r).faulted reason s.tb.e := by
  simp [State.faultState, RefState.faulted]

theorem faultRef_of_other {r : Ref} (other : s.dl.active ≠ some r) (reason : FaultReason) :
    s.faultRef r reason = s.faultState r reason := if_neg other

theorem faultRef_of_active {r : Ref} (active : s.dl.active = some r) (reason : FaultReason) :
    s.faultRef r reason = (s.faultState r reason).activeLost r := if_pos active

/-- A fault leaves the items that a switch to the other reference reads. -/
theorem faultState_switch (r : Ref) (reason : FaultReason) (b : Int) (s : State) :
    (s.faultState r reason).usable (otherRef r) = s.usable (otherRef r) ∧
      ((s.faultState r reason).switchedBuildOut (otherRef r) b ↔ s.switchedBuildOut (otherRef r) b) := by
  refine ⟨usable_of_same (by simp [State.faultState]) (by simp [State.faultState]), ?_⟩
  unfold State.switchedBuildOut
  cases r <;> simp [State.faultState, RefMonitor.put, RefMonitor.get, otherRef]

theorem faultRef_withoutRef {r : Ref} (active : s.dl.active = some r) (reason : FaultReason) :
    WithoutRef r s (s.faultRef r reason) := by
  obtain ⟨search, restored, integral, switched, unfollowed⟩ := activeLost_withoutRef r (s.faultState r reason)
  have dl : (s.faultState r reason).dl = s.dl := changeQual_dl ..
  rw [faultRef_of_active active]
  rw [dl] at restored integral
  constructor
  case search => exact search
  case restored => exact restored
  case integral => exact integral
  case switched =>
    intro free
    obtain ⟨active, mode, history, buildOut⟩ := switched ((faultState_switch r reason 0 s).1.trans free)
    refine ⟨active, mode.trans (by rw [dl]), history, ?_⟩
    exact (faultState_switch r reason _ s).2.mp buildOut
  case unfollowed =>
    intro none
    have h := unfollowed ((faultState_switch r reason 0 s).1.trans none)
    rwa [dl] at h

theorem faultRef_own (r : Ref) (reason : FaultReason) (s : State) :
    (s.faultRef r reason).rm.get r = (s.rm.get r).faulted reason s.tb.e := by
  by_cases active : s.dl.active = some r
  · rw [faultRef_of_active active, activeLost_own, faultState_own]
  · rw [faultRef_of_other active, faultState_own]

/-! ### The marker timeouts (R28 to R30) -/

theorem markerMissing_of_qualified {r : Ref} {m : Nat} (qual : (s.rm.get r).qual = .qualified)
    (last : (s.rm.get r).lastMarker = some m) :
    s.markerMissing r = if m + 96000 ≤ s.tb.e then s.faultRef r .missing else s := by
  unfold State.markerMissing
  rw [qual, last]

theorem markerAbsent_of_waiting {r : Ref} {m : Nat} (qual : (s.rm.get r).qual = .qualifying ∨ (s.rm.get r).qual = .faulted)
    (last : (s.rm.get r).lastMarker = some m) :
    s.markerAbsent r = if m + 192000 ≤ s.tb.e then s.loseRef r else s := by
  unfold State.markerAbsent
  rcases qual with qual | qual <;> rw [qual, last]

/-- Settles O23: the missing timeout is a fault, after which the loop goes on without its reference; the absent timeout
is a change of the reference alone. -/
theorem markerTimeoutsLoseReference : Obligations.MarkerTimeoutsLoseReference := by
  unfold Obligations.MarkerTimeoutsLoseReference
  refine ⟨fun s r m qual last => ⟨fun early => ?_, fun due => ?_⟩, fun s r m qual last => ⟨fun early => ?_, fun due => ?_⟩⟩
  · refine congrArg _ ((markerMissing_of_qualified qual last).trans (if_neg (by omega)))
  · refine ⟨s.faultRef r .missing, congrArg _ ((markerMissing_of_qualified qual last).trans (if_pos due)), ?_⟩
    rw [faultRef_own]
    refine ⟨rfl, rfl, rfl, rfl, rfl, last, fun other => ?_, fun active => ?_, faultRef_within ..⟩
    · rw [faultRef_of_other other]
      exact ⟨changeQual_dl .., changeQual_tb ..⟩
    · obtain ⟨search, restored, integral, switched, unfollowed⟩ := faultRef_withoutRef active .missing
      exact ⟨search, restored, integral, switched, unfollowed⟩
  · exact congrArg _ ((markerAbsent_of_waiting qual last).trans (if_neg (by omega)))
  · refine ⟨s.loseRef r, congrArg _ ((markerAbsent_of_waiting qual last).trans (if_pos due)), ?_, ?_, fun room => ?_, ?_⟩
    · simp [State.loseRef]
    · simp [State.loseRef]
    · exact changeQual_admitted_b _ _ _ (by rcases qual with qual | qual <;> rw [qual] <;> exact nofun) room
    · exact changeQual_apart ..

end Sys2Proof.Machine
end

/-! PROOF. Markers: what a loop operation leaves of the references, how a judged second changes its reference, and what
the command that brings a marker leaves of it all. -/

section
namespace Sys2Proof.Machine

variable {s t u : State} {r : Ref} {fine : Fin 15625}

/-! ### The loop changes of the references their build-outs alone (R40, R41) -/

/-- A reference's items without its build-out. -/
def RefState.core (x : RefState) : RefState := { x with buildOut := 0 }

/-- The Reference Monitor's items without the build-outs. -/
def RefMonitor.core (m : RefMonitor) : RefMonitor := { m with a := m.a.core, b := m.b.core }

/-- Two states whose references differ in their build-outs at most. -/
def SameRefs (s t : State) : Prop := t.rm.core = s.rm.core

theorem SameRefs.refl (s : State) : SameRefs s s := rfl

theorem SameRefs.of_rm (h : t.rm = s.rm) : SameRefs s t := congrArg _ h

theorem SameRefs.trans (h : SameRefs s t) (g : SameRefs t u) : SameRefs s u := Eq.trans g h

theorem SameRefs.ite {p : Prop} [Decidable p] (h : SameRefs s t) (g : SameRefs s u) : SameRefs s (if p then t else u) := by
  split <;> assumption

theorem SameRefs.get (h : SameRefs s t) (r : Ref) : (t.rm.get r).core = (s.rm.get r).core := by
  cases r
  · exact congrArg RefMonitor.a h
  · exact congrArg RefMonitor.b h

/-- The build-out of a reference written. -/
theorem sameRefs_of_buildOut {b : Int} (h : t.rm = s.rm.put r { s.rm.get r with buildOut := b }) : SameRefs s t := by
  unfold SameRefs
  rw [h]
  cases r <;> rfl

theorem follow_sameRefs (r : Ref) (m : TbMode) (b : Int) (c : TbCause) (s : State) : SameRefs s (s.follow r m b c) :=
  sameRefs_of_buildOut (follow_rm ..)

theorem testRevert_sameRefs (s : State) : SameRefs s s.testRevert := by
  by_cases due : s.revertDue
  · rw [testRevert_of_due due]
    exact follow_sameRefs ..
  · rw [testRevert_of_not_due due]
    exact .refl s

theorem activeLost_sameRefs (r : Ref) (s : State) : SameRefs s (s.activeLost r) := by
  refine SameRefs.trans (.of_rm (abortSearch_rm s)) ?_
  exact .ite (follow_sameRefs ..) (.of_rm (followNone_rm ..))

theorem acquire_sameRefs (c : TbCause) (s : State) : SameRefs s (s.acquire c) := by
  unfold State.acquire
  split
  · exact .refl s
  · split
    · exact .refl s
    · refine SameRefs.trans ?_ (testRevert_sameRefs _)
      exact .ite ((follow_sameRefs ..).trans (.of_rm rfl)) (follow_sameRefs ..)

theorem confirmStep_sameRefs (r : Ref) (w e : Int) (s : State) : SameRefs s (s.confirmStep r w e) := by
  unfold State.confirmStep
  dsimp only
  split
  · exact .of_rm rfl
  · exact sameRefs_of_buildOut (r := r) (b := 0) rfl

theorem searchSecond_sameRefs (e : Int) (s : State) : SameRefs s (s.searchSecond e) := by
  unfold State.searchSecond
  split
  · exact .refl s
  · split
    · split
      · exact .of_rm rfl
      · split
        · exact .of_rm rfl
        · unfold State.endInterval State.completeSearch
          exact .ite (SameRefs.trans (.of_rm (by simp)) (testRevert_sameRefs _)) (.of_rm rfl)
    · exact .refl s

theorem runLoop_sameRefs (e : Int) (s : State) : SameRefs s (s.runLoop e) := by
  unfold State.runLoop
  dsimp only
  split
  · exact SameRefs.trans (.of_rm (by simp)) (testRevert_sameRefs _)
  · exact .of_rm rfl

theorem loopSecond_sameRefs (r : Ref) (good : Bool) (e : Int) (s : State) : SameRefs s (s.loopSecond r good e) := by
  unfold State.loopSecond
  split
  · exact .of_rm rfl
  · split
    · refine SameRefs.trans ?_ (searchSecond_sameRefs ..)
      exact .ite (confirmStep_sameRefs ..) (.of_rm rfl)
    · exact .ite (confirmStep_sameRefs ..) (runLoop_sameRefs ..)

/-! ### The qualification step (R28 to R30) -/

/-- A reference's items after a judged second: `prevBad` is the second before it, `limit` the qualify count. -/
def RefState.judged (good prevBad : Bool) (limit e : Nat) (reason : FaultReason) (x : RefState) : RefState :=
  match x.qual with
  | .absent => x
  | .qualifying =>
    if good then
      if limit ≤ x.count + 1 then { x with count := x.count + 1, qual := .qualified, qualifiedSince := some e }
      else { x with count := x.count + 1 }
    else { x with count := 0 }
  | .qualified => if !good && prevBad then x.faulted reason e else x
  | .faulted =>
    if good ∧ x.holdoffEnd.getD 0 ≤ e then { x with qual := .qualifying, count := 1, fault := .none } else x

theorem qualifyRef_sameRefs (r : Ref) (s : State) :
    SameRefs (s.onRef r fun x => { x with qual := .qualified, qualifiedSince := some s.tb.e }) (s.qualifyRef r) := by
  refine SameRefs.trans (t := s.changeQual r .qualified .none fun x => { x with qualifiedSince := some s.tb.e })
    (.of_rm (changeQual_rm ..)) ?_
  exact .ite (testRevert_sameRefs _) (acquire_sameRefs ..)

theorem faultRef_sameRefs (r : Ref) (reason : FaultReason) (s : State) :
    SameRefs (s.onRef r fun x => x.faulted reason s.tb.e) (s.faultRef r reason) := by
  refine SameRefs.trans (t := s.faultState r reason) (.of_rm (changeQual_rm ..)) ?_
  exact .ite (activeLost_sameRefs ..) (.refl _)

@[simp] theorem onRef_onRef (r : Ref) (f g : RefState → RefState) (s : State) :
    (s.onRef r f).onRef r g = s.onRef r fun x => g (f x) := by cases r <;> rfl

/-- A judged second changes its reference as `RefState.judged` says, and otherwise build-outs at most. -/
theorem qualStep_sameRefs (r : Ref) (good prevBad : Bool) (s : State) :
    SameRefs (s.onRef r (RefState.judged good prevBad s.ml.params.qualifyCount s.tb.e (s.badReason r)))
      (s.qualStep r good prevBad) := by
  have judged : ∀ {f : RefState → RefState}, f (s.rm.get r) = (s.rm.get r).judged good prevBad s.ml.params.qualifyCount s.tb.e (s.badReason r) →
      SameRefs (s.onRef r (RefState.judged good prevBad s.ml.params.qualifyCount s.tb.e (s.badReason r))) (s.onRef r f) :=
    fun h => .of_rm (by rw [State.onRef_rm, State.onRef_rm, h])
  have kept : (s.rm.get r).judged good prevBad s.ml.params.qualifyCount s.tb.e (s.badReason r) = s.rm.get r →
      SameRefs (s.onRef r (RefState.judged good prevBad s.ml.params.qualifyCount s.tb.e (s.badReason r))) s :=
    fun h => .of_rm (by rw [State.onRef_rm, h]; cases r <;> rfl)
  unfold State.qualStep
  dsimp only
  split
  case h_1 absent => exact kept (by simp [RefState.judged, absent])
  case h_2 qualifying =>
    split
    · next isGood =>
      split
      · next reached =>
        refine SameRefs.trans (.of_rm ?_) (qualifyRef_sameRefs ..)
        simp [RefState.judged, qualifying, isGood, reached]
      · next below => exact judged (by simp [RefState.judged, qualifying, isGood, below])
    · next isBad => exact judged (by simp [RefState.judged, qualifying, isBad])
  case h_3 qualified =>
    split
    · next second =>
      refine SameRefs.trans (.of_rm ?_) (faultRef_sameRefs ..)
      simp only [State.onRef_rm]
      simp [RefState.judged, qualified, second]
    · next single => exact kept (by simp [RefState.judged, qualified, single])
  case h_4 faulted =>
    split
    · next ended => exact .of_rm (by rw [changeQual_rm, State.onRef_rm]; simp [RefState.judged, faulted, ended])
    · next held => exact kept (by simp [RefState.judged, faulted, held])

theorem judged_items (good prevBad : Bool) (limit e : Nat) (reason : FaultReason) (x : RefState) :
    (x.judged good prevBad limit e reason).lastMarker = x.lastMarker ∧
      (x.judged good prevBad limit e reason).lastErr = x.lastErr ∧ (x.judged good prevBad limit e reason).prevBad = x.prevBad := by
  unfold RefState.judged
  split
  · exact ⟨rfl, rfl, rfl⟩
  · split
    · split <;> exact ⟨rfl, rfl, rfl⟩
    · exact ⟨rfl, rfl, rfl⟩
  · split <;> exact ⟨rfl, rfl, rfl⟩
  · split <;> exact ⟨rfl, rfl, rfl⟩

/-! ### A marker (R22, R23, R27) -/

/-- A marker at `fine` ns closes a good second that began at the marker `last`. -/
def State.closesGood (s : State) (r : Ref) (fine : Fin 15625) (last : Nat) : Bool :=
  s.messageGood r && s.phaseGood last (s.rm.get r).lastErr (s.errAt r fine)

theorem messageGood_iff (s : State) (r : Ref) : s.messageGood r = true ↔ s.vouched r := by
  cases r with
  | a => cases message : s.rm.message <;> simp [State.messageGood, State.vouched, message]
  | b => simp [State.messageGood, State.vouched]

theorem closesGood_iff {last : Nat} (marked : (s.rm.get r).lastMarker = some last) :
    s.closesGood r fine last = true ↔ s.GoodSecond r fine := by
  unfold State.closesGood
  rw [Bool.and_eq_true, messageGood_iff]
  have steady : s.phaseGood last (s.rm.get r).lastErr (s.errAt r fine) = true ↔
      s.tb.e ≤ last + 96000 ∧ ∀ p ∈ (s.rm.get r).lastErr, (wrapPhase (s.errAt r fine - p)).natAbs ≤ s.ml.params.jitterLimit := by
    cases before : (s.rm.get r).lastErr <;> simp [State.phaseGood]
  rw [steady]
  refine ⟨fun ⟨vouched, timely, steady⟩ => ⟨⟨last, marked, timely⟩, steady, vouched⟩, fun ⟨timely, steady, vouched⟩ => ?_⟩
  obtain ⟨m, eq, timely⟩ := timely
  obtain rfl : last = m := by simpa [marked] using eq
  exact ⟨vouched, timely, steady⟩

theorem exactPhase_range (t : Timebase) (fine : Fin 15625) : -500000000 ≤ exactPhase t fine ∧ exactPhase t fine ≤ 499999999 := by
  have := fine.isLt
  unfold exactPhase tickOfSecond
  dsimp only
  split <;> omega

/-- The measured second of a marker is the boundary nearest to it (R7, R23). -/
theorem measure_seconds (s : State) (r : Ref) (fine : Fin 15625) : (measure r fine s.tb).seconds = s.boundarySeconds fine := by
  have := fine.isLt
  unfold measure State.boundarySeconds stationSeconds exactPhase tickOfSecond Timebase.station
  simp only [secondsTop]
  have earlier : ((if ((((s.tb.e : Int) + s.tb.delta) % 64000).toNat : Int) * 15625 + (fine.val : Int) ≤ 500000000 then -(((((s.tb.e : Int) + s.tb.delta) % 64000).toNat : Int) * 15625 + (fine.val : Int)) else 1000000000 - (((((s.tb.e : Int) + s.tb.delta) % 64000).toNat : Int) * 15625 + (fine.val : Int))) ≤ 0) ↔
      ((s.tb.e : Int) + s.tb.delta) % 64000 * 15625 + fine.val ≤ 500000000 := by
    split <;> omega
  simp only [earlier]
  split <;> rfl

/-- What a marker writes before the second is judged: the marker, whether its second is bad, and A's seconds agreement. -/
def State.marked (r : Ref) (fine : Fin 15625) (good : Bool) (s : State) : State :=
  ((s.noteMarker r (s.errAt r fine)).onRef r fun y => { y with prevBad := !good }).agreeSeconds r good
    (measure r fine s.tb).seconds

/-- A reference's items with a marker noted. -/
def RefState.noted (x : RefState) (e : Nat) (err : Int) (good : Bool) : RefState :=
  { x with lastMarker := some e, lastErr := some err, prevBad := !good }

theorem marked_get (r : Ref) (fine : Fin 15625) (good : Bool) (s : State) :
    (s.marked r fine good).rm.get r = (s.rm.get r).noted s.tb.e (s.errAt r fine) good := by
  unfold State.marked State.agreeSeconds
  split
  · simp [State.noteMarker, RefState.noted, RefMonitor.get, RefMonitor.put]
  · simp [State.noteMarker, RefState.noted]

theorem marked_rm (r : Ref) (fine : Fin 15625) (good : Bool) (s : State) :
    (s.marked r fine good).rm.message = s.rm.message ∧ (s.marked r fine good).rm.assembly = s.rm.assembly := by
  unfold State.marked State.agreeSeconds
  cases r <;> (split <;> exact ⟨rfl, rfl⟩)

theorem marked_within (r : Ref) (fine : Fin 15625) (good : Bool) (s : State) : Within [.rm] s (s.marked r fine good) := by
  unfold State.marked State.noteMarker
  exact ((onRef_within ..).and ((onRef_within ..).and (agreeSeconds_within ..))).mono (by decide)

/-- The state in which the loop gets a judged second. -/
def State.judgedAt (r : Ref) (fine : Fin 15625) (good : Bool) (s : State) : State :=
  ((s.marked r fine good).qualStep r good (s.rm.get r).prevBad).clearMessage r

theorem judgeMarker_eq (s : State) (r : Ref) (fine : Fin 15625) (last : Nat) :
    s.judgeMarker r last (measure r fine s.tb) =
      (s.judgedAt r fine (s.closesGood r fine last)).followSecond r (s.dl.active = some r && isFollowing s.dl.mode)
        (s.closesGood r fine last) (s.errAt r fine) := rfl

theorem takeMarker_of_absent (absent : (s.rm.get r).qual = .absent) (fine : Fin 15625) :
    s.takeMarker r fine = s.openRef r (s.errAt r fine) := by
  unfold State.takeMarker
  rw [absent]
  rfl

theorem takeMarker_of_marked {last : Nat} (present : (s.rm.get r).qual ≠ .absent) (marked : (s.rm.get r).lastMarker = some last)
    (fine : Fin 15625) : s.takeMarker r fine = s.judgeMarker r last (measure r fine s.tb) := by
  unfold State.takeMarker
  rw [marked]
  cases qual : (s.rm.get r).qual
  · exact absurd qual present
  all_goals rfl

theorem takeMarker_of_unmarked (present : (s.rm.get r).qual ≠ .absent) (none : (s.rm.get r).lastMarker = none)
    (fine : Fin 15625) : s.takeMarker r fine = (s.noteMarker r (s.errAt r fine)).clearMessage r := by
  unfold State.takeMarker
  rw [none]
  cases qual : (s.rm.get r).qual
  · exact absurd qual present
  all_goals rfl

@[simp] theorem clearMessage_get (r q : Ref) (s : State) : (s.clearMessage r).rm.get q = s.rm.get q := by
  cases r <;> cases q <;> rfl

@[simp] theorem clearMessage_assembly (r : Ref) (s : State) : (s.clearMessage r).rm.assembly = s.rm.assembly := by
  cases r <;> rfl

/-- The references after a judged marker: its own as judged, and the monitor's other items as they were noted. -/
theorem judgeMarker_refs (s : State) (r : Ref) (fine : Fin 15625) (last : Nat) :
    SameRefs ((((s.marked r fine (s.closesGood r fine last)).onRef r
        (RefState.judged (s.closesGood r fine last) (s.rm.get r).prevBad s.ml.params.qualifyCount s.tb.e (s.badReason r)))).clearMessage r)
      (s.judgeMarker r last (measure r fine s.tb)) := by
  rw [judgeMarker_eq]
  refine SameRefs.trans (t := s.judgedAt r fine (s.closesGood r fine last)) ?_ (.ite (loopSecond_sameRefs ..) (.refl _))
  have within := marked_within r fine (s.closesGood r fine last) s
  have tb : (s.marked r fine (s.closesGood r fine last)).tb = s.tb := within.out .tb (by decide)
  have ml : (s.marked r fine (s.closesGood r fine last)).ml = s.ml := within.out .ml (by decide)
  have message := (marked_rm r fine (s.closesGood r fine last) s).1
  have reason : (s.marked r fine (s.closesGood r fine last)).badReason r = s.badReason r := by
    unfold State.badReason State.messageGood
    rw [message, ml]
  have step := qualStep_sameRefs r (s.closesGood r fine last) (s.rm.get r).prevBad (s.marked r fine (s.closesGood r fine last))
  rw [tb, ml, reason] at step
  cases r with
  | a => exact congrArg (fun m => { m with message := none }) step
  | b => exact step

theorem takeMarker_assembly (r : Ref) (fine : Fin 15625) (s : State) : (s.takeMarker r fine).rm.assembly = s.rm.assembly := by
  by_cases absent : (s.rm.get r).qual = .absent
  · rw [takeMarker_of_absent absent]
    simp only [State.openRef, clearMessage_assembly]
    cases r <;> simp [State.noteMarker, RefMonitor.put]
  · cases marked : (s.rm.get r).lastMarker with
    | none =>
      rw [takeMarker_of_unmarked absent marked]
      cases r <;> rfl
    | some last =>
      rw [takeMarker_of_marked absent marked]
      have refs := congrArg RefMonitor.assembly (judgeMarker_refs s r fine last)
      refine refs.trans ?_
      have assembly := (marked_rm r fine (s.closesGood r fine last) s).2
      cases r <;> exact assembly

/-! ### The command that brings a marker (R22, R25, R52) -/

/-- The state that a marker of A is taken in: its frame is paced, and the message under assembly is discarded. -/
def State.paced (x : StationLink) (l : List Octet) (s : State) : State :=
  { s with sli := x, rm := { s.rm with assembly := l } }

/-- What follows a marker at its command changes the assembly of the next message, and appends records. -/
structure MarkerLeft (v t : State) : Prop where
  tb : t.tb = v.tb
  dl : t.dl = v.dl
  rm : t.rm = { v.rm with assembly := t.rm.assembly }
  appended : Appended v t

theorem takeTimeOctet_of_empty (o : Octet) (empty : s.rm.assembly = []) :
    (s.takeTimeOctet o).rm = { s.rm with assembly := (s.takeTimeOctet o).rm.assembly } := by
  unfold State.takeTimeOctet
  dsimp only
  rw [if_pos empty]
  split <;> rfl

theorem setStore_appended (n : StoreName) (x : Elastic) (s : State) : Appended s (s.setStore n x) := .of_eq (setStore_eq ..)

theorem slip_appended (n : StoreName) (k : SlipType) (s : State) : Appended s (s.slip n k) := by
  unfold State.slip
  dsimp only
  split
  · exact setStore_appended ..
  · exact (setStore_appended ..).trans (State.offer_appended ..)

theorem writeStore_appended (n : StoreName) (f : Vector Octet 24) (s : State) : Appended s (s.writeStore n f) := by
  unfold State.writeStore
  dsimp only
  split
  · exact setStore_appended ..
  · exact (setStore_appended ..).trans (slip_appended ..)

/-- The command of a marker takes it in a state that differs from the present one in the link and the assembly alone. -/
theorem after_marks {c : Instr} (h : s.marks c fine r) :
    ∃ x l, MarkerLeft ((s.paced x l).takeMarker r fine) (s.after c) ∧ Within (markerBlocks r) s (s.after c) := by
  cases r with
  | a =>
    obtain ⟨f, rfl, frame, sync, flag⟩ := h
    let paced := ((s.onSli fun x => { x with missing := 0 }).paceFrame).sli
    refine ⟨paced, [], ?_, (after_within (.frameTaken fine f) s).mono (show footprint (.frameTaken 0 f) ⊆ _ by simp [footprint, markerBlocks])⟩
    have after : s.after (.frameTaken fine f) =
        ((((s.paced paced []).takeMarker .a fine).takeTimeOctet f.time).onMl (MgmtLink.read (mgmtFieldOf f))).writeStore .down f.commands := by
      refine (if_pos ⟨frame, sync⟩ : s.takeFrame fine f = s.deliverFrame fine f).trans ?_
      unfold State.deliverFrame State.frameMarker
      rw [if_pos flag]
      rfl
    have octet := takeTimeOctet_within f.time ((s.paced paced []).takeMarker .a fine)
    have store := writeStore_within .down f.commands
      ((((s.paced paced []).takeMarker .a fine).takeTimeOctet f.time).onMl (MgmtLink.read (mgmtFieldOf f)))
    rw [after]
    refine ⟨(store.out .tb (by decide)).trans (octet.out .tb (by decide)), (store.out .dl (by decide)).trans (octet.out .dl (by decide)), ?_, ?_⟩
    · have rm := store.out .rm (by decide)
      rw [show State.rm _ = _ from rm]
      exact takeTimeOctet_of_empty f.time (by rw [takeMarker_assembly]; rfl)
    · have appended := writeStore_appended .down f.commands
        ((((s.paced paced []).takeMarker .a fine).takeTimeOctet f.time).onMl (MgmtLink.read (mgmtFieldOf f)))
      exact Appended.trans (.of_eq (octet.out .eq (by decide))) appended
  | b =>
    obtain ⟨p, rfl, ⟨low, high⟩, running⟩ := h
    refine ⟨s.sli, s.rm.assembly, ?_, ?_⟩
    · have after : s.after (.bMarker fine p) = s.takeMarker .b fine := if_pos ⟨running, low, high⟩
      rw [after]
      exact ⟨rfl, rfl, rfl, .refl _⟩
    · exact (after_within (.bMarker fine p) s).mono (show loopBlocks ⊆ _ by decide)

end Sys2Proof.Machine
end

/-! PROOF. The statements about a marker: the phase that it measures, and how it qualifies, holds or faults its reference. -/

section
namespace Sys2Proof.Machine

variable {s t u : State} {r : Ref} {fine : Fin 15625} {c : Instr}

/-! ### The measured phase (R23) -/

theorem quantise_eq {exact : Int} (range : -500000000 ≤ exact ∧ exact ≤ 499999999) (r : Ref) (e : Nat) :
    quantise r e exact % 8 = 0 ∧ -500000000 ≤ quantise r e exact ∧ quantise r e exact ≤ 499999992 ∧
      |quantise r e exact - exact| < 8 := by
  unfold quantise
  dsimp only
  have near : ∀ x : Int, |x - exact| < 8 ↔ -8 < x - exact ∧ x - exact < 8 := fun x => abs_lt
  rw [near]
  split
  · omega
  · split <;> omega

theorem errAt_eq (s : State) (r : Ref) (fine : Fin 15625) : s.errAt r fine = quantise r s.tb.e (exactPhase s.tb fine) := rfl

theorem exactPhase_eq (s : State) (fine : Fin 15625) :
    exactPhase s.tb fine =
      if ((s.tb.e : Int) + s.tb.delta) % 64000 * 15625 + fine.val ≤ 500000000
      then -(((s.tb.e : Int) + s.tb.delta) % 64000 * 15625 + fine.val)
      else 1000000000 - (((s.tb.e : Int) + s.tb.delta) % 64000 * 15625 + fine.val) := by
  unfold exactPhase tickOfSecond Timebase.station
  rw [Int.toNat_of_nonneg (by omega)]

/-! ### What a marker leaves, whatever command brings it -/

@[simp] theorem paced_get (x : StationLink) (l : List Octet) (s : State) (r : Ref) : (s.paced x l).rm.get r = s.rm.get r := by
  cases r <;> rfl

theorem paced_vouched (x : StationLink) (l : List Octet) (s : State) (r : Ref) : (s.paced x l).vouched r ↔ s.vouched r := by
  cases r <;> exact .rfl

theorem paced_goodSecond (x : StationLink) (l : List Octet) (s : State) (r : Ref) (fine : Fin 15625) :
    (s.paced x l).GoodSecond r fine ↔ s.GoodSecond r fine := by
  constructor
  · rintro ⟨timely, steady, vouched⟩
    rw [paced_get] at timely steady
    exact ⟨timely, steady, (paced_vouched ..).mp vouched⟩
  · rintro ⟨timely, steady, vouched⟩
    refine ⟨?_, ?_, (paced_vouched ..).mpr vouched⟩ <;> rw [paced_get]
    exacts [timely, steady]

theorem MarkerLeft.get {v : State} (h : MarkerLeft v t) (r : Ref) : t.rm.get r = v.rm.get r := by
  rw [h.rm]
  cases r <;> rfl

/-- A marker's effect on the references is one of the present state: the link and the assembly have no part in it. -/
theorem paced_judgeMarker_refs (x : StationLink) (l : List Octet) (s : State) (r : Ref) (fine : Fin 15625) (last : Nat) :
    (((s.paced x l).judgeMarker r last (measure r fine s.tb)).rm.get r).core =
      (((s.rm.get r).noted s.tb.e (s.errAt r fine) (s.closesGood r fine last)).judged (s.closesGood r fine last)
        (s.rm.get r).prevBad s.ml.params.qualifyCount s.tb.e (s.badReason r)).core := by
  have refs := (judgeMarker_refs (s.paced x l) r fine last).get r
  have good : (s.paced x l).closesGood r fine last = s.closesGood r fine last := by
    unfold State.closesGood
    rw [paced_get]
    cases r <;> rfl
  have reason : (s.paced x l).badReason r = s.badReason r := by cases r <;> rfl
  rw [good, reason, paced_get] at refs
  refine refs.trans ?_
  rw [clearMessage_get, State.onRef_rm, RefMonitor.get_put, marked_get, paced_get]
  rfl

/-- The marker's own reference after a judged second. -/
theorem after_marks_judged (h : s.marks c fine r) {last : Nat} (present : (s.rm.get r).qual ≠ .absent)
    (marked : (s.rm.get r).lastMarker = some last) :
    ((s.after c).rm.get r).core =
      (((s.rm.get r).noted s.tb.e (s.errAt r fine) (s.closesGood r fine last)).judged (s.closesGood r fine last)
        (s.rm.get r).prevBad s.ml.params.qualifyCount s.tb.e (s.badReason r)).core := by
  obtain ⟨x, l, left, -⟩ := after_marks h
  rw [left.get, takeMarker_of_marked (s := s.paced x l) (by rwa [paced_get]) (by rwa [paced_get])]
  exact paced_judgeMarker_refs ..

/-- A marker in ABSENT opens the reference's first second (R28). -/
theorem after_marks_opened (h : s.marks c fine r) (absent : (s.rm.get r).qual = .absent) :
    ((s.after c).rm.get r) = { s.rm.get r with qual := .qualifying, count := 0, fault := .none, lastMarker := some s.tb.e, lastErr := some (s.errAt r fine) } ∧
      (s.after c).dl = s.dl ∧
      (s.eq.records.length < 480 →
        s.admittedNext (s.after c) (refStateRecord r .absent .qualifying .none .b s.tb.now)) := by
  obtain ⟨x, l, left, -⟩ := after_marks h
  have opened := takeMarker_of_absent (s := s.paced x l) (by rwa [paced_get]) fine
  rw [opened] at left
  refine ⟨?_, ?_, fun room => ?_⟩
  · rw [left.get]
    simp only [State.openRef, clearMessage_get]
    simp [State.noteMarker]
    exact ⟨rfl, rfl⟩
  · rw [left.dl]
    unfold State.openRef
    rw [(clearMessage_within ..).out .dl (by decide)]
    simp [State.noteMarker]
    rfl
  · have admitted := changeQual_admitted_b (s := s.paced x l) (r := r) .qualifying .none (fun x => { x with count := 0, fault := .none })
      (by rw [paced_get, absent]; exact nofun) room
    rw [paced_get, absent] at admitted
    refine State.admittedNext.append (t := (s.paced x l).openRef r ((s.paced x l).errAt r fine)) ?_ left.appended
    refine admitted.append (.of_eq ?_)
    exact (clearMessage_within ..).out .eq (by decide)

theorem after_marks_unjudged (h : s.marks c fine r) (present : (s.rm.get r).qual ≠ .absent)
    (none : (s.rm.get r).lastMarker = none) :
    (s.after c).rm.get r = { s.rm.get r with lastMarker := some s.tb.e, lastErr := some (s.errAt r fine) } := by
  obtain ⟨x, l, left, -⟩ := after_marks h
  rw [left.get, takeMarker_of_unmarked (by rwa [paced_get]) (by rwa [paced_get])]
  simp [State.noteMarker]
  exact ⟨rfl, rfl⟩

/-- The marker is the last marker of its reference, and its error the last phase error. -/
theorem after_marks_noted (h : s.marks c fine r) :
    ((s.after c).rm.get r).lastMarker = some s.tb.e ∧ ((s.after c).rm.get r).lastErr = some (s.errAt r fine) := by
  by_cases absent : (s.rm.get r).qual = .absent
  · rw [(after_marks_opened h absent).1]
    exact ⟨rfl, rfl⟩
  · cases marked : (s.rm.get r).lastMarker with
    | none =>
      rw [after_marks_unjudged h absent marked]
      exact ⟨rfl, rfl⟩
    | some last =>
      have core := after_marks_judged h absent marked
      obtain ⟨marker, err, -⟩ := judged_items (s.closesGood r fine last) (s.rm.get r).prevBad s.ml.params.qualifyCount s.tb.e
        (s.badReason r) ((s.rm.get r).noted s.tb.e (s.errAt r fine) (s.closesGood r fine last))
      exact ⟨(congrArg RefState.lastMarker core).trans marker, (congrArg RefState.lastErr core).trans err⟩

/-- Settles O21: the marker is noted, and its error is a multiple of 8 next to the exact phase. -/
theorem markerMeasuresPhase : Obligations.MarkerMeasuresPhase := by
  unfold Obligations.MarkerMeasuresPhase
  refine ⟨fun s c r fine marks => ?_, fun s fine p stopped => ?_⟩
  · obtain ⟨x, l, -, within⟩ := after_marks marks
    obtain ⟨marker, err⟩ := after_marks_noted marks
    obtain ⟨multiple, low, high, near⟩ := quantise_eq (exactPhase_range s.tb fine) r s.tb.e
    refine ⟨s.after c, exec_eq_after .., ⟨marker, err, multiple, low, high, ?_⟩, within⟩
    rw [exactPhase_eq] at near
    rw [errAt_eq, exactPhase_eq]
    exact near
  · refine congrArg _ (if_neg ?_)
    rintro ⟨running, low, high⟩
    rcases stopped with short | held
    · exact short ⟨low, high⟩
    · rw [running] at held
      cases held

/-! ### Qualification by markers (R25, R27 to R30) -/

theorem judged_qualifying {good prevBad : Bool} {limit e : Nat} {reason : FaultReason} {x : RefState} (qual : x.qual = .qualifying) :
    x.judged good prevBad limit e reason =
      if good then
        if limit ≤ x.count + 1 then { x with count := x.count + 1, qual := .qualified, qualifiedSince := some e }
        else { x with count := x.count + 1 }
      else { x with count := 0 } := by
  unfold RefState.judged
  rw [qual]

theorem judged_qualified {good prevBad : Bool} {limit e : Nat} {reason : FaultReason} {x : RefState} (qual : x.qual = .qualified) :
    x.judged good prevBad limit e reason = if !good && prevBad then x.faulted reason e else x := by
  unfold RefState.judged
  rw [qual]

theorem judged_faulted {good prevBad : Bool} {limit e : Nat} {reason : FaultReason} {x : RefState} (qual : x.qual = .faulted) :
    x.judged good prevBad limit e reason =
      if good ∧ x.holdoffEnd.getD 0 ≤ e then { x with qual := .qualifying, count := 1, fault := .none } else x := by
  unfold RefState.judged
  rw [qual]

/-- The items of a reference that its build-out does not touch. -/
theorem core_items {x y : RefState} (h : x.core = y.core) :
    x.qual = y.qual ∧ x.count = y.count ∧ x.fault = y.fault ∧ x.holdoffEnd = y.holdoffEnd ∧
      x.qualifiedSince = y.qualifiedSince ∧ x.prevBad = y.prevBad :=
  ⟨(congrArg RefState.qual h :), (congrArg RefState.count h :), (congrArg RefState.fault h :), (congrArg RefState.holdoffEnd h :),
    (congrArg RefState.qualifiedSince h :), (congrArg RefState.prevBad h :)⟩

theorem good_marked (good : s.GoodSecond r fine) : ∃ last, (s.rm.get r).lastMarker = some last ∧ s.closesGood r fine last = true := by
  obtain ⟨last, marked, -⟩ := good.timely
  exact ⟨last, marked, (closesGood_iff marked).mpr good⟩

theorem bad_marked (marked : (s.rm.get r).lastMarker.isSome) (bad : ¬s.GoodSecond r fine) :
    ∃ last, (s.rm.get r).lastMarker = some last ∧ s.closesGood r fine last = false := by
  obtain ⟨last, marked⟩ := Option.isSome_iff_exists.mp marked
  refine ⟨last, marked, ?_⟩
  rw [Bool.eq_false_iff]
  exact fun good => bad ((closesGood_iff marked).mp good)

/-- A bad second of a QUALIFIED reference: the second of two faults it (R29). -/
theorem after_marks_bad (h : s.marks c fine r) (qual : (s.rm.get r).qual = .qualified) (marked : (s.rm.get r).lastMarker.isSome)
    (bad : ¬s.GoodSecond r fine) :
    let y := (s.after c).rm.get r
    y.prevBad = true ∧ ((s.rm.get r).prevBad = false → y.qual = .qualified) ∧
      ((s.rm.get r).prevBad = true →
        y.qual = .faulted ∧ y.holdoffEnd = some (s.tb.e + 128000) ∧ y.count = 0 ∧ y.qualifiedSince = none ∧
          (s.vouched r → y.fault = .jitter) ∧ (¬s.vouched r → y.fault = .message)) := by
  obtain ⟨last, marked, closes⟩ := bad_marked marked bad
  obtain ⟨qual', count, fault, holdoff, since, prevBad⟩ := core_items (after_marks_judged h (by rw [qual]; exact nofun) marked)
  rw [judged_qualified (x := (s.rm.get r).noted ..) qual, closes] at qual' count fault holdoff since prevBad
  intro y
  cases before : (s.rm.get r).prevBad with
  | false =>
    rw [before] at qual' prevBad
    exact ⟨prevBad, fun _ => qual'.trans qual, nofun⟩
  | true =>
    rw [before] at qual' count fault holdoff since prevBad
    refine ⟨prevBad, nofun, fun _ => ⟨qual', holdoff, count, since, fun vouched => ?_, fun unvouched => ?_⟩⟩
    · exact fault.trans (if_pos ((messageGood_iff s r).mpr vouched))
    · exact fault.trans (if_neg fun good => unvouched ((messageGood_iff s r).mp good))

/-- A's seconds agreement, and its message, after its marker (R25, R27). -/
theorem after_marks_agreement (h : s.marks c fine .a) :
    (s.after c).rm.message = none ∧
      (s.rm.a.qual ≠ .absent → s.GoodSecond .a fine →
        (s.after c).rm.w = s.secondsApart fine .a ∧
          (s.after c).rm.agree = if s.secondsApart fine .a = 0 then min (s.rm.agree + 1) 255 else 0) ∧
      (s.rm.a.qual = .absent ∨ ¬s.GoodSecond .a fine → (s.after c).rm.w = s.rm.w ∧ (s.after c).rm.agree = s.rm.agree) := by
  obtain ⟨x, l, left, -⟩ := after_marks h
  rw [left.rm]
  have good := paced_goodSecond x l s .a fine
  by_cases absent : s.rm.a.qual = .absent
  · rw [takeMarker_of_absent (s := s.paced x l) (r := .a) absent]
    simp only [State.openRef, State.clearMessage, State.noteMarker, State.onRef_rm, changeQual_rm]
    exact ⟨trivial, fun present => absurd absent present, fun _ => ⟨rfl, rfl⟩⟩
  · cases marked : s.rm.a.lastMarker with
    | none =>
      rw [takeMarker_of_unmarked (s := s.paced x l) (r := .a) absent marked]
      refine ⟨rfl, fun _ isGood => ?_, fun _ => ⟨rfl, rfl⟩⟩
      obtain ⟨m, eq, -⟩ := isGood.timely
      exact absurd (marked.symm.trans eq) nofun
    | some last =>
      have refs := judgeMarker_refs (s.paced x l) .a fine last
      have closes := closesGood_iff (s := s.paced x l) (r := .a) (fine := fine) (last := last) marked
      rw [takeMarker_of_marked (s := s.paced x l) (r := .a) absent marked]
      have message := congrArg RefMonitor.message refs
      have w := congrArg RefMonitor.w refs
      have agree := congrArg RefMonitor.agree refs
      refine ⟨message, fun _ isGood => ?_, fun bad => ?_⟩
      · rw [closes.mpr (good.mpr isGood)] at w agree
        obtain ⟨m, present, -⟩ := isGood.vouched
        have apart : (m.seconds : Int) - (measure .a fine s.tb).seconds = s.secondsApart fine .a := by
          rw [measure_seconds]
          simp [State.secondsApart, present]
        have agreed : ((s.paced x l).marked .a fine true).rm.w = s.secondsApart fine .a ∧
            ((s.paced x l).marked .a fine true).rm.agree =
              if s.secondsApart fine .a = 0 then satAdd 255 s.rm.agree 1 else 0 := by
          rw [← apart]
          simp [State.marked, State.agreeSeconds, State.noteMarker, State.paced, RefMonitor.put, present]
        exact ⟨w.trans agreed.1, agree.trans agreed.2⟩
      · have bad : (s.paced x l).closesGood .a fine last = false := by
          rw [Bool.eq_false_iff]
          exact fun isGood => bad.elim absent fun bad => bad (good.mp (closes.mp isGood))
        rw [bad] at w agree
        exact ⟨w, agree⟩

/-- Settles O22: the judged second of each qualification state, and A's seconds agreement. -/
theorem markersQualifyOrFaultReference : Obligations.MarkersQualifyOrFaultReference := by
  unfold Obligations.MarkersQualifyOrFaultReference
  refine ⟨fun s c r fine marks qual marked bad => ⟨_, exec_eq_after .., after_marks_bad marks qual marked bad⟩, ?_,
    fun s c fine marks => ⟨_, exec_eq_after .., after_marks_agreement marks⟩⟩
  intro s c r fine marks x
  refine ⟨s.after c, exec_eq_after .., ?_⟩
  intro y
  have judged : ∀ {last : Nat}, x.qual ≠ .absent → x.lastMarker = some last → _ := fun present marked =>
    core_items (after_marks_judged marks present marked)
  refine ⟨fun absent => ?_, fun qual good below => ?_, fun qual good reached => ?_, fun qual marked bad => ?_,
    fun qual good ended => ?_, fun qual marked held => ?_⟩
  · obtain ⟨opened, dl, admitted⟩ := after_marks_opened marks absent
    rw [show y = _ from opened]
    exact ⟨rfl, rfl, rfl, dl, admitted⟩
  · obtain ⟨last, marked, closes⟩ := good_marked good
    obtain ⟨qual', count, -⟩ := judged (by rw [qual]; exact nofun) marked
    rw [judged_qualifying (x := (s.rm.get r).noted ..) qual, closes] at qual' count
    have more : ¬s.ml.params.qualifyCount ≤ ((s.rm.get r).noted s.tb.e (s.errAt r fine) true).count + 1 := Nat.not_le.mpr below
    rw [if_pos rfl, if_neg more] at qual' count
    exact ⟨qual'.trans qual, count⟩
  · obtain ⟨last, marked, closes⟩ := good_marked good
    obtain ⟨qual', -, -, -, since, -⟩ := judged (by rw [qual]; exact nofun) marked
    rw [judged_qualifying (x := (s.rm.get r).noted ..) qual, closes] at qual' since
    have reached : s.ml.params.qualifyCount ≤ ((s.rm.get r).noted s.tb.e (s.errAt r fine) true).count + 1 := reached
    rw [if_pos rfl, if_pos reached] at qual' since
    exact ⟨qual', since⟩
  · obtain ⟨last, marked, closes⟩ := bad_marked marked bad
    obtain ⟨qual', count, -⟩ := judged (by rw [qual]; exact nofun) marked
    rw [judged_qualifying (x := (s.rm.get r).noted ..) qual, closes] at qual' count
    exact ⟨qual'.trans qual, count⟩
  · obtain ⟨last, marked, closes⟩ := good_marked good
    obtain ⟨qual', count, fault, -⟩ := judged (by rw [qual]; exact nofun) marked
    have expired : ((s.rm.get r).noted s.tb.e (s.errAt r fine) true).holdoffEnd.getD 0 ≤ s.tb.e := by
      cases holdoff : (s.rm.get r).holdoffEnd with
      | none => simp [RefState.noted, holdoff]
      | some e => simpa [RefState.noted, holdoff] using ended e holdoff
    rw [judged_faulted (x := (s.rm.get r).noted ..) qual, closes, if_pos ⟨rfl, expired⟩] at qual' count fault
    exact ⟨qual', count, fault⟩
  · obtain ⟨last, marked⟩ := Option.isSome_iff_exists.mp marked
    obtain ⟨qual', -⟩ := judged (by rw [qual]; exact nofun) marked
    rw [judged_faulted (x := (s.rm.get r).noted ..) qual, if_neg ?_] at qual'
    · exact qual'.trans qual
    · rintro ⟨closes, ended⟩
      rcases held with bad | ⟨e, holdoff, early⟩
      · exact bad ((closesGood_iff marked).mp closes)
      · rw [show ((s.rm.get r).noted _ _ _).holdoffEnd = some e from holdoff, Option.getD_some] at ended
        omega

end Sys2Proof.Machine
end

/-! PROOF. A judged second of the followed reference: the state in which the loop gets it, and the statements about the
loop, step confirmation and the trim search. -/

section
namespace Sys2Proof.Machine

variable {s t u v j : State} {r : Ref} {fine : Fin 15625} {c : Instr} {good : Bool}

/-! ### The second that the loop gets (R36) -/

/-- `j` is the state in which the loop gets the second of `s` that a marker of `r` closes. -/
structure SecondAt (s : State) (r : Ref) (fine : Fin 15625) (good : Bool) (j : State) : Prop where
  tb : j.tb = s.tb
  dl : j.dl = s.dl
  ml : j.ml = s.ml
  eq : j.eq = s.eq
  own : j.rm.get r = (s.rm.get r).noted s.tb.e (s.errAt r fine) good
  whole : s.GoodSecond r fine → good = true → wholeSeconds j r = s.secondsApart fine r

theorem marked_whole (x : StationLink) (l : List Octet) (isGood : s.GoodSecond r fine) :
    wholeSeconds (((s.paced x l).marked r fine true).clearMessage r) r = s.secondsApart fine r := by
  cases r with
  | b => rfl
  | a =>
    obtain ⟨m, present, -⟩ := isGood.vouched
    have seconds := measure_seconds s .a fine
    simp [wholeSeconds, State.clearMessage, State.marked, State.agreeSeconds, State.noteMarker, State.paced, RefMonitor.put,
      present, State.secondsApart, seconds]

/-- A second that leaves the QUALIFIED reference as it is goes to the loop that follows it. -/
theorem after_marks_second (h : s.marks c fine r) (following : isFollowing s.dl.mode = true) (active : s.dl.active = some r)
    (qual : (s.rm.get r).qual = .qualified) {last : Nat} (marked : (s.rm.get r).lastMarker = some last)
    (closes : s.closesGood r fine last = good) (single : good = true ∨ (s.rm.get r).prevBad = false) :
    ∃ j, SecondAt s r fine good j ∧ MarkerLeft (j.loopSecond r good (s.errAt r fine)) (s.after c) := by
  obtain ⟨x, l, left, -⟩ := after_marks h
  have present : (s.rm.get r).qual ≠ .absent := by rw [qual]; exact nofun
  rw [takeMarker_of_marked (s := s.paced x l) (r := r) (by rwa [paced_get]) (by rwa [paced_get])] at left
  have left : MarkerLeft ((s.paced x l).judgeMarker r last (measure r fine (s.paced x l).tb)) (s.after c) := left
  have closes : (s.paced x l).closesGood r fine last = good := by
    refine Eq.trans ?_ closes
    unfold State.closesGood
    rw [paced_get]
    cases r <;> rfl
  rw [judgeMarker_eq, closes] at left
  have own : ((s.paced x l).marked r fine good).rm.get r = (s.rm.get r).noted s.tb.e (s.errAt r fine) good := by
    rw [marked_get, paced_get]
    rfl
  have still : (s.paced x l).judgedAt r fine good = ((s.paced x l).marked r fine good).clearMessage r := by
    unfold State.judgedAt State.qualStep
    dsimp only
    rw [own, paced_get, show (RefState.noted _ _ _ _).qual = .qualified from qual]
    dsimp only
    rw [if_neg]
    rcases single with rfl | before
    · simp
    · simp [before]
  have within : Within [.rm] (s.paced x l) (((s.paced x l).marked r fine good).clearMessage r) :=
    ((marked_within ..).and (clearMessage_within ..)).mono (by decide)
  have at_ : SecondAt s r fine good (((s.paced x l).marked r fine good).clearMessage r) :=
    { tb := within.out .tb (by decide)
      dl := within.out .dl (by decide)
      ml := within.out .ml (by decide)
      eq := within.out .eq (by decide)
      own := by rw [clearMessage_get, own]
      whole := fun isGood true => by subst true; exact marked_whole x l isGood }
  refine ⟨_, at_, ?_⟩
  rw [still, State.followSecond, if_pos ?_] at left
  · exact left
  · rw [at_.dl]
    exact ⟨by simp [State.paced, active, following], active, following⟩

/-! ### What the loop does with it (R36, R37, R39) -/

theorem loopSecond_of_held (e : Int) (held : good = false ∨ s.tb.pendingStep.isSome) :
    s.loopSecond r good e = s.badSecond := by
  refine if_pos ?_
  rcases held with rfl | pending
  · rfl
  · simp [pending]

theorem loopSecond_good (e : Int) (free : s.tb.pendingStep = none) (idle : s.dl.search = none) :
    s.loopSecond r true e =
      if needsStep s r e then s.confirmStep r (wholeSeconds s r) e else s.runLoop (loopInput s r e) := by
  unfold State.loopSecond
  rw [if_neg (by simp [free]), idle]

theorem loopSecond_searching (e : Int) (free : s.tb.pendingStep = none) {x : Search} (running : s.dl.search = some x)
    (steady : needsStep s r e = false) :
    s.loopSecond r true e = (s.onDl fun d => { d with history := [] }).searchSecond e := by
  unfold State.loopSecond
  rw [if_neg (by simp [free]), running]
  simp [steady]

theorem SecondAt.input (h : SecondAt s r fine good j) (e : Int) :
    loopInput j r e = wrapPhase (e - (s.rm.get r).buildOut) := by
  unfold loopInput
  rw [h.own]
  rfl

/-- A good second needs a step by its loop input, or by the whole seconds in which A disagrees (R36, R38). -/
theorem SecondAt.needsStep_iff (h : SecondAt s r fine true j) (isGood : s.GoodSecond r fine) (e : Int) :
    needsStep j r e = true ↔
      s.ml.params.stepThreshold < (wrapPhase (e - (s.rm.get r).buildOut)).natAbs ∨ s.secondsApart fine r ≠ 0 := by
  unfold needsStep
  rw [h.input, h.ml, h.whole isGood rfl]
  simp

/-- The good second of a followed reference, as the loop gets it. -/
theorem Follows.second (h : s.marks c fine r) (follows : s.Follows r) (isGood : s.GoodSecond r fine) :
    ∃ j, SecondAt s r fine true j ∧ MarkerLeft (j.loopSecond r true (s.errAt r fine)) (s.after c) := by
  obtain ⟨last, marked, closes⟩ := good_marked isGood
  exact after_marks_second h ((isFollowing_iff _).mpr follows.mode) follows.active follows.qualified marked closes (.inl rfl)

/-! ### The loop runs (R37, R40) -/

theorem setMode_keeps_everLocked (locked : s.dl.everLocked = true) (m : TbMode) (a : Option Ref) (c : TbCause) :
    (s.setMode m a c).dl.everLocked = true := by
  by_cases same : m = s.dl.mode ∧ a = s.dl.active
  · rw [State.setMode, if_pos same]
    exact locked
  · rw [setMode_changed_dl same]
    simp [locked]

theorem follow_keeps_everLocked (locked : s.dl.everLocked = true) (r : Ref) (m : TbMode) (b : Int) (c : TbCause) :
    (s.follow r m b c).dl.everLocked = true :=
  setMode_keeps_everLocked (s := (s.onRef r fun x => { x with buildOut := b }).onDl fun d => { d with history := [] }) locked ..

theorem setMode_locks (changed : s.dl.mode ≠ .locked) (a : Option Ref) (c : TbCause) :
    (s.setMode .locked a c).dl.everLocked = true := by
  rw [setMode_changed_dl fun same => changed same.1.symm]
  simp

/-- The items of the loop that a return to A leaves. -/
theorem testRevert_items (s : State) :
    s.testRevert.dl.mode = s.dl.mode ∧ s.testRevert.dl.integral = s.dl.integral ∧ s.testRevert.dl.search = s.dl.search ∧
      (s.dl.history = [] → s.testRevert.dl.history = []) ∧ (s.dl.everLocked = true → s.testRevert.dl.everLocked = true) := by
  by_cases due : s.revertDue
  · rw [testRevert_of_due due]
    exact ⟨follow_mode .., follow_integral .., follow_search .., fun _ => follow_history ..,
      fun locked => follow_keeps_everLocked locked ..⟩
  · rw [testRevert_of_not_due due]
    exact ⟨rfl, rfl, rfl, id, id⟩

theorem testRevert_of_not_b (other : s.dl.active ≠ some .b) : s.testRevert = s :=
  testRevert_of_not_due fun ⟨_, _, active, _⟩ => other active

theorem testRevert_tb (following : isFollowing s.dl.mode = true) : s.testRevert.tb = s.tb := by
  by_cases due : s.revertDue
  · rw [testRevert_of_due due, follow_tb_of_following following]
  · rw [testRevert_of_not_due due]

/-- A loop computation in ACQUIRING or LOCKED leaves the loop LOCKED (R37, R40). -/
theorem runLoop_locks (x : Int) (following : s.dl.mode = .acquiring ∨ s.dl.mode = .locked) :
    (s.runLoop x).dl.mode = .locked ∧ (s.runLoop x).dl.history = [] ∧
      (s.dl.mode = .acquiring → (s.runLoop x).dl.everLocked = true) ∧
      (s.dl.mode = .locked ∨ s.dl.active = some .a → (s.runLoop x).dl.active = s.dl.active) := by
  unfold State.runLoop
  dsimp only
  by_cases acquiring : s.dl.mode = .acquiring
  · rw [if_pos acquiring]
    obtain ⟨mode, -, -, history, everLocked⟩ := testRevert_items (State.setMode .locked s.dl.active .lock
      ((s.onDl fun d => { d with integral := newIntegral s.dl.integral x s.dl.q, history := [] }).writeTrim
        (newTrim (newIntegral s.dl.integral x s.dl.q) x s.dl.p)))
    refine ⟨mode.trans (setMode_mode ..), history (setMode_history ..), fun _ => everLocked (setMode_locks ?_ ..), fun stays => ?_⟩
    · exact fun locked => nomatch acquiring.symm.trans locked
    · have onA : s.dl.active = some .a := stays.resolve_left fun locked => nomatch acquiring.symm.trans locked
      rw [testRevert_of_not_b, setMode_active]
      rw [setMode_active, onA]
      exact nofun
  · rw [if_neg acquiring]
    exact ⟨following.resolve_left acquiring, rfl, fun h => absurd h acquiring, fun _ => rfl⟩

/-- Settles O26: a held second only empties the history, a good one runs the loop. -/
theorem loopRunsOnGoodSecondsAlone : Obligations.LoopRunsOnGoodSecondsAlone := by
  unfold Obligations.LoopRunsOnGoodSecondsAlone
  refine ⟨fun s c r fine marks mode active qual marked before held => ?_, fun s c r fine marks follows good idle => ?_⟩
  · refine ⟨s.after c, exec_eq_after .., ?_⟩
    obtain ⟨last, marked⟩ := Option.isSome_iff_exists.mp marked
    obtain ⟨j, second, left⟩ := after_marks_second marks ((isFollowing_iff _).mpr mode) active qual marked rfl (.inr before)
    rw [loopSecond_of_held, State.badSecond] at left
    · rw [left.tb, left.dl, State.onDl_tb, State.onDl_dl, second.tb, second.dl]
      exact ⟨rfl, rfl, rfl, rfl, rfl⟩
    · refine held.imp (fun bad => ?_) fun pending => by rwa [second.tb]
      exact Bool.eq_false_iff.mpr fun closes => bad ((closesGood_iff marked).mp closes)
  · intro x within agrees
    refine ⟨s.after c, exec_eq_after .., ?_⟩
    obtain ⟨j, second, left⟩ := Follows.second marks follows good
    have steady : ¬ needsStep j r (s.errAt r fine) = true := by
      rw [second.needsStep_iff good]
      exact fun needs => needs.elim (Nat.not_lt.mpr within) fun apart => apart agrees
    rw [loopSecond_good _ (by rw [second.tb]; exact follows.noStep) (by rw [second.dl]; exact idle), if_neg steady,
      second.input] at left
    obtain ⟨mode, history, everLocked, active⟩ := runLoop_locks (s := j) x (by rw [second.dl]; exact follows.mode)
    rw [second.dl] at everLocked active
    have integral := runLoop_integral x j
    have pendingTrim := runLoop_pendingTrim x j
    rw [← integral, newTrim_eq] at pendingTrim
    rw [newIntegral_eq] at integral
    rw [second.dl] at integral pendingTrim
    rw [left.dl, left.tb]
    refine ⟨integral, pendingTrim, (runLoop_trim x j).trans (by rw [second.tb]), mode, history, everLocked, fun stays => ?_⟩
    rw [active (stays.imp id fun a => by rw [follows.active, a]), follows.active]

/-! ### Step confirmation (R38) -/

theorem extendHistory_nil (jitter : Nat) (w e : Int) : extendHistory [] jitter w e = [(w, e)] := rfl

theorem extendHistory_append (h : List (Int × Int)) (w₀ e₀ : Int) (jitter : Nat) (w e : Int) :
    extendHistory (h ++ [(w₀, e₀)]) jitter w e =
      if w₀ = w ∧ (wrapPhase (e - e₀)).natAbs ≤ jitter then h ++ [(w₀, e₀)] ++ [(w, e)] else [(w, e)] := by
  unfold extendHistory agreesWith
  rw [List.getLast?_concat]
  have eq : ((w == w₀ && decide ((wrapPhase (e - e₀)).natAbs ≤ jitter)) = true) = (w₀ = w ∧ (wrapPhase (e - e₀)).natAbs ≤ jitter) := by
    simp only [Bool.and_eq_true, beq_iff_eq, decide_eq_true_eq, eq_comm (a := w)]
  simp only [eq]

theorem confirmStep_of_short {w e : Int} (short : (extendHistory s.dl.history s.ml.params.jitterLimit w e).length < 3) :
    s.confirmStep r w e = s.onDl fun d => { d with history := extendHistory s.dl.history s.ml.params.jitterLimit w e } :=
  if_pos short

theorem confirmStep_of_full {w e : Int} (full : ¬(extendHistory s.dl.history s.ml.params.jitterLimit w e).length < 3)
    (idle : s.dl.search = none) :
    s.confirmStep r w e =
      (s.onRef r fun x => { x with buildOut := 0 }).onDl fun d =>
        { d with history := [], confirmed := some (stepAmount w e, stepResidual e) } := by
  unfold State.confirmStep
  dsimp only
  rw [if_neg full]
  simp only [State.onDl, State.onRef_dl, idle]

/-- The number of ticks nearest to a phase, half away from zero (R38). -/
theorem roundTicks_nearest (e : Int) :
    2 * |e - roundTicks e * 15625| ≤ 15625 ∧
      (2 * |e - roundTicks e * 15625| = 15625 → |e| < |roundTicks e * 15625|) ∧ |e - roundTicks e * 15625| ≤ 7813 := by
  have near : -15625 ≤ 2 * (e - roundTicks e * 15625) ∧ 2 * (e - roundTicks e * 15625) ≤ 15625 := by
    unfold roundTicks
    split <;> omega
  have odd : 2 * |e - roundTicks e * 15625| ≠ 15625 := by omega
  have bound : |2 * (e - roundTicks e * 15625)| ≤ 15625 := abs_le.mpr near
  rw [abs_mul, abs_two] at bound
  exact ⟨bound, fun half => absurd half odd, by omega⟩

/-- Settles O27: the history grows by agreeing seconds, and the third confirms the step. -/
theorem threeAgreeingSecondsConfirmStep : Obligations.ThreeAgreeingSecondsConfirmStep := by
  unfold Obligations.ThreeAgreeingSecondsConfirmStep
  intro s c r fine marks follows good idle e w needs
  refine ⟨s.after c, exec_eq_after .., ?_⟩
  obtain ⟨j, second, left⟩ := Follows.second marks follows good
  have idle : j.dl.search = none := by rw [second.dl]; exact idle
  rw [loopSecond_good _ (by rw [second.tb]; exact follows.noStep) idle, if_pos ((second.needsStep_iff good _).mpr needs),
    second.whole good rfl] at left
  have left : MarkerLeft (j.confirmStep r w e) (s.after c) := left
  have tb : (s.after c).tb = s.tb := left.tb.trans ((confirmStep_tb ..).trans second.tb)
  rw [left.get r, left.dl, ← second.dl, ← second.ml]
  by_cases short : (extendHistory j.dl.history j.ml.params.jitterLimit w e).length < 3
  · rw [confirmStep_of_short short]
    refine ⟨tb, rfl, rfl, fun empty => ?_, fun h w₀ e₀ history => ?_⟩
    · rw [State.onDl_dl, empty]
      rfl
    · rw [history, extendHistory_append] at short
      rw [State.onDl_dl, history, extendHistory_append]
      refine ⟨fun differs => if_neg fun agrees => ?_, fun same near => ?_⟩
      · exact differs.elim (fun apart => apart agrees.1) (Nat.not_lt.mpr agrees.2)
      · rw [if_pos ⟨same, near⟩] at short ⊢
        refine ⟨fun _ => rfl, fun more => absurd short ?_⟩
        have := List.length_pos_of_ne_nil more
        simp only [List.length_append, List.length_singleton]
        omega
  · rw [confirmStep_of_full short idle]
    refine ⟨tb, rfl, rfl, fun empty => absurd ?_ short, fun h w₀ e₀ history => ?_⟩
    · rw [empty, extendHistory_nil]
      simp
    · rw [history, extendHistory_append] at short
      refine ⟨fun differs => absurd ?_ short, fun same near => ?_⟩
      · rw [if_neg fun agrees => differs.elim (fun apart => apart agrees.1) (Nat.not_lt.mpr agrees.2)]
        simp
      · refine ⟨fun empty => absurd ?_ short, fun _ => ?_⟩
        · rw [empty]
          split <;> simp
        · obtain ⟨nearest, half, residual⟩ := roundTicks_nearest e
          exact ⟨roundTicks e, rfl, rfl, by simp, nearest, half, residual⟩

/-! ### The trim search (R48, R49) -/

theorem searchSecond_of_armed {x : Search} (running : s.dl.search = some x) (armed : x.armed = true) (e : Int) :
    s.searchSecond e = match x.start with
      | none => s.onDl fun d => { d with search := some { x with start := some (e, 0) } }
      | some (e₀, n) =>
        if n < 2 then s.onDl fun d => { d with search := some { x with start := some (e₀, n + 1) } }
        else s.endInterval x (wrapPhase (e - e₀)) := by
  unfold State.searchSecond
  rw [running]
  exact if_pos armed

/-- The trim of a finished interval moves by the step size toward the sign of the phase difference (R48). -/
theorem searchTrim_eq (x : Search) (d : Int) :
    searchTrim x d = max (-200000) (min 200000 (x.trim + d.sign * x.stepSize)) := by
  unfold searchTrim clampTrim clampInt
  rcases lt_trichotomy d 0 with negative | rfl | positive
  · rw [if_neg (by omega), if_pos negative, Int.sign_eq_neg_one_of_neg negative]
    congr 2
    omega
  · simp
  · rw [if_pos positive, Int.sign_eq_one_of_pos positive]
    simp

theorem completeSearch_items (following : isFollowing s.dl.mode = true) (found : Int) (x : Search) :
    (s.completeSearch found x).tb.pendingTrim = found ∧ (s.completeSearch found x).dl.search = none ∧
      (s.completeSearch found x).dl.integral = found ∧
      (s.eq.records.length < 512 →
        s.admittedNext (s.completeSearch found x) (timebaseRecord s.dl.active s.dl.mode s.dl.mode .searchDone s.tb.now)) := by
  let done := (s.onDl fun d => { d with search := none, integral := found, confirmed := x.deferred.or d.confirmed }).writeTrim found
  let told := done.offer (timebaseRecord s.dl.active s.dl.mode s.dl.mode .searchDone s.tb.now)
  have dl : told.dl = done.dl := State.offer_dl ..
  have tb : told.tb = done.tb := State.offer_tb ..
  obtain ⟨-, integral, search, -⟩ := testRevert_items told
  refine ⟨?_, search.trans (by rw [dl]; rfl), integral.trans (by rw [dl]; rfl), fun room => ?_⟩
  · exact (congrArg Timebase.pendingTrim (testRevert_tb (s := told) (by rw [dl]; exact following))).trans (by rw [tb]; rfl)
  · have admitted : s.admittedNext told _ := State.admittedNext.of_eq (s := s) (State.offer_admitted (takes_a (s := done) room)) rfl
    exact admitted.append (testRevert_appended _)

/-- Settles O28: the seconds of an interval are counted, and the third closes it. -/
theorem trimSearchMovesByStepSize : Obligations.TrimSearchMovesByStepSize := by
  unfold Obligations.TrimSearchMovesByStepSize
  intro s c r fine x marks follows good running armed within agrees
  refine ⟨s.after c, exec_eq_after .., ?_⟩
  obtain ⟨j, second, left⟩ := Follows.second marks follows good
  have steady : needsStep j r (s.errAt r fine) = false := by
    rw [Bool.eq_false_iff, ne_eq, second.needsStep_iff good]
    exact fun needs => needs.elim (Nat.not_lt.mpr within) fun apart => apart agrees
  rw [loopSecond_searching _ (by rw [second.tb]; exact follows.noStep) (by rw [second.dl]; exact running) steady,
    searchSecond_of_armed (x := x) (by simp [second.dl, running]) armed] at left
  refine ⟨fun opens => ?_, fun e₀ n start more => ?_, fun e₀ n start ends => ?_⟩
  · rw [opens] at left
    rw [left.dl, left.tb]
    exact ⟨rfl, second.tb⟩
  · rw [start] at left
    dsimp only at left
    rw [if_pos more] at left
    rw [left.dl, left.tb]
    exact ⟨rfl, second.tb⟩
  · intro d found
    rw [start] at left
    dsimp only at left
    rw [if_neg (by omega)] at left
    have trim : searchTrim x d = found := searchTrim_eq x d
    have left : MarkerLeft ((j.onDl fun l => { l with history := [] }).endInterval x d) (s.after c) := left
    unfold State.endInterval at left
    rw [trim] at left
    rw [left.dl, left.tb]
    by_cases ended : d = 0 ∨ x.stepSize ≤ 25
    · rw [if_pos ended] at left ⊢
      obtain ⟨pendingTrim, search, integral, admitted⟩ := completeSearch_items (s := j.onDl fun l => { l with history := [] })
        (by rw [State.onDl_dl, second.dl]; exact (isFollowing_iff _).mpr follows.mode) found x
      refine ⟨pendingTrim, fun moved wide => absurd ended (by omega), fun _ => ⟨search, integral, fun room => ?_⟩⟩
      have told := (admitted (by rw [State.onDl_eq, second.eq]; exact room)).append left.appended
      rw [State.onDl_dl, State.onDl_tb, second.tb, second.dl, follows.active] at told
      exact told.of_eq (by rw [State.onDl_eq, second.eq])
    · rw [if_neg ended]
      exact ⟨rfl, fun _ _ => ⟨rfl, (congrArg Loop.integral second.dl :)⟩, fun h => absurd h ended⟩

end Sys2Proof.Machine
end

/-! PROOF. Frames taken from the station link, with their sync and without it: the statements about A's time message, the
delivery of a frame, and frame alignment. -/

section
namespace Sys2Proof.Machine

variable {s t : State} {fine : Fin 15625} {f : DownFrame}

/-! ### A's time message (R25, R26) -/

/-- The number of octets read most significant first, one octet more at the end. -/
theorem natOf_append_singleton (l : List Octet) (o : Octet) : natOf (l ++ [o]) = natOf l * 256 + o.toNat := by
  unfold natOf
  simp [List.foldl_append]

theorem timeMessageOf_seconds (o₀ o₁ o₂ o₃ o₄ o₅ o₆ o : Octet) :
    (timeMessageOf [o₀, o₁, o₂, o₃, o₄, o₅, o₆, o]).seconds = (o₁ ++ o₂ ++ o₃ ++ o₄ ++ o₅).toNat := by
  have shifted : ∀ {w : Nat} (x : BitVec w) (y : Octet), (x ++ y).toNat = x.toNat * 256 + y.toNat := fun x y => by
    rw [BitVec.toNat_append, ← Nat.shiftLeft_add_eq_or_of_lt y.isLt, Nat.shiftLeft_eq]
  simp only [shifted]
  simp [timeMessageOf, fieldAt, natOf]

theorem timeMessageOf_cls (o₀ o₁ o₂ o₃ o₄ o₅ o₆ o : Octet) :
    (timeMessageOf [o₀, o₁, o₂, o₃, o₄, o₅, o₆, o]).cls = o₆.toNat % 8 := by
  simp [timeMessageOf, fieldAt, natOf]

/-- The check octet is the sum of the seven octets before it (R186). -/
theorem timeMessageOf_correct (o₀ o₁ o₂ o₃ o₄ o₅ o₆ o : Octet) :
    (timeMessageOf [o₀, o₁, o₂, o₃, o₄, o₅, o₆, o]).correct = true ↔ o = o₀ + o₁ + o₂ + o₃ + o₄ + o₅ + o₆ := by
  have check : checkOctet [o₀, o₁, o₂, o₃, o₄, o₅, o₆] = o₀ + o₁ + o₂ + o₃ + o₄ + o₅ + o₆ := by
    apply BitVec.eq_of_toNat_eq
    simp [checkOctet, octetOf, BitVec.toNat_add]
    omega
  have own : fieldAt [o₀, o₁, o₂, o₃, o₄, o₅, o₆, o] 7 1 = o.toNat := by simp [fieldAt, natOf]
  unfold timeMessageOf
  rw [decide_eq_true_iff, own, show List.take 7 _ = [o₀, o₁, o₂, o₃, o₄, o₅, o₆] from rfl, check, BitVec.toNat_inj]

theorem takeTimeOctet_of_more (o : Octet) (begun : s.rm.assembly ≠ []) (more : s.rm.assembly.length < 7) :
    s.takeTimeOctet o = { s with rm := { s.rm with assembly := s.rm.assembly ++ [o] } } := by
  unfold State.takeTimeOctet
  dsimp only
  rw [if_neg begun, if_pos more]

theorem takeTimeOctet_of_last (o : Octet) (full : s.rm.assembly.length = 7) :
    s.takeTimeOctet o = s.completeMessage (timeMessageOf (s.rm.assembly ++ [o])) := by
  unfold State.takeTimeOctet
  dsimp only
  rw [if_neg (by intro empty; simp [empty] at full), if_neg (by omega)]

/-! ### A frame that is taken (R52, R56) -/

/-- The frame's delivery up to its time octet. -/
def State.timed (fine : Fin 15625) (f : DownFrame) (s : State) : State :=
  ((((s.onSli fun x => { x with missing := 0 }).paceFrame.frameMarker fine f).takeTimeOctet f.time))

theorem timed_within (fine : Fin 15625) (f : DownFrame) (s : State) :
    Within [.sli, .rm, .dl, .tb, .eq, .sh] s (s.timed fine f) := by
  unfold State.timed State.frameMarker
  have paced : Within [.sli] s (s.onSli fun x => { x with missing := 0 }).paceFrame :=
    ((onSli_within ..).and (onSli_within ..)).mono (by decide)
  refine Within.trans ((paced.mono (by decide)).trans ?_) ((takeTimeOctet_within ..).mono (by decide))
  refine .ite ?_ (.refl ..)
  exact ((setRm_within ..).and (takeMarker_within ..)).mono (by decide)

theorem timed_sli (fine : Fin 15625) (f : DownFrame) (s : State) :
    (s.timed fine f).sli = { s.sli with missing := 0, expected := s.sli.expected.map (· + 768), upDue := s.upwardDue } := by
  have octet := (takeTimeOctet_within f.time ((s.onSli fun x => { x with missing := 0 }).paceFrame.frameMarker fine f)).out .sli
    (by decide)
  refine Eq.trans octet ?_
  unfold State.frameMarker
  split
  · rw [(takeMarker_within ..).out .sli (by decide)]
    rfl
  · rfl

theorem takeFrame_of_inFrame (frame : s.sli.alignment = .inFrame) (sync : f.hasSync = true) :
    s.takeFrame fine f = ((s.timed fine f).onMl (MgmtLink.read (mgmtFieldOf f))).writeStore .down f.commands :=
  if_pos ⟨frame, sync⟩

theorem writeStore_down_of_room (room : s.down.frames.length < s.ml.params.storeDepth) (x : Vector Octet 24) :
    (s.writeStore .down x).down = { s.down with frames := s.down.frames ++ [x] } := by
  rw [writeStore_of_room (n := .down) x room]
  rfl

theorem writeStore_down_of_full (full : s.ml.params.storeDepth ≤ s.down.frames.length) (x : Vector Octet 24) :
    (s.writeStore .down x).down.frames = s.down.frames.tail ++ [x] ∧
      (s.writeStore .down x).down.slips = min (s.down.slips + 1) 65535 := by
  have eq : s.writeStore .down x =
      (s.setStore .down { s.store .down with frames := (s.store .down).frames.tail ++ [x] }).slip .down .dropped :=
    if_neg (Nat.not_lt.mpr full)
  have store : (s.writeStore .down x).store .down =
      ({ s.store .down with frames := (s.store .down).frames.tail ++ [x] } : Elastic).slipped := by
    rw [eq, store_slip, store_setStore]
  exact ⟨congrArg Elastic.frames store, congrArg Elastic.slips store⟩

theorem timed_of_unflagged (unflagged : markerFlag f = false) (s : State) :
    s.timed fine f = ((s.onSli fun x => { x with missing := 0 }).paceFrame).takeTimeOctet f.time := by
  unfold State.timed State.frameMarker
  rw [if_neg (by rw [unflagged]; exact nofun)]

theorem completeMessage_rm (m : TimeMessage) (s : State) :
    (s.completeMessage m).rm = { s.rm with assembly := [], message := some m, aClass := if m.correct = true ∧ m.cls ≠ 7 then m.cls else s.rm.aClass } := by
  simp [State.completeMessage]

theorem takeTimeOctet_refs (o : Octet) (s : State) :
    (s.takeTimeOctet o).rm.a = s.rm.a ∧ (s.takeTimeOctet o).rm.b = s.rm.b := by
  unfold State.takeTimeOctet State.completeMessage
  dsimp only
  split
  · split <;> exact ⟨rfl, rfl⟩
  · split <;> exact ⟨rfl, rfl⟩

/-- Settles O29: without a marker the references stay, and the time octet goes to the assembly. -/
theorem timeMessageAssembled : Obligations.TimeMessageAssembled := by
  unfold Obligations.TimeMessageAssembled
  intro s fine f frame sync unflagged
  let p := (s.onSli fun x => { x with missing := 0 }).paceFrame
  have rm : (s.takeFrame fine f).rm = (p.takeTimeOctet f.time).rm := by
    rw [takeFrame_of_inFrame frame sync, (writeStore_within ..).out .rm (by decide), State.onMl_rm, timed_of_unflagged unflagged]
  refine ⟨s.takeFrame fine f, rfl, ?_⟩
  rw [rm]
  obtain ⟨a, b⟩ := takeTimeOctet_refs f.time p
  refine ⟨a, b, fun empty start => ?_, fun empty other => ?_, fun begun more => ?_, ?_⟩
  · have taken : p.takeTimeOctet f.time = { p with rm := { p.rm with assembly := [f.time] } } :=
      (if_pos empty).trans (if_pos start)
    rw [taken, start]
    rfl
  · have left : p.takeTimeOctet f.time = p := (if_pos empty).trans (if_neg other)
    rw [left]
    rfl
  · rw [takeTimeOctet_of_more (s := p) f.time begun more]
    rfl
  · intro o₀ o₁ o₂ o₃ o₄ o₅ o₆ assembled
    have assembled : p.rm.assembly = [o₀, o₁, o₂, o₃, o₄, o₅, o₆] := assembled
    rw [takeTimeOctet_of_last (s := p) f.time (by rw [assembled]; rfl), completeMessage_rm, assembled]
    exact ⟨_, rfl, rfl, timeMessageOf_seconds .., timeMessageOf_cls .., timeMessageOf_correct .., rfl⟩

theorem upwardDue_eq_none {u : UpInProgress} (progress : s.sli.up = some u) (source : u.source = .elapsed)
    (early : s.tb.e < u.start + 16) : s.upwardDue = none := by
  unfold State.upwardDue
  rw [progress]
  exact if_pos ⟨source, early⟩

theorem upwardDue_eq_some (free : ∀ u, s.sli.up = some u → u.source = .loop ∨ u.start + 16 ≤ s.tb.e) :
    s.upwardDue = some (s.tb.e + 2) := by
  unfold State.upwardDue
  split
  · next u progress =>
    refine if_neg fun ⟨source, early⟩ => ?_
    rcases free u progress with loop | past
    · exact nomatch source.symm.trans loop
    · exact absurd early (Nat.not_lt.mpr past)
  · rfl

/-- Settles O30: the frame paces the link, is read by the ML and written to the downward store. -/
theorem frameTakenIsDelivered : Obligations.FrameTakenIsDelivered := by
  unfold Obligations.FrameTakenIsDelivered
  intro s fine f sync
  refine ⟨fun lof => congrArg _ (takeFrame_of_lof fine f lof), fun frame => ?_⟩
  have timed := timed_within fine f s
  have ml : (s.timed fine f).ml = s.ml := timed.out .ml (by decide)
  have down : (s.timed fine f).down = s.down := timed.out .down (by decide)
  have params : ((s.timed fine f).onMl (MgmtLink.read (mgmtFieldOf f))).ml.params = s.ml.params := by
    rw [State.onMl_ml, MgmtLink.read_params, ml]
  let read := (s.timed fine f).onMl (MgmtLink.read (mgmtFieldOf f))
  have store := writeStore_within .down f.commands read
  refine ⟨read.writeStore .down f.commands, congrArg _ (takeFrame_of_inFrame frame sync), ?_⟩
  have sli : (read.writeStore .down f.commands).sli = (s.timed fine f).sli := store.out .sli (by decide)
  rw [sli, timed_sli]
  refine ⟨rfl, fun ⟨u, progress, source, early⟩ => upwardDue_eq_none progress source early, upwardDue_eq_some, ?_,
    fun room => ?_, fun full => ?_, ?_⟩
  · exact (store.out .ml (by decide)).trans (by rw [State.onMl_ml, ml])
  · rw [writeStore_down_of_room (s := read) (by rw [State.onMl_down, down, params]; exact room), State.onMl_down, down]
  · have := writeStore_down_of_full (s := read) (by rw [State.onMl_down, down, params]; exact full) f.commands
    rwa [State.onMl_down, down] at this
  · exact ((timed.mono (by decide)).trans ((onMl_within ..).mono (by decide))).trans (store.mono (by decide))

/-! ### A frame without its sync (R53, R54) -/

/-- The counts of a missing sync. -/
def State.missed (s : State) : State :=
  s.onSli fun x => { x with missing := min (x.missing + 1) 4, syncErrors := satAdd top16 x.syncErrors 1 }

theorem syncAbsent_of_few (frame : s.sli.alignment = .inFrame) (few : s.sli.missing < 3) : s.syncAbsent = s.missed.takeBroken :=
  (if_pos frame).trans (if_pos (show min (s.sli.missing + 1) 4 < 4 by omega))

theorem syncAbsent_of_fourth (frame : s.sli.alignment = .inFrame) (three : 3 ≤ s.sli.missing) : s.syncAbsent = s.missed.enterLof :=
  (if_pos frame).trans (if_neg (show ¬min (s.sli.missing + 1) 4 < 4 by omega))

theorem takeBroken_parts (s : State) :
    s.takeBroken.sli = s.paceFrame.sli ∧ s.takeBroken.rm = { s.rm with assembly := [] } ∧
      s.takeBroken.ml = s.ml.read brokenField ∧
      (s.down.frames.length < s.ml.params.storeDepth → s.takeBroken.down = { s.down with frames := s.down.frames ++ [onesFrame] }) ∧
      Within [.sli, .rm, .ml, .down, .eq, .sh] s s.takeBroken := by
  let read := (s.paceFrame.dropAssembly).onMl (MgmtLink.read brokenField)
  have store := writeStore_within .down onesFrame read
  have before : Within [.sli, .rm, .ml, .down, .eq, .sh] s read :=
    ((onSli_within ..).and ((setRm_within ..).and (onMl_within ..))).mono (by decide)
  refine ⟨store.out .sli (by decide), store.out .rm (by decide), store.out .ml (by decide), fun room => ?_,
    before.trans (store.mono (by decide))⟩
  have params : read.ml.params = s.ml.params := MgmtLink.read_params brokenField s.ml
  exact writeStore_down_of_room (s := read) (by rw [params]; exact room) onesFrame

/-- Reference A at the entry to LOF (R31). -/
theorem linkLossA_rm (s : State) :
    s.linkLossA.rm.assembly = [] ∧ s.linkLossA.rm.message = none ∧
      (s.rm.a.qual = .qualified →
        s.linkLossA.rm.a.qual = .faulted ∧ s.linkLossA.rm.a.fault = .link ∧ s.linkLossA.rm.a.holdoffEnd = some (s.tb.e + 128000)) ∧
      (s.rm.a.qual = .qualifying →
        s.linkLossA.rm.a.qual = .absent ∧ s.linkLossA.rm.a.lastMarker = none ∧ s.linkLossA.rm.a.lastErr = none) ∧
      (s.rm.a.qual = .absent ∨ s.rm.a.qual = .faulted → s.linkLossA.rm.a = s.rm.a) := by
  unfold State.linkLossA
  dsimp only
  cases qual : s.rm.a.qual
  case absent => exact ⟨rfl, rfl, nofun, nofun, fun _ => rfl⟩
  case faulted => exact ⟨rfl, rfl, nofun, nofun, fun _ => rfl⟩
  case qualifying =>
    refine ⟨?_, ?_, nofun, fun _ => ?_, fun h => h.elim nofun nofun⟩
    all_goals simp [RefMonitor.put]
  case qualified =>
    dsimp only
    have refs := faultRef_sameRefs .a .link { s with rm := { s.rm with assembly := [], message := none } }
    have own := faultRef_own .a .link { s with rm := { s.rm with assembly := [], message := none } }
    refine ⟨(congrArg RefMonitor.assembly refs :), (congrArg RefMonitor.message refs :), fun _ => ?_, nofun, fun h => h.elim nofun nofun⟩
    exact ⟨(congrArg RefState.qual own :), (congrArg RefState.fault own :), (congrArg RefState.holdoffEnd own :)⟩

theorem enterLof_parts (s : State) :
    s.enterLof.sli = { s.sli with alignment := .lof, hunt := .searching, expected := none, searchFrom := s.sli.expected.getD 0 + 1, upTiming := .elapsed, upDue := none } ∧
      (∃ u : State, u.rm = s.rm ∧ u.tb = s.tb ∧ s.enterLof.rm = u.linkLossA.rm) ∧
      s.enterLof.ml = { s.ml.abandonReception with previous := none } ∧
      Within [.sli, .rm, .dl, .tb, .ml, .eq, .sh] s s.enterLof := by
  let lof := s.onSli fun x => { x with alignment := .lof, hunt := .searching, expected := none, searchFrom := x.expected.getD 0 + 1, upTiming := .elapsed, upDue := none }
  have lost := linkLossA_within lof
  refine ⟨lost.out .sli (by decide), ⟨lof, rfl, rfl, rfl⟩, ?_, ?_⟩
  · exact congrArg (fun m : MgmtLink => { m.abandonReception with previous := none }) (lost.out .ml (by decide))
  · exact (Within.trans (t := lof) ((onSli_within ..).mono (by decide)) (lost.mono (by decide))).trans ((onMl_within ..).mono (by decide))

/-! ### The hunt (R51, R55) -/

theorem syncFound_of_searching (lof : s.sli.alignment = .lof) (searching : s.sli.hunt = .searching) (pos : Nat) :
    s.syncFound pos =
      if s.inReset = false ∧ s.sli.searchFrom ≤ pos then
        { s with sli := { s.sli with hunt := .confirming 1, expected := some (pos + 768) } }
      else s := by
  unfold State.syncFound
  rw [lof, searching]
  rfl

theorem syncFound_of_confirming {n : Nat} (lof : s.sli.alignment = .lof) (confirming : s.sli.hunt = .confirming n) (pos : Nat) :
    s.syncFound pos =
      if s.sli.expected = some pos then
        if n + 1 < 3 then { s with sli := { s.sli with hunt := .confirming (n + 1), expected := some (pos + 768) } }
        else s.regainAlignment
      else s := by
  unfold State.syncFound
  rw [lof, confirming]
  rfl

theorem syncMissed_of_confirming {n x : Nat} (lof : s.sli.alignment = .lof) (confirming : s.sli.hunt = .confirming n)
    (expected : s.sli.expected = some x) :
    s.syncMissed = { s with sli := { s.sli with hunt := .searching, expected := none, searchFrom := x - 768 * n + 1 } } := by
  unfold State.syncMissed
  rw [lof, confirming, expected]
  rfl

theorem syncMissed_of_searching (searching : s.sli.hunt = .searching) : s.syncMissed = s := by
  unfold State.syncMissed
  rw [searching]
  cases s.sli.alignment <;> rfl

/-- Settles O31: the missing syncs of a taken link, and the hunt of a lost one. -/
theorem alignmentFoundAndLost : Obligations.AlignmentFoundAndLost := by
  unfold Obligations.AlignmentFoundAndLost
  refine ⟨fun s => ⟨fun lof => congrArg _ (syncAbsent_of_lof lof), fun frame few => ?_, fun frame three => ?_⟩, fun s lof => ?_⟩
  · refine ⟨s.missed.takeBroken, congrArg _ (syncAbsent_of_few frame few), ?_⟩
    obtain ⟨sli, rm, ml, down, within⟩ := takeBroken_parts s.missed
    rw [sli]
    refine ⟨?_, rm, ml, down, Within.trans (t := s.missed) ((onSli_within ..).mono (by decide)) within⟩
    have count : min (s.sli.missing + 1) 4 = s.sli.missing + 1 := by omega
    simp [State.paceFrame, State.missed, count, satAdd]
  · refine ⟨s.missed.enterLof, congrArg _ (syncAbsent_of_fourth frame three), ?_⟩
    obtain ⟨sli, ⟨u, monitor, tb, rm⟩, ml, within⟩ := enterLof_parts s.missed
    obtain ⟨assembly, message, qualified, qualifying, other⟩ := linkLossA_rm u
    have a : u.rm.a = s.rm.a := congrArg RefMonitor.a monitor
    have e : u.tb.e = s.tb.e := congrArg Timebase.e tb
    rw [a] at qualified qualifying other
    rw [e] at qualified
    rw [sli, rm, ml]
    have count : min (s.sli.missing + 1) 4 = 4 := by omega
    refine ⟨by simp [State.missed, count, satAdd], fun x expected => by simp [State.missed, expected], assembly, message, qualified,
      qualifying, other, rfl, rfl, rfl, rfl, rfl, fun l begun => ?_, fun complete => ?_,
      Within.trans (t := s.missed) ((onSli_within ..).mono (by decide)) within⟩
    · simp [MgmtLink.abandonReception, State.missed, begun]
    · show (match s.ml.request with | .partialRequest _ => RequestBuffer.empty | b => b) = s.ml.request
      split
      · next l begun => exact absurd begun (complete l)
      · rfl
  · refine ⟨fun pos searching => ⟨fun held => ?_, fun running reached => ?_⟩, fun searching => ?_, fun n pos confirming expected => ?_⟩
    · refine congrArg _ ((syncFound_of_searching lof searching pos).trans (if_neg fun ⟨running, reached⟩ => ?_))
      exact held.elim (Nat.not_lt.mpr reached) fun reset => nomatch running.symm.trans reset
    · exact congrArg _ ((syncFound_of_searching lof searching pos).trans (if_pos ⟨running, reached⟩))
    · exact congrArg _ (syncMissed_of_searching searching)
    · have found := fun x => syncFound_of_confirming lof confirming x
      refine ⟨fun other differs => ?_, fun more => ?_, fun third => ?_, congrArg _ (syncMissed_of_confirming lof confirming expected)⟩
      · refine congrArg _ ((found other).trans (if_neg fun eq => differs ?_))
        exact Option.some.inj (eq.symm.trans expected)
      · exact congrArg _ ((found pos).trans ((if_pos expected).trans (if_pos (by omega))))
      · exact congrArg _ ((found pos).trans ((if_pos expected).trans (if_neg (by omega))))

end Sys2Proof.Machine
end

/-! PROOF. Cuts and changes told of, the timers of the handover, the incident that holds it, and the close of a cascade. -/

section
namespace Sys2Proof.Machine

variable {s t : State}

theorem exec_of_after {c : Instr} (h : s.after c = t) : exec c s = .next t := (exec_eq_after c s).trans (congrArg _ h)

/-! ### A change told of (R145, R156) -/

/-- With no message in transmission and room in the queue, a change told of queues its NOTICE. -/
theorem announce_told (free : s.hc.tx = none) (room : s.hc.queue.length < 4) (old : HState) (c : HCause) (k : RecClass) (n : Nat) :
    (s.announce old c k n).hc = { s.hc with queue := s.hc.queue ++ [s.hc.noticeNow] } := by
  unfold State.announce State.notice
  rw [State.onHc_hc, State.offer_hc, Handover.enqueue_room free room]
  rfl

/-- The Source of a cut's record (R156). -/
def cutSource (k : CloseKind) (duty : Option Console) : Nat :=
  match k with
  | .unattended | .auto => 0
  | .normal | .late | .forced => consoleCode duty

theorem takeCut_admitted (k : CloseKind) (c : HCause) (e : Nat) (room : s.eq.takes (cutClass k) = true) :
    s.admittedNext (s.takeCut k c e)
      (mkRecord .handover (cutClass k) (cutSource k s.hc.duty) (hStateCode s.hc.state) 6 (hCauseCode c) s.tb.now) := by
  have admitted := State.announce_admitted (s := s.makeCut k e) (old := s.hc.state) (c := c) (n := cutSource k s.hc.duty) room
  cases k <;> exact admitted.of_eq rfl

theorem takeCut_tu (k : CloseKind) (c : HCause) (e : Nat) (s : State) (u : UnitNo) :
    (s.takeCut k c e).tu[u] = { s.tu[u] with next := some (ShiftSet.zero (some e)) } := by
  simp [State.takeCut, State.makeCut, State.noteCut]

/-! ### The window and the release timer (R149) -/

theorem windowExpires_of_state (other : s.hc.state ≠ .windowOpen) : s.windowExpires = s := by
  unfold State.windowExpires
  split
  · next state _ => exact absurd state other
  · rfl

theorem releaseExpires_of_state (other : s.hc.state ≠ .accepted) : s.releaseExpires = s := by
  unfold State.releaseExpires
  split
  · next state _ => exact absurd state other
  · rfl

theorem windowExpires_of_early {x : Nat} (timer : s.hc.timer = .window x) (early : s.tb.e < x) : s.windowExpires = s := by
  unfold State.windowExpires
  rw [timer]
  split
  · next y _ eq =>
    cases eq
    exact if_neg (Nat.not_le.mpr early)
  · rfl

theorem releaseExpires_of_early {x : Nat} (timer : s.hc.timer = .release x) (early : s.tb.e < x) : s.releaseExpires = s := by
  unfold State.releaseExpires
  rw [timer]
  split
  · next y _ eq =>
    cases eq
    exact if_neg (Nat.not_le.mpr early)
  · rfl

/-- OVERRUN entered, before it is told of (R149). -/
def State.overrun (s : State) : State := s.onHc fun h => { h with state := .overrun, timer := .none, overrun := true }

theorem windowExpires_of_due {x : Nat} (state : s.hc.state = .windowOpen) (timer : s.hc.timer = .window x) (due : x ≤ s.tb.e) :
    s.windowExpires = s.overrun.announce .windowOpen .windowExpiry .a (consoleCode s.hc.duty) := by
  unfold State.windowExpires
  rw [state, timer]
  exact if_pos due

theorem releaseExpires_of_due {x : Nat} (state : s.hc.state = .accepted) (timer : s.hc.timer = .release x) (due : x ≤ s.tb.e) :
    s.releaseExpires = s.takeCut .forced .releaseExpiry x := by
  unfold State.releaseExpires
  rw [state, timer]
  exact if_pos due

/-- Settles O48: each timer acts at its expiry in its own state. -/
theorem handoverTimersExpire : Obligations.HandoverTimersExpire := by
  unfold Obligations.HandoverTimersExpire
  refine fun s => ⟨fun other => congrArg _ (windowExpires_of_state other), fun other => congrArg _ (releaseExpires_of_state other),
    fun x timer early => congrArg _ (windowExpires_of_early timer early),
    fun x timer early => congrArg _ (releaseExpires_of_early timer early), fun x state timer due => ?_, fun x state timer due => ?_⟩
  · refine ⟨_, exec_of_after (windowExpires_of_due state timer due), State.announce_hc ..,
      fun free room => ?_, fun room => ?_, ?_⟩
    · rw [announce_told (s := s.overrun) free room]
      rfl
    · exact (State.announce_admitted (s := s.overrun) (takes_a (s := s.overrun) room)).of_eq rfl
    · exact Within.trans (t := s.overrun) ((onHc_within ..).mono (by decide)) (announce_within ..)
  · refine ⟨_, exec_of_after (releaseExpires_of_due state timer due), takeCut_hc .., takeCut_cut ..,
      fun u => takeCut_tu .., fun room => ?_, takeCut_within ..⟩
    have admitted := takeCut_admitted .forced .releaseExpiry x (takes_a room)
    rwa [state] at admitted

/-! ### The incident (R115, R150, R151) -/

theorem anyOpen_iff (c : Cascades) : c.anyOpen = true ↔ ∃ g : Group, c.slots[g].isSome := by
  unfold Cascades.anyOpen
  rw [List.any_eq_true]
  constructor
  · rintro ⟨x, mem, some⟩
    obtain ⟨i, bound, rfl⟩ := List.mem_iff_getElem.mp mem
    exact ⟨⟨i, by simpa using bound⟩, by simpa using some⟩
  · rintro ⟨g, some⟩
    exact ⟨c.slots[g], by simp, some⟩

theorem activeAt_iff (e : Nat) (c : Cascades) :
    c.activeAt e = true ↔ (∃ g : Group, c.slots[g].isSome) ∨ ∃ h, c.holdEnd = some h ∧ e < h := by
  unfold Cascades.activeAt
  rw [Bool.or_eq_true, anyOpen_iff]
  cases c.holdEnd <;> simp

theorem incidentBegins_ct (s : State) : s.incidentBegins.ct = s.ct := (incidentBegins_within s).out .ct (by decide)

theorem incidentEnds_ct (s : State) : s.incidentEnds.ct = s.ct := (incidentEnds_within s).out .ct (by decide)

/-- The incident lasts exactly while a cascade is open or the hold runs; its end clears the hold end. -/
theorem evalIncident_of_active (active : s.ct.activeAt s.tb.e = true) :
    s.evalIncident.ct = { s.ct with incident := true } ∧ (s.ct.incident = true → s.evalIncident = s) := by
  unfold State.evalIncident
  rw [active]
  cases running : s.ct.incident
  · exact ⟨incidentBegins_ct .., nofun⟩
  · have same : s.ct = { s.ct with incident := true } := by rw [← running]
    exact ⟨same, fun _ => rfl⟩

theorem evalIncident_of_ended (ended : s.ct.activeAt s.tb.e = false) (running : s.ct.incident = true) :
    s.evalIncident = (s.onCt fun c => { c with incident := false, holdEnd := none }).incidentEnds := by
  unfold State.evalIncident
  rw [ended, running]

theorem evalIncident_of_idle (ended : s.ct.activeAt s.tb.e = false) (idle : s.ct.incident = false) : s.evalIncident = s := by
  unfold State.evalIncident
  rw [ended, idle]

theorem incidentEnds_of_other (other : s.hc.state ≠ .held) : s.incidentEnds = s := by
  unfold State.incidentEnds
  split
  · next held => exact absurd held other
  all_goals rfl

/-- The ticks held counted, at the end of HELD (R151). -/
def State.heldOver (s : State) (since : Nat) : State :=
  s.onHc fun h => { h with heldTicks := h.heldTicks + (s.tb.e - since), heldSince := none }

theorem incidentEnds_of_held {since : Nat} (held : s.hc.state = .held) (from_ : s.hc.heldSince = some since) :
    s.incidentEnds = match s.hc.resume with
      | .windowOpen rem => (s.heldOver since).resumeTo .windowOpen (.window (s.tb.e + rem))
      | .accepted rem => (s.heldOver since).resumeTo .accepted (.release (s.tb.e + rem))
      | .overrun => (s.heldOver since).resumeTo .overrun .none
      | .cutUnattended => ((s.heldOver since).onHc fun h => { h with resume := .none }).takeCut .unattended .incidentEnd s.tb.e
      | .cutAuto => ((s.heldOver since).onHc fun h => { h with resume := .none }).takeCut .auto .incidentEnd s.tb.e
      | .none => s.heldOver since := by
  have counted : (s.onHc fun h => { h with heldTicks := h.heldTicks + (s.tb.e - h.heldSince.getD s.tb.e), heldSince := none }) = s.heldOver since := by
    simp [State.onHc, State.heldOver, from_]
  unfold State.incidentEnds
  rw [held]
  cases s.hc.resume <;> simp only [counted]

theorem resumeTo_hc (x : HState) (y : HTimer) (s : State) :
    (s.resumeTo x y).hc = { s.hc with state := x, timer := y, resume := .none, queue := (s.resumeTo x y).hc.queue, tx := (s.resumeTo x y).hc.tx } :=
  State.announce_hc ..

theorem holdEnds_of_running {h : Nat} (holds : s.ct.holdEnd = some h) (due : h ≤ s.tb.e) : s.holdEnds = s.evalIncident := by
  unfold State.holdEnds
  rw [holds]
  exact if_pos due

theorem holdEnds_of_early (early : ∀ h, s.ct.holdEnd = some h → s.tb.e < h) : s.holdEnds = s := by
  unfold State.holdEnds
  split
  · rfl
  · next h holds => exact if_neg (Nat.not_le.mpr (early h holds))

theorem holdAtIncident_hc (x : Resume) (s : State) :
    (s.holdAtIncident x).hc = { s.hc with state := .held, resume := x, timer := .none, heldSince := some s.tb.e, queue := (s.holdAtIncident x).hc.queue, tx := (s.holdAtIncident x).hc.tx } :=
  State.announce_hc ..

theorem incidentBegins_of (s : State) :
    (s.hc.state = .windowOpen → s.incidentBegins = s.holdAtIncident (.windowOpen (s.hc.timer.remaining s.tb.e))) ∧
      (s.hc.state = .accepted → s.incidentBegins = s.holdAtIncident (.accepted (s.hc.timer.remaining s.tb.e))) ∧
      (s.hc.state = .overrun → s.incidentBegins = s.holdAtIncident .overrun) ∧
      (s.hc.state = .noDuty ∨ s.hc.state = .onShift ∨ s.hc.state = .held ∨ s.hc.state = .settling → s.incidentBegins = s) := by
  unfold State.incidentBegins
  refine ⟨fun state => by rw [state], fun state => by rw [state], fun state => by rw [state], fun state => ?_⟩
  rcases state with state | state | state | state <;> rw [state]

/-- The handover items after a hold that ended at the hold end (R151). -/
theorem incidentEnds_held {since : Nat} (held : s.hc.state = .held) (from_ : s.hc.heldSince = some since) :
    let t := s.incidentEnds
    let kept := fun (state : HState) (timer : HTimer) =>
      t.hc = { s.hc with state := state, timer := timer, resume := .none, heldSince := none, heldTicks := s.hc.heldTicks + (s.tb.e - since), queue := t.hc.queue, tx := t.hc.tx }
    (∀ rem, s.hc.resume = .windowOpen rem → kept .windowOpen (.window (s.tb.e + rem))) ∧
      (∀ rem, s.hc.resume = .accepted rem → kept .accepted (.release (s.tb.e + rem))) ∧
      (s.hc.resume = .overrun → kept .overrun .none) ∧
      ∀ kind, (s.hc.resume = .cutUnattended ∧ kind = CloseKind.unattended) ∨ (s.hc.resume = .cutAuto ∧ kind = CloseKind.auto) →
        t.hc.state = .settling ∧ t.hc.settleEnd = some (s.tb.e + 320) ∧
        ∃ c, t.sh.cut = some c ∧ c.kind = kind ∧ c.stamp = stampOf s.tb.vals s.tb.e ∧
          c.heldTicks = s.hc.heldTicks + (s.tb.e - since) := by
  intro t kept
  have eq : t = _ := incidentEnds_of_held held from_
  have cut : ∀ kind, t = ((s.heldOver since).onHc fun h => { h with resume := .none }).takeCut kind .incidentEnd s.tb.e →
      t.hc.state = .settling ∧ t.hc.settleEnd = some (s.tb.e + 320) ∧
      ∃ c, t.sh.cut = some c ∧ c.kind = kind ∧ c.stamp = stampOf s.tb.vals s.tb.e ∧
        c.heldTicks = s.hc.heldTicks + (s.tb.e - since) := fun kind eq => by
    rw [eq, takeCut_cut, takeCut_hc]
    exact ⟨rfl, rfl, _, rfl, rfl, rfl, rfl⟩
  refine ⟨fun rem resume => ?_, fun rem resume => ?_, fun resume => ?_, fun kind resume => ?_⟩
  · rw [resume] at eq
    exact (congrArg State.hc eq).trans ((resumeTo_hc ..).trans (by rw [eq]; rfl))
  · rw [resume] at eq
    exact (congrArg State.hc eq).trans ((resumeTo_hc ..).trans (by rw [eq]; rfl))
  · rw [resume] at eq
    exact (congrArg State.hc eq).trans ((resumeTo_hc ..).trans (by rw [eq]; rfl))
  · rcases resume with ⟨resume, rfl⟩ | ⟨resume, rfl⟩
    · rw [resume] at eq
      exact cut _ eq
    · rw [resume] at eq
      exact cut _ eq

/-- Settles O44: the hold end evaluates the incident, whose end resumes what its beginning held. -/
theorem incidentHoldsHandover : Obligations.IncidentHoldsHandover := by
  unfold Obligations.IncidentHoldsHandover
  refine ⟨fun s early => congrArg _ (holdEnds_of_early early), fun s h holds due running opened => ?_,
    fun s h holds due running closed => ?_, fun s => ?_⟩
  · have active : s.ct.activeAt s.tb.e = true := (activeAt_iff ..).mpr (.inl opened)
    exact exec_of_after ((holdEnds_of_running holds due).trans ((evalIncident_of_active active).2 running))
  · have ended : s.ct.activeAt s.tb.e = false := by
      rw [Bool.eq_false_iff, ne_eq, activeAt_iff]
      rintro (⟨g, opened⟩ | ⟨x, holds', early⟩)
      · rw [closed g] at opened
        exact nomatch opened
      · rw [holds] at holds'
        cases holds'
        omega
    let finished := s.onCt fun c => { c with incident := false, holdEnd := none }
    refine ⟨finished.incidentEnds, exec_of_after ((holdEnds_of_running holds due).trans (evalIncident_of_ended ended running)),
      incidentEnds_ct finished, fun other => ?_, fun held since from_ => ?_⟩
    · rw [incidentEnds_of_other (s := finished) other]
      exact ⟨rfl, onCt_within ..⟩
    · exact incidentEnds_held (s := finished) held from_
  · intro began
    obtain ⟨window, accepted, overrun, other⟩ := incidentBegins_of s
    have began_of : ∀ {x : Resume}, s.incidentBegins = s.holdAtIncident x → began x := fun {x} eq => by
      show s.incidentBegins.hc = _
      rw [eq]
      exact holdAtIncident_hc x s
    refine ⟨fun x state timer => began_of ?_, fun x state timer => began_of ?_, fun state => began_of (overrun state), other⟩
    · rw [window state, timer]
      rfl
    · rw [accepted state, timer]
      rfl

end Sys2Proof.Machine
end

/-! PROOF. The close of a cascade, and the trips that open or join one. -/

section
namespace Sys2Proof.Machine

variable {s t : State} {g : Group}

/-! ### The slots, the group's unit and the trip counts -/

theorem put_same (g : Group) (x : Option Cascade) (c : Cascades) : (c.put g x).slots[g] = x := by simp [Cascades.put]

theorem put_other {g g' : Group} (other : g' ≠ g) (x : Option Cascade) (c : Cascades) : (c.put g x).slots[g'] = c.slots[g'] := by
  have differ : g.val ≠ g'.val := fun h => other (Fin.ext h.symm)
  simp [Cascades.put, differ]

theorem groupUnit_of_val {u : UnitNo} (h : g.val = u.val) : groupUnit g = some u := by
  have bound : g.val < 8 := h ▸ u.isLt
  unfold groupUnit
  rw [dif_pos bound]
  exact congrArg some (Fin.ext h)

theorem groupUnit_val {u : UnitNo} (h : groupUnit g = some u) : g.val = u.val := by
  unfold groupUnit at h
  split at h
  · cases h
    rfl
  · cases h

theorem groupUnit_eight : groupUnit 8 = none := rfl

/-- The units' tallies of two states agree but for their shift sets. -/
def SameTallies (s t : State) : Prop := ∀ u : UnitNo, s.tu[u].SameTally t.tu[u]

theorem SameTallies.of_tu (h : t.tu = s.tu) : SameTallies s t := fun u => by rw [h]; rfl

theorem SameTallies.trans {u : State} (h : SameTallies s t) (k : SameTallies t u) : SameTallies s u := fun n => (h n).trans (k n)

theorem sameTallies_handoverKept (s : State) : HandoverKept (SameTallies s) where
  apart w h := h.trans (.of_tu (w.out .tu (by decide)))
  offer r _ h := h.trans (.of_tu (State.offer_tu ..))
  openingCut st h := h.trans (openingCut_sameTally st _)
  noteCut k st h := h.trans (noteCut_sameTally k st _)
  closeShift h := h.trans (closeShift_sameTally _)

theorem evalIncident_sameTallies (s : State) : SameTallies s s.evalIncident := by
  unfold State.evalIncident
  split
  · exact (sameTallies_handoverKept s).incidentBegins (s := s.onCt _) (.of_tu rfl)
  · exact (sameTallies_handoverKept s).incidentEnds (s := s.onCt _) (.of_tu rfl)
  · exact .of_tu rfl
  · exact .of_tu rfl

theorem evalIncident_slots (s : State) : s.evalIncident.ct.slots = s.ct.slots := by
  unfold State.evalIncident
  split
  · rw [incidentBegins_ct]
    rfl
  · rw [incidentEnds_ct]
    rfl
  · rfl
  · rfl

theorem evalIncident_incident (s : State) : s.evalIncident.ct.incident = s.ct.activeAt s.tb.e := by
  cases active : s.ct.activeAt s.tb.e with
  | true => rw [(evalIncident_of_active active).1]
  | false =>
    cases running : s.ct.incident with
    | true => rw [evalIncident_of_ended active running, incidentEnds_ct]; rfl
    | false => rw [evalIncident_of_idle active running, running]

/-! ### CASCADE_CLOSE (R111 to R115) -/

theorem modeAtFirstOut_of_unit {u : UnitNo} (h : g.val = u.val) (stamp : Nat) (s : State) :
    s.modeAtFirstOut g stamp = modeAt s.tu[u].history stamp := by
  unfold State.modeAtFirstOut
  rw [groupUnit_of_val h]

/-- The trip counts after the count of a close. -/
theorem countTrip_trips (g : Group) (load : Bool) (s : State) (u : UnitNo) :
    (g.val = u.val → (s.countTrip g load).tu[u].trips = (s.tu[u].trips + 1) % 4294967296 ∧
        (s.countTrip g load).tu[u].loadTrips = if load then (s.tu[u].loadTrips + 1) % 4294967296 else s.tu[u].loadTrips) ∧
      (g.val ≠ u.val → (s.countTrip g load).tu[u] = s.tu[u]) := by
  unfold State.countTrip
  refine ⟨fun own => ?_, fun other => ?_⟩
  · rw [groupUnit_of_val own]
    simp only [State.onUnit_tu]
    rw [modifyAt_self]
    exact ⟨rfl, rfl⟩
  · split
    · next v unit =>
      exact modifyAt_other _ _ _ _ fun h => other (h ▸ groupUnit_val unit)
    · rfl

theorem isLoad_iff (m : UnitMode) : isLoad m = true ↔ m = .generating ∨ m = .pumping ∨ m = .condenser := by
  cases m <;> simp [isLoad]

/-- The part up to the evaluation of the incident at a close. -/
def State.reported (g : Group) (c : Cascade) (m : Member) (s : State) : State :=
  ((((s.offer (cascadeRecord g (s.modeAtFirstOut g m.stamp) m c.members.length)).countTrip g
      (isLoad (s.modeAtFirstOut g m.stamp))).attributeCascade g m.channel m.stamp (isLoad (s.modeAtFirstOut g m.stamp))).onCt
    fun x => { x.put g none with holdEnd := laterHold x.holdEnd s.tb.e s.ml.params.tripHold })

theorem closeCascade_eq (g : Group) (c : Cascade) (m : Member) (s : State) :
    s.closeCascade g c m = (s.reported g c m).evalIncident := rfl

theorem reported_counted_within (g : Group) (c : Cascade) (m : Member) (s : State) :
    Within [.tu, .eq, .sh] s (((s.offer (cascadeRecord g (s.modeAtFirstOut g m.stamp) m c.members.length)).countTrip g
      (isLoad (s.modeAtFirstOut g m.stamp))).attributeCascade g m.channel m.stamp (isLoad (s.modeAtFirstOut g m.stamp))) :=
  ((offer_within ..).and ((countTrip_within ..).and (attributeCascade_within ..))).mono (by decide)

theorem reported_parts (g : Group) (c : Cascade) (m : Member) (s : State) :
    (s.reported g c m).hc = s.hc ∧ (s.reported g c m).tb = s.tb ∧
      (s.reported g c m).ct =
        { s.ct.put g none with holdEnd := some (max (s.ct.holdEnd.getD 0) (s.tb.e + s.ml.params.tripHold * 3840000)) } ∧
      (s.reported g c m).tu = (s.countTrip g (isLoad (s.modeAtFirstOut g m.stamp))).tu ∧
      Appended (s.offer (cascadeRecord g (s.modeAtFirstOut g m.stamp) m c.members.length)) (s.reported g c m) := by
  have counted := reported_counted_within g c m s
  have ct := counted.out .ct (by decide)
  refine ⟨counted.out .hc (by decide), counted.out .tb (by decide), ?_, ?_, ?_⟩
  · exact congrArg (fun x : Cascades => { x.put g none with holdEnd := laterHold x.holdEnd s.tb.e s.ml.params.tripHold }) ct
  · have attributed := (attributeCascade_within g m.channel m.stamp (isLoad (s.modeAtFirstOut g m.stamp))
      ((s.offer (cascadeRecord g (s.modeAtFirstOut g m.stamp) m c.members.length)).countTrip g (isLoad (s.modeAtFirstOut g m.stamp)))).out .tu
      (by decide)
    refine Eq.trans attributed ?_
    unfold State.countTrip
    split
    · rw [State.onUnit_tu, State.onUnit_tu, State.offer_tu]
    · exact State.offer_tu ..
  · refine Appended.of_within (((countTrip_within ..).and ((attributeCascade_within ..).and (onCt_within ..)))) (by decide)

/-- The incident goes on after a close: another cascade is open, or E is below the hold end (R115). -/
theorem reported_active (g : Group) (c : Cascade) (m : Member) (s : State) :
    (s.reported g c m).ct.activeAt (s.reported g c m).tb.e = true ↔
      (∃ g' : Group, g' ≠ g ∧ s.ct.slots[g'].isSome) ∨ s.tb.e < max (s.ct.holdEnd.getD 0) (s.tb.e + s.ml.params.tripHold * 3840000) := by
  obtain ⟨-, tb, ct, -⟩ := reported_parts g c m s
  rw [activeAt_iff, tb, ct]
  refine or_congr ⟨fun ⟨g', opened⟩ => ?_, fun ⟨g', other, opened⟩ => ⟨g', ?_⟩⟩ (by simp)
  · by_cases same : g' = g
    · subst same
      exact nomatch (congrArg Option.isSome (put_same g' none s.ct)).symm.trans opened
    · exact ⟨g', same, (congrArg Option.isSome (put_other same none s.ct)).symm.trans opened⟩
  · exact (congrArg Option.isSome (put_other other none s.ct)).trans opened

theorem cascadeCloses_of_open {c : Cascade} {m : Member} (opened : s.ct.slots[g] = some c) (first : c.firstOut = some m) :
    s.cascadeCloses g = if c.close ≤ s.tb.e then s.closeCascade g c m else s := by
  unfold State.cascadeCloses
  rw [opened]
  dsimp only
  rw [first]

/-- Settles O43: the close reports and counts the trip, empties the slot, and evaluates the incident. -/
theorem cascadeCloseReports : Obligations.CascadeCloseReports := by
  unfold Obligations.CascadeCloseReports
  refine fun s g => ⟨fun closed => ?_, fun c m opened first => ⟨fun early => ?_, fun due => ?_⟩⟩
  · refine exec_of_after (?_ : s.cascadeCloses g = s)
    unfold State.cascadeCloses
    rw [closed]
  · exact exec_of_after ((cascadeCloses_of_open opened first).trans (if_neg (Nat.not_le.mpr early)))
  · intro hold goesOn
    obtain ⟨hc, tb, ct, tu, appended⟩ := reported_parts g c m s
    have active := reported_active g c m s
    have tallies := evalIncident_sameTallies (s.reported g c m)
    have trips : ∀ u : UnitNo, (s.closeCascade g c m).tu[u].trips = (s.countTrip g (isLoad (s.modeAtFirstOut g m.stamp))).tu[u].trips ∧
        (s.closeCascade g c m).tu[u].loadTrips = (s.countTrip g (isLoad (s.modeAtFirstOut g m.stamp))).tu[u].loadTrips := fun u => by
      have same := tallies u
      rw [tu] at same
      exact ⟨(congrArg GenUnit.trips same :), (congrArg GenUnit.loadTrips same :)⟩
    have slots : (s.closeCascade g c m).ct.slots = (s.ct.put g none).slots := (evalIncident_slots (s.reported g c m)).trans (congrArg Cascades.slots ct :)
    have incident := evalIncident_incident (s.reported g c m)
    refine ⟨s.closeCascade g c m, s.modeAtFirstOut g m.stamp,
      exec_of_after ((cascadeCloses_of_open opened first).trans (if_pos due)),
      fun u own => modeAtFirstOut_of_unit own .., fun eight => ?_, fun room => ?_, fun u own => ?_, fun u other => ?_, ?_,
      fun g' other => ?_, fun on => ⟨?_, ?_⟩, fun ended => ?_, fun on running => ?_, (closeCascade_within ..).mono (by decide)⟩
    · subst eight
      rfl
    · exact ((State.offer_admitted (takes_a room)).append appended).append (evalIncident_appended _)
    · obtain ⟨all, load⟩ := (countTrip_trips g (isLoad (s.modeAtFirstOut g m.stamp)) s u).1 own
      rw [(trips u).1, (trips u).2, all, load]
      refine ⟨rfl, if_congr (isLoad_iff _) rfl rfl⟩
    · rw [(trips u).1, (trips u).2, (countTrip_trips g (isLoad (s.modeAtFirstOut g m.stamp)) s u).2 other]
      exact ⟨rfl, rfl⟩
    · rw [slots]
      exact put_same ..
    · rw [slots]
      exact put_other other ..
    · rw [closeCascade_eq, (evalIncident_of_active (active.mpr on)).1, ct]
    · rw [closeCascade_eq, incident]
      exact active.mpr on
    · rw [closeCascade_eq, incident]
      exact Bool.eq_false_iff.mpr fun on => ended (active.mp on)
    · rw [closeCascade_eq, (evalIncident_of_active (active.mpr on)).2 (by rw [ct]; exact running), hc]

/-! ### The first-out (R110) -/

/-- `x` comes no later than `y` in the order of first-outs: by stamp, and by channel at equal stamps. -/
def Member.notAfter (x y : Member) : Prop := x.stamp < y.stamp ∨ (x.stamp = y.stamp ∧ x.channel ≤ y.channel)

theorem earlier_notAfter (x y : Member) : (earlier x y).notAfter x ∧ (earlier x y).notAfter y := by
  unfold earlier Member.notAfter
  simp only [Fin.le_def, Fin.lt_def]
  split <;> omega

theorem Member.notAfter.trans {x y z : Member} (h : x.notAfter y) (k : y.notAfter z) : x.notAfter z := by
  unfold Member.notAfter at *
  simp only [Fin.le_def] at *
  omega

theorem foldl_earlier (l : List Member) (m : Member) :
    l.foldl earlier m ∈ m :: l ∧ ∀ n ∈ m :: l, (l.foldl earlier m).notAfter n := by
  induction l generalizing m with
  | nil => exact ⟨List.mem_singleton_self m, fun n mem => by rw [List.mem_singleton.mp mem]; exact .inr ⟨rfl, le_refl _⟩⟩
  | cons x l ih =>
    obtain ⟨mem, least⟩ := ih (earlier m x)
    obtain ⟨before, after⟩ := earlier_notAfter m x
    have first := least _ (List.mem_cons_self ..)
    rw [List.foldl_cons]
    refine ⟨?_, fun n among => ?_⟩
    · rcases List.mem_cons.mp mem with eq | rest
      · rw [eq]
        unfold earlier
        split <;> simp
      · simp [rest]
    · rcases List.mem_cons.mp among with rfl | among
      · exact first.trans before
      · rcases List.mem_cons.mp among with rfl | rest
        · exact first.trans after
        · exact least n (List.mem_cons_of_mem _ rest)

theorem firstOutOf_eq_none {l : List Member} : firstOutOf l = none ↔ l = [] := by
  cases l <;> simp [firstOutOf]

theorem firstOutOf_least {l : List Member} {m : Member} (first : firstOutOf l = some m) : m ∈ l ∧ ∀ n ∈ l, m.notAfter n := by
  cases l with
  | nil => cases first
  | cons x l =>
    cases first
    exact foldl_earlier l x

/-- The first-out does not depend on the order of joining, each channel being a member once (R109, R110). -/
theorem firstOutOf_perm {l k : List Member} (perm : l.Perm k) (once : (l.map Member.channel).Nodup) : firstOutOf l = firstOutOf k := by
  cases first : firstOutOf l with
  | none =>
    rw [firstOutOf_eq_none.mp first] at perm
    rw [List.nil_perm.mp perm]
    rfl
  | some m =>
    cases other : firstOutOf k with
    | none =>
      rw [firstOutOf_eq_none.mp other, List.perm_nil] at perm
      rw [perm] at first
      exact first.symm
    | some n =>
      obtain ⟨mem, least⟩ := firstOutOf_least first
      obtain ⟨mem', least'⟩ := firstOutOf_least other
      have one := least n (perm.mem_iff.mpr mem')
      have two := least' m (perm.mem_iff.mp mem)
      have same : m.channel = n.channel := by
        unfold Member.notAfter at one two
        rw [Fin.le_def] at one two
        exact Fin.ext (by omega)
      rw [List.inj_on_of_nodup_map once mem (perm.mem_iff.mpr mem') same]

/-! ### Opening and joining (R108, R109) -/

theorem joinMember_cases (ms : List Member) (m : Member) :
    (joinMember ms m = ms ∧ ∃ x ∈ ms, x.channel = m.channel) ∨
      (joinMember ms m = ms ++ [m] ∧ ∀ x ∈ ms, x.channel ≠ m.channel) := by
  unfold joinMember
  split
  · next known =>
    obtain ⟨x, mem, same⟩ := List.any_eq_true.mp known
    exact .inl ⟨rfl, x, mem, by simpa using same⟩
  · next new =>
    refine .inr ⟨rfl, fun x mem same => new ?_⟩
    exact List.any_eq_true.mpr ⟨x, mem, by simpa using same⟩

/-- Members that join some others: those stay first, every channel is a member once, and each is one of the two. -/
theorem foldl_joinMember (l ms : List Member) :
    ms <+: l.foldl joinMember ms ∧ (∀ x ∈ l, ∃ m ∈ l.foldl joinMember ms, m.channel = x.channel) ∧
      (∀ m ∈ l.foldl joinMember ms, m ∈ ms ∨ m ∈ l) ∧
      ((ms.map Member.channel).Nodup → ((l.foldl joinMember ms).map Member.channel).Nodup) := by
  induction l generalizing ms with
  | nil => exact ⟨List.prefix_rfl, nofun, fun m mem => .inl mem, id⟩
  | cons x l ih =>
    obtain ⟨pre, all, only, once⟩ := ih (joinMember ms x)
    rw [List.foldl_cons]
    rcases joinMember_cases ms x with ⟨eq, y, mem, same⟩ | ⟨eq, new⟩
    · rw [eq] at pre all only once ⊢
      refine ⟨pre, fun z among => ?_, fun m mem => (only m mem).imp_right (List.mem_cons_of_mem _), once⟩
      rcases List.mem_cons.mp among with rfl | among
      · exact ⟨y, pre.subset mem, same⟩
      · exact all z among
    · rw [eq] at pre all only once ⊢
      refine ⟨(List.prefix_append ..).trans pre, fun z among => ?_, fun m mem => ?_, fun distinct => once ?_⟩
      · rcases List.mem_cons.mp among with rfl | among
        · exact ⟨z, pre.subset (by simp), rfl⟩
        · exact all z among
      · rcases only m mem with old | rest
        · rcases List.mem_append.mp old with old | new
          · exact .inl old
          · exact .inr (by simp [List.mem_singleton.mp new])
        · exact .inr (List.mem_cons_of_mem _ rest)
      · rw [List.map_append, List.nodup_append]
        refine ⟨distinct, by simp, ?_⟩
        intro a among b own same
        obtain ⟨y, mem, rfl⟩ := List.mem_map.mp among
        rw [List.map_singleton, List.mem_singleton] at own
        exact new y mem (same.trans own)

theorem membersOf_map (trips : List Change) :
    (membersOf trips).map Member.channel = trips.map Change.channel ∧ (membersOf trips).map Member.stamp = trips.map Change.stamp := by
  simp [membersOf]

theorem mem_membersOf {trips : List Change} {m : Member} (h : m ∈ membersOf trips) :
    ∃ x ∈ trips, m.channel = x.channel ∧ m.stamp = x.stamp := by
  obtain ⟨x, mem, rfl⟩ := List.mem_map.mp h
  exact ⟨x, mem, rfl, rfl⟩

theorem member_of_trip {trips : List Change} {x : Change} (h : x ∈ trips) :
    ∃ m ∈ membersOf trips, m.channel = x.channel ∧ m.stamp = x.stamp :=
  ⟨_, List.mem_map_of_mem h, rfl, rfl⟩

/-- The smallest stamp of the opening trips (R108). -/
theorem earliestStamp_least {trips : List Change} (some_ : trips ≠ []) :
    (∃ x ∈ trips, earliestStamp trips = x.stamp) ∧ ∀ x ∈ trips, earliestStamp trips ≤ x.stamp := by
  unfold earliestStamp
  cases first : firstOutOf (membersOf trips) with
  | none => exact absurd (List.map_eq_nil_iff.mp (firstOutOf_eq_none.mp first)) some_
  | some m =>
    obtain ⟨mem, least⟩ := firstOutOf_least first
    obtain ⟨x, among, -, stamp⟩ := mem_membersOf mem
    refine ⟨⟨x, among, stamp⟩, fun y other => ?_⟩
    obtain ⟨n, mem', -, stamp'⟩ := member_of_trip other
    have order := least n mem'
    unfold Member.notAfter at order
    dsimp only
    omega

theorem takeTrips_of_open {c : Cascade} {trips : List Change} (some_ : trips ≠ []) (opened : s.ct.slots[g] = some c) :
    s.takeTrips g trips = s.onCt (Cascades.put g (some { c with members := (membersOf trips).foldl joinMember c.members })) := by
  unfold State.takeTrips
  rw [if_neg (by simpa using some_), opened]

/-- The state in which the opening of a cascade is evaluated (R108, R115). -/
def State.opening (g : Group) (trips : List Change) (s : State) : State :=
  s.onCt (Cascades.put g (some (openedCascade s.ml.params.cascadeWindow trips)))

theorem takeTrips_of_free {trips : List Change} (some_ : trips ≠ []) (free : s.ct.slots[g] = none) :
    (s.takeTrips g trips).ct = { (s.opening g trips).ct with incident := true } := by
  have active : (s.opening g trips).ct.activeAt (s.opening g trips).tb.e = true := by
    refine (activeAt_iff ..).mpr (.inl ⟨g, ?_⟩)
    exact congrArg Option.isSome (put_same g _ s.ct)
  have ct := (evalIncident_of_active active).1
  unfold State.takeTrips
  rw [if_neg (by simpa using some_), free]
  dsimp only
  split
  · exact ((cascadeOpened_within ..).out .ct (by decide)).trans ct
  · exact ct

/-- Settles O42: the first-out is the least member, and trips open their group's cascade or join it. -/
theorem tripsOpenCascadeWithFirstOut : Obligations.TripsOpenCascadeWithFirstOut := by
  unfold Obligations.TripsOpenCascadeWithFirstOut
  refine ⟨⟨fun c => firstOutOf_eq_none, fun c m => firstOutOf_least, fun c d => firstOutOf_perm⟩, fun s g trips some_ => ?_⟩
  intro t
  cases opened : s.ct.slots[g] with
  | none =>
    have ct : t.ct = { (s.opening g trips).ct with incident := true } := takeTrips_of_free some_ opened
    obtain ⟨⟨x, among, earliest⟩, least⟩ := earliestStamp_least some_
    obtain ⟨channels, stamps⟩ := membersOf_map trips
    rw [ct]
    refine ⟨fun g' other => put_other other .., fun _ => ?_, nofun⟩
    refine ⟨_, put_same g _ s.ct, rfl, channels, stamps, ⟨x, among, ?_⟩, fun y other => ?_, takeTrips_within ..⟩
    · rw [← earliest]
      rfl
    · have := least y other
      show earliestStamp trips + _ + _ ≤ _
      omega
  | some c =>
    have eq : t = _ := takeTrips_of_open some_ opened
    obtain ⟨pre, all, only, once⟩ := foldl_joinMember (membersOf trips) c.members
    rw [eq]
    refine ⟨fun g' other => put_other other .., nofun, fun d same => ?_⟩
    cases same
    refine ⟨_, put_same g _ s.ct, rfl, pre, fun x among => ?_, fun m mem => ?_, once, onCt_within ..⟩
    · obtain ⟨n, mem, channel, -⟩ := member_of_trip among
      obtain ⟨m, joined, same⟩ := all n mem
      exact ⟨m, joined, same.trans channel⟩
    · exact (only m mem).imp_right mem_membersOf

end Sys2Proof.Machine
end

/-! PROOF. Console messages: the answers of each state, the queue that carries them, and the statements about the messages
that are taken and refused. -/

section
namespace Sys2Proof.Machine

variable {s t v : State} {m : ConsoleMsg} {r : Refuse}

/-! ### Taken or refused (R147) -/

/-- The reason that the part refuses a message with, if any (R147). -/
def State.refusal (m : ConsoleMsg) (s : State) : Option Refuse := refusalOf s.ml.params.scheduleMode s.hc m.kind m.console

/-- A DUTY_CLAIM that is taken (R147). -/
def State.claimFrom (m : ConsoleMsg) (s : State) : State :=
  (((if s.hc.shiftOpen then s else s.takeOpeningCut m.arrival).onHc fun h =>
    { h with duty := some m.console, state := .onShift }).answer .confirm m).announce .noDuty .claim .b (m.console.val + 1)

/-- The refusal `r`, or the state `t` that a message that is taken leads to. -/
def State.refusedOr (m : ConsoleMsg) (s : State) (r : Option Refuse) (t : State) : State :=
  match r with
  | some r => s.answer (.refuse r) m
  | none => t

theorem refuseAuto_refused (k : ConsoleKind) (c : Console) (s t : State) :
    s.refuseAuto m = s.refusedOr m (refusalOf .auto s.hc k c) t := by
  unfold State.refuseAuto State.refuseMsg refusalOf
  split <;> rfl

theorem takeClaim_eq (s : State) (m : ConsoleMsg) :
    s.takeClaim m = s.refusedOr m (refusalOf s.ml.params.scheduleMode s.hc .dutyClaim m.console) (s.claimFrom m) := by
  unfold State.takeClaim
  cases mode : s.ml.params.scheduleMode with
  | auto => exact refuseAuto_refused ..
  | console =>
    unfold refusalOf
    cases state : s.hc.state with
    | held => cases duty : s.hc.duty <;> rfl
    | _ => rfl

theorem takeAccept_eq (s : State) (m : ConsoleMsg) :
    s.takeAccept m = s.refusedOr m (refusalOf s.ml.params.scheduleMode s.hc .accept m.console)
      (if s.hc.state = .accepted then s.answer .confirm m else s.acceptFrom m) := by
  unfold State.takeAccept
  cases mode : s.ml.params.scheduleMode with
  | auto => exact refuseAuto_refused ..
  | console =>
    unfold refusalOf
    cases state : s.hc.state with
    | windowOpen => by_cases own : s.hc.duty = some m.console <;> simp [own, State.refusedOr, State.refuseMsg]
    | overrun => by_cases own : s.hc.duty = some m.console <;> simp [own, State.refusedOr, State.refuseMsg]
    | accepted =>
      by_cases again : s.hc.incoming = some m.console
      · simp [again, State.refusedOr]
      · by_cases own : s.hc.duty = some m.console <;> simp [own, again, State.refusedOr, State.refuseMsg]
    | _ => rfl

theorem takeRelease_eq (s : State) (m : ConsoleMsg) :
    s.takeRelease m = s.refusedOr m (refusalOf s.ml.params.scheduleMode s.hc .release m.console) (s.releaseCut m) := by
  unfold State.takeRelease
  cases mode : s.ml.params.scheduleMode with
  | auto => exact refuseAuto_refused ..
  | console =>
    unfold refusalOf
    by_cases own : s.hc.duty = some m.console
    · cases state : s.hc.state <;> simp [own, State.refusedOr, State.refuseMsg]
    · cases state : s.hc.state <;> simp [own, State.refusedOr, State.refuseMsg]

theorem takeQuery_eq (s : State) (m : ConsoleMsg) :
    s.takeQuery m = s.refusedOr m (refusalOf s.ml.params.scheduleMode s.hc .query m.console) (s.answer .confirm m) := by
  unfold State.takeQuery
  cases mode : s.ml.params.scheduleMode with
  | auto => exact refuseAuto_refused ..
  | console =>
    unfold refusalOf
    by_cases settling : s.hc.state = .settling <;> simp [settling, State.refusedOr, State.refuseMsg]

/-- What a message that is taken does (R147). -/
def State.acted (m : ConsoleMsg) (s : State) : State :=
  match m.kind with
  | .dutyClaim => s.claimFrom m
  | .accept => if s.hc.state = .accepted then s.answer .confirm m else s.acceptFrom m
  | .release => s.releaseCut m
  | .query => s.answer .confirm m

theorem takeMessage_eq (s : State) (m : ConsoleMsg) : s.takeMessage m = s.refusedOr m (s.refusal m) (s.acted m) := by
  unfold State.takeMessage State.acted State.refusal
  cases m.kind with
  | dutyClaim => exact takeClaim_eq s m
  | accept => exact takeAccept_eq s m
  | release => exact takeRelease_eq s m
  | query => exact takeQuery_eq s m

/-- The arrived message has left its place (R144). -/
def State.heard (s : State) : State := s.onHc fun h => { h with arrived := none }

theorem after_command (k : ConsoleKind) (s : State) : s.after k.command = s.takeArrived k := by cases k <;> rfl

theorem takeArrived_of_arrived (arrived : s.hc.arrived = some m) :
    s.takeArrived m.kind = s.heard.refusedOr m (s.refusal m) (s.heard.acted m) := by
  unfold State.takeArrived
  rw [arrived]
  dsimp only
  rw [if_pos rfl]
  exact takeMessage_eq s.heard m

/-! ### The queue (R145) -/

theorem dropNotice_none {l : List DownMsg} (h : ∀ x ∈ l, x.kind ≠ .notice) : dropNotice l = none := by
  induction l with
  | nil => rfl
  | cons x l ih =>
    have other : x.isNotice = false := by simpa [DownMsg.isNotice] using h x (List.mem_cons_self ..)
    simp [dropNotice, other, ih fun y mem => h y (List.mem_cons_of_mem _ mem)]

theorem dropNotice_some {before after : List DownMsg} {x : DownMsg} (notice : x.kind = .notice) (first : ∀ y ∈ before, y.kind ≠ .notice) :
    dropNotice (before ++ x :: after) = some (before ++ after) := by
  induction before with
  | nil =>
    have is : x.isNotice = true := by simp [DownMsg.isNotice, notice]
    simp [dropNotice, is]
  | cons y l ih =>
    have other : y.isNotice = false := by simpa [DownMsg.isNotice] using first y (List.mem_cons_self ..)
    simp [dropNotice, other, ih fun z mem => first z (List.mem_cons_of_mem _ mem)]

theorem flush_of_first {e : Nat} {h : Handover} (first : ∀ x ∈ h.tx, x.frames = 1) : h.flush e = h := by
  unfold Handover.flush
  split
  · next x sending =>
    have one := first x sending
    exact if_neg fun two => by omega
  · rfl

/-- The messages of a full queue that a further one can displace: those not in transmission. -/
theorem enqueue_of_full {e : Nat} {m : DownMsg} {h : Handover} (first : ∀ x ∈ h.tx, x.frames = 1) (full : h.queue.length = 4) :
    h.enqueue e m = match dropNotice (h.queue.drop (if h.tx.isSome then 1 else 0)) with
      | some r => { h with queue := h.queue.take (if h.tx.isSome then 1 else 0) ++ r ++ [m] }
      | none => h := by
  unfold Handover.enqueue
  rw [flush_of_first first]
  exact if_neg (Nat.not_lt.mpr full.ge)

theorem enqueue_of_room {e : Nat} {m : DownMsg} {h : Handover} (first : ∀ x ∈ h.tx, x.frames = 1) (room : h.queue.length < 4) :
    h.enqueue e m = { h with queue := h.queue ++ [m] } := by
  unfold Handover.enqueue
  rw [flush_of_first first]
  exact if_pos room

/-- Settles O47: a refused message is answered and no more, and the queue displaces notices alone. -/
theorem consoleMessagesRefused : Obligations.ConsoleMessagesRefused := by
  unfold Obligations.ConsoleMessagesRefused
  refine ⟨fun s m r arrived refused => ?_, fun s k other => ?_, fun e m h few sending => ?_⟩
  · refine exec_of_after ?_
    rw [after_command, takeArrived_of_arrived arrived, show s.refusal m = some r from refused]
    rfl
  · refine exec_of_after ?_
    rw [after_command]
    unfold State.takeArrived
    cases arrived : s.hc.arrived with
    | none => rfl
    | some m => exact if_neg (other m arrived)
  · have first : ∀ x ∈ h.tx, x.frames = 1 := fun x tx => (sending x tx).1
    refine ⟨?_, Handover.enqueue_length e m few, fun room => ?_, fun full => ?_⟩
    · rcases Nat.lt_or_eq_of_le few with room | full
      · rw [enqueue_of_room first room]
      · rw [enqueue_of_full first full]
        split <;> rfl
    · rw [enqueue_of_room first room]
    · refine ⟨h.queue.take (if h.tx.isSome then 1 else 0), h.queue.drop (if h.tx.isSome then 1 else 0),
        (List.take_append_drop ..).symm, ?_, fun none => ?_, fun before x after split notice earlier => ?_⟩
      · rw [List.length_take]
        split <;> omega
      · rw [enqueue_of_full first full, dropNotice_none none]
      · rw [enqueue_of_full first full, split, dropNotice_some notice earlier]
        simp

/-! ### Messages that are taken (R144 to R147, R154, R160, R161) -/

/-- The answer to a message, with room for it. -/
theorem answer_told (k : DownKind) (free : s.hc.tx = none) (room : s.hc.queue.length < 4) :
    (s.answer k m).hc = { s.hc with queue := s.hc.queue ++ [s.hc.reply k m] } := by
  unfold State.answer
  rw [State.onHc_hc, Handover.enqueue_room free room]
  rfl

/-- A change that a message makes: it is confirmed, then told of. -/
def State.confirmed (m : ConsoleMsg) (old : HState) (c : HCause) (n : Nat) (v : State) : State :=
  (v.answer .confirm m).announce old c .b n

theorem confirmed_hc (m : ConsoleMsg) (old : HState) (c : HCause) (n : Nat) (v : State) :
    (v.confirmed m old c n).hc = { v.hc with queue := (v.confirmed m old c n).hc.queue, tx := (v.confirmed m old c n).hc.tx } := by
  refine (State.announce_hc ..).trans ?_
  rw [State.answer_hc .confirm m v]
  rfl

theorem confirmed_told (old : HState) (c : HCause) (n : Nat) (free : v.hc.tx = none) (room : v.hc.queue.length ≤ 2) :
    (v.confirmed m old c n).hc.queue =
      v.hc.queue ++ [(v.confirmed m old c n).hc.reply .confirm m, (v.confirmed m old c n).hc.noticeNow] := by
  have reply : (v.confirmed m old c n).hc.reply .confirm m = v.hc.reply .confirm m := by
    rw [confirmed_hc]
    rfl
  have notice : (v.confirmed m old c n).hc.noticeNow = v.hc.noticeNow := by
    rw [confirmed_hc]
    rfl
  rw [reply, notice]
  have answered := answer_told (s := v) (m := m) .confirm free (by omega)
  unfold State.confirmed
  rw [announce_told (by rw [answered]; exact free) (by rw [answered]; simp; omega), answered]
  simp [Handover.noticeNow]

theorem confirmed_admitted (old : HState) (c : HCause) (n : Nat) (room : v.eq.records.length < 480) :
    v.admittedNext (v.confirmed m old c n)
      (mkRecord .handover .b n (hStateCode old) (hStateCode (v.confirmed m old c n).hc.state) (hCauseCode c) v.tb.now) := by
  rw [show (v.confirmed m old c n).hc.state = v.hc.state by rw [confirmed_hc]]
  have admitted := State.announce_admitted (s := v.answer .confirm m) (old := old) (c := c) (n := n)
    (takes_b (s := v.answer .confirm m) room)
  rw [State.answer_hc] at admitted
  exact admitted.of_eq rfl

theorem confirmed_tu (m : ConsoleMsg) (old : HState) (c : HCause) (n : Nat) (v : State) : (v.confirmed m old c n).tu = v.tu :=
  State.announce_tu ..

/-- The state in which a claim is confirmed (R147, R160). -/
def State.claiming (m : ConsoleMsg) (s : State) : State :=
  (if s.hc.shiftOpen then s else s.takeOpeningCut m.arrival).onHc fun h => { h with duty := some m.console, state := .onShift }

theorem claiming_hc (m : ConsoleMsg) (s : State) :
    (s.claiming m).hc = { s.hc with duty := some m.console, state := .onShift, shiftOpen := true, missed := if s.hc.shiftOpen then s.hc.missed else 0 } := by
  unfold State.claiming
  cases opened : s.hc.shiftOpen
  · rfl
  · rw [State.onHc_hc, if_pos rfl, ← opened]
    simp [opened]

theorem claiming_eq (m : ConsoleMsg) (s : State) : (s.claiming m).eq = s.eq ∧ (s.claiming m).tb = s.tb := by
  unfold State.claiming
  split <;> exact ⟨rfl, rfl⟩

theorem claimFrom_eq (m : ConsoleMsg) (s : State) : s.claimFrom m = (s.claiming m).confirmed m .noDuty .claim (m.console.val + 1) := rfl

theorem claimFrom_opens (closed : s.hc.shiftOpen = false) :
    (∃ h, (s.claimFrom m).sh.current = some h ∧ h.start = stampOf s.tb.vals m.arrival) ∧
      (s.claimFrom m).sh.openingMissed = s.hc.missed ∧ ∀ u : UnitNo, (s.claimFrom m).tu[u].cur = ShiftSet.zero (some m.arrival) := by
  have opening : s.claiming m = (s.takeOpeningCut m.arrival).onHc fun h => { h with duty := some m.console, state := .onShift } := by
    unfold State.claiming
    rw [closed]
    rfl
  rw [claimFrom_eq, opening]
  refine ⟨?_, ?_, fun u => ?_⟩
  · unfold State.confirmed State.announce
    rw [State.notice_sh]
    obtain ⟨f, current, same⟩ := State.offer_sh_current (mkRecord .handover .b (m.console.val + 1) (hStateCode .noDuty)
      (hStateCode (State.answer .confirm m ((s.takeOpeningCut m.arrival).onHc fun h => { h with duty := some m.console, state := .onShift })).hc.state)
      (hCauseCode .claim) (State.answer .confirm m ((s.takeOpeningCut m.arrival).onHc fun h => { h with duty := some m.console, state := .onShift })).tb.now)
      (State.answer .confirm m ((s.takeOpeningCut m.arrival).onHc fun h => { h with duty := some m.console, state := .onShift }))
    exact ⟨_, current, (same _).1⟩
  · exact State.announce_sh_openingMissed ..
  · rw [confirmed_tu]
    simp [State.takeOpeningCut, State.openingCut]

/-- The console message that is taken, by its kind and state (R147). -/
theorem refusal_none_cases (taken : s.refusal m = none) :
    (m.kind = .dutyClaim → s.hc.state = .noDuty) ∧
      (m.kind = .release → s.hc.state = .accepted ∧ s.hc.duty = some m.console) := by
  unfold State.refusal refusalOf at taken
  refine ⟨fun kind => ?_, fun kind => ?_⟩
  all_goals
    rw [kind] at taken
    grind

theorem acted_claim (kind : m.kind = .dutyClaim) (s : State) :
    s.acted m = (s.claiming m).confirmed m .noDuty .claim (m.console.val + 1) := by
  unfold State.acted
  rw [kind]
  rfl

/-- The state in which an ACCEPT is confirmed (R147). -/
def State.accepting (m : ConsoleMsg) (s : State) : State :=
  s.onHc fun h => { h with incoming := some m.console, state := .accepted, timer := .release (m.arrival + s.ml.params.releaseLimit * ticksPerMinute) }

theorem acted_accept (kind : m.kind = .accept) (fresh : s.hc.state ≠ .accepted) :
    s.acted m = (s.accepting m).confirmed m s.hc.state .accept (m.console.val + 1) := by
  unfold State.acted
  rw [kind]
  exact if_neg fresh

theorem acted_still (still : m.kind = .accept ∧ s.hc.state = .accepted ∨ m.kind = .query) : s.acted m = s.answer .confirm m := by
  unfold State.acted
  rcases still with ⟨kind, state⟩ | kind
  · rw [kind]
    exact if_pos state
  · rw [kind]

theorem acted_release (kind : m.kind = .release) (s : State) :
    s.acted m = (s.makeCut (if s.hc.overrun then .late else .normal) m.arrival).confirmed m s.hc.state .release (consoleCode s.hc.duty) := by
  unfold State.acted
  rw [kind]
  rfl

/-- The message that is acted on is no longer held. -/
theorem acted_arrived (m : ConsoleMsg) (s : State) : (s.acted m).hc.arrived = s.hc.arrived := by
  have claim : (s.claiming m).hc.arrived = s.hc.arrived := by rw [claiming_hc]
  have answer : (s.answer .confirm m).hc.arrived = s.hc.arrived := by rw [State.answer_hc]
  cases kind : m.kind with
  | dutyClaim => rw [acted_claim kind, confirmed_hc, claim]
  | accept =>
    by_cases state : s.hc.state = .accepted
    · rw [acted_still (.inl ⟨kind, state⟩), answer]
    · rw [acted_accept kind state, confirmed_hc]
      rfl
  | release =>
    rw [acted_release kind, confirmed_hc]
    rfl
  | query => rw [acted_still (.inr kind), answer]

/-- Settles O46: a message that is taken acts by its kind, is confirmed, and its change is told of. -/
theorem consoleMessagesTaken : Obligations.ConsoleMessagesTaken := by
  unfold Obligations.ConsoleMessagesTaken
  intro s m arrived taken
  have taken : s.refusal m = none := taken
  have result : s.after m.kind.command = s.heard.acted m := by
    rw [after_command, takeArrived_of_arrived arrived, taken]
    rfl
  obtain ⟨claimed, released⟩ := refusal_none_cases taken
  obtain ⟨t, is⟩ : ∃ t, t = s.heard.acted m := ⟨_, rfl⟩
  refine ⟨t, exec_of_after (result.trans is.symm), is ▸ acted_arrived m s.heard, ?_, ?_⟩
  · rw [is, ← result]
    exact (after_within ..).mono (by cases m.kind <;> decide)
  · intro room told record
    refine ⟨fun kind => ?_, fun kind fresh => ?_, fun still => ?_, fun kind => ?_⟩
    · obtain rfl := is.trans (acted_claim kind s.heard)
      have hc := claiming_hc m s.heard
      obtain ⟨queue, tb⟩ := claiming_eq m s.heard
      refine ⟨?_, fun ⟨free, few⟩ => ?_, fun fits => ?_, fun opened => ?_, fun closed => claimFrom_opens (s := s.heard) closed⟩
      · exact (confirmed_hc ..).trans (by rw [hc]; rfl)
      · have answered := confirmed_told (v := s.heard.claiming m) (m := m) .noDuty .claim (m.console.val + 1)
          (by rw [hc]; exact free) (by rw [hc]; exact few)
        rwa [hc] at answered
      · have admitted := confirmed_admitted (v := s.heard.claiming m) (m := m) .noDuty .claim (m.console.val + 1)
          (by rw [queue]; exact fits)
        rw [tb] at admitted
        rw [claimed kind]
        exact admitted.of_eq queue
      · rw [confirmed_tu]
        have same : s.heard.claiming m = s.heard.onHc fun h => { h with duty := some m.console, state := .onShift } := by
          unfold State.claiming
          rw [if_pos (by exact opened)]
        rw [same]
        rfl
    · obtain rfl := is.trans (acted_accept kind fresh)
      refine ⟨confirmed_hc .., fun ⟨free, few⟩ => confirmed_told (v := s.heard.accepting m) _ _ _ free few, fun fits => ?_, confirmed_tu ..⟩
      exact (confirmed_admitted (v := s.heard.accepting m) _ _ _ fits).of_eq rfl
    · obtain rfl := is.trans (acted_still still)
      refine ⟨State.answer_hc .., fun ⟨free, few⟩ => ?_, Within.trans (t := s.heard) (onHc_within ..) (answer_within ..)⟩
      rw [answer_told (s := s.heard) .confirm free (show s.hc.queue.length < 4 by omega)]
      rfl
    · obtain ⟨state, duty⟩ := released kind
      obtain rfl := is.trans (acted_release kind s.heard)
      refine ⟨confirmed_hc .., fun ⟨free, few⟩ => confirmed_told (v := s.heard.makeCut _ m.arrival) _ _ _ free few, fun fits => ?_, ?_, ?_, fun u => ?_⟩
      · exact (confirmed_admitted (v := s.heard.makeCut _ m.arrival) _ _ _ fits).of_eq rfl
      · exact congrArg Option.isSome (State.announce_sh_closing ..)
      · refine (State.announce_sh_cut ..).trans ?_
        rw [← duty]
        rfl
      · rw [confirmed_tu]
        simp [State.makeCut, State.heard, noteCut_unit, -Fin.getElem_fin]

end Sys2Proof.Machine
end

/-! PROOF. A unit's changes of mode: what they credit, what they do to its start attempt, and the statement about both. -/

section
namespace Sys2Proof.Machine

variable {s t : State} {u : UnitNo} {x : GenUnit}

/-! ### A unit after a change of mode (R122, R129 to R131) -/

/-- A change of mode settles the attempt, its counts and those of the shift sets, and no other item. -/
theorem settle_eq (old new : UnitMode) (st : Nat) (x : GenUnit) :
    x.settle old new st =
      { x with starts := (x.settle old new st).starts, successes := (x.settle old new st).successes, failures := (x.settle old new st).failures, attempt := (x.settle old new st).attempt, cur := (x.settle old new st).cur, next := (x.settle old new st).next } := by
  unfold GenUnit.settle
  split
  · split
    · rw [succeed_eq]
    · split
      · rw [fail_eq]
      · rfl
  · split
    · split
      · rw [succeed_eq, openAttempt_eq]
      · rw [openAttempt_eq]
    · rfl

theorem settle_of_closed {old new : UnitMode} (closed : x.attempt = none)
    (stays : old ≠ .standstill ∨ new = .standstill ∨ new = .unknown) (st : Nat) : x.settle old new st = x := by
  unfold GenUnit.settle
  rw [closed]
  refine if_neg fun ⟨leaves, moves, known⟩ => ?_
  exact stays.elim (· leaves) fun stops => stops.elim moves known

theorem settle_opens {old new : UnitMode} (closed : x.attempt = none) (leaves : old = .standstill)
    (moves : new ≠ .standstill ∧ new ≠ .unknown) (st : Nat) :
    x.settle old new st = if isLoad new then (x.openAttempt st).succeed st else x.openAttempt st := by
  unfold GenUnit.settle
  rw [closed]
  exact if_pos ⟨leaves, moves⟩

theorem settle_of_open {a : Attempt} (opened : x.attempt = some a) (old new : UnitMode) (st : Nat) :
    x.settle old new st =
      if isLoad new then x.succeed st else if new = .standstill ∨ new = .unknown then x.fail st else x := by
  unfold GenUnit.settle
  rw [opened]

theorem sourceChange_of_same (same : derivedMode s u = s.tu[u].mode) (stamp : Nat) (v : StationVals) :
    s.sourceChange u stamp v = s := if_pos same

/-- The unit that a validated change of its source leaves. -/
theorem sourceChange_unit (moves : derivedMode s u ≠ s.tu[u].mode) (stamp : Nat) (v : StationVals) :
    (s.sourceChange u stamp v).tu[u] = s.tu[u].change (derivedMode s u) (max stamp s.tu[u].entry) ∧
      ∀ other : UnitNo, other ≠ u → (s.sourceChange u stamp v).tu[other] = s.tu[other] := by
  rw [sourceChange_tu, if_neg moves]
  exact ⟨modifyAt_self .., fun other differs => modifyAt_other _ _ _ _ differs.symm⟩

theorem modifyAt_get {n : Nat} (v : Vector Nat n) (i k : Fin n) (f : Nat → Nat) :
    (modifyAt v i f)[k] = if k = i then f v[k] else v[k] := by
  by_cases same : i = k
  · subst same
    rw [modifyAt_self, if_pos rfl]
  · rw [modifyAt_other v i k f same, if_neg (Ne.symm same)]

/-- The durations of the open shift after the credit of an interval (R160). -/
theorem creditShift_durations (b : Nat) (x : GenUnit) :
    (x.cur.start = none → (x.creditShift b).cur.durations = x.cur.durations) ∧
      ∀ a, x.cur.start = some a → x.next = none → ∀ k : Fin 8,
        (x.creditShift b).cur.durations[k] =
          if k = modeIdx x.mode then x.cur.durations[k] + (b - max x.entry a) else x.cur.durations[k] := by
  unfold GenUnit.creditShift
  refine ⟨fun closed => by rw [closed], fun a opened last k => ?_⟩
  rw [opened]
  dsimp only
  rw [last]
  exact modifyAt_get ..

/-- The credits, the new mode and the history of a change, which the attempt has no part in. -/
theorem change_items (new : UnitMode) (st : Nat) (x : GenUnit) :
    (x.change new st).mode = new ∧ (x.change new st).entry = st ∧ (x.change new st).history = ((new, st) :: x.history).take 4 ∧
      (x.change new st).buckets = modifyAt x.buckets (modeIdx x.mode) (· + (st - x.entry)) ∧
      (x.change new st).cur.durations = (x.creditShift st).cur.durations := by
  have durations := (settle_sameSets x.mode new st (x.enter new st)).durations
  unfold GenUnit.change
  refine ⟨?_, ?_, ?_, ?_, durations.trans (by rw [enter_eq])⟩
  all_goals rw [settle_eq, enter_eq] <;> rfl

theorem enter_attempt (new : UnitMode) (st : Nat) (x : GenUnit) :
    (x.enter new st).attempt = x.attempt ∧ (x.enter new st).starts = x.starts ∧ (x.enter new st).successes = x.successes ∧
      (x.enter new st).failures = x.failures ∧ (x.enter new st).timeout = x.timeout := by
  rw [enter_eq]
  exact ⟨rfl, rfl, rfl, rfl, rfl⟩

/-! ### The attempt's record (R131) -/

theorem failAttempt_of_open {a : Attempt} (opened : s.tu[u].attempt = some a) (reason : FailReason) (old new : UnitMode) (st : Stamp) :
    s.failAttempt u reason old new st =
      (s.onUnit u (GenUnit.fail st.elapsed)).offer (startFailRecord u reason old new st) := by
  unfold State.failAttempt
  rw [opened]

theorem failAttempt_admitted {a : Attempt} (opened : s.tu[u].attempt = some a) (reason : FailReason) (old new : UnitMode) (st : Stamp)
    (room : s.eq.records.length < 512) :
    s.admittedNext (s.failAttempt u reason old new st) (startFailRecord u reason old new st) := by
  rw [failAttempt_of_open opened]
  exact (State.offer_admitted (takes_a (s := s.onUnit u _) room)).of_eq rfl

theorem settleAttempt_of_load {a : Attempt} {old new : UnitMode} (opened : s.tu[u].attempt = some a) (load : isLoad new = true)
    (st : Nat) (v : StationVals) : s.settleAttempt u old new st v = s.onUnit u (GenUnit.succeed st) := by
  unfold State.settleAttempt
  rw [opened]
  exact if_pos load

theorem settleAttempt_of_moving {a : Attempt} {old new : UnitMode} (opened : s.tu[u].attempt = some a)
    (moving : new = .starting ∨ new = .spin ∨ new = .stopping) (st : Nat) (v : StationVals) :
    s.settleAttempt u old new st v = s := by
  unfold State.settleAttempt
  rw [opened]
  rcases moving with rfl | rfl | rfl <;> rfl

theorem settleAttempt_of_stop {a : Attempt} {old new : UnitMode} (opened : s.tu[u].attempt = some a)
    (stops : new = .standstill ∨ new = .unknown) (st : Nat) (v : StationVals) :
    s.settleAttempt u old new st v =
      s.failAttempt u (if new = .standstill then .standstill else .source) old new (stampOf v st) := by
  unfold State.settleAttempt
  rw [opened]
  rcases stops with rfl | rfl <;> rfl

/-! ### START_TIMEOUT (R131) -/

theorem startTimeout_of_open {a : Attempt} (opened : s.tu[u].attempt = some a) :
    s.startTimeout u =
      if a.expiry ≤ s.tb.e then s.failAttempt u .timeout s.tu[u].mode s.tu[u].mode (stampOf s.tb.vals a.expiry) else s := by
  unfold State.startTimeout
  rw [opened]

/-- Settles O45: a change of mode credits the old one and settles the attempt, and the timeout fails it. -/
theorem sourceChangesCreditAndCount : Obligations.SourceChangesCreditAndCount := by
  unfold Obligations.SourceChangesCreditAndCount
  refine ⟨fun s u stamp v => ?_, fun s u => ⟨fun closed => ?_, fun a opened => ⟨fun early => ?_, fun due => ?_⟩⟩⟩
  · intro x new st t y wrap
    refine ⟨fun same => sourceChange_of_same same .., fun moves => ?_⟩
    obtain ⟨unit, others⟩ := sourceChange_unit moves stamp v
    have is : y = (x.enter new st).settle x.mode new st := unit
    obtain ⟨mode, entry, history, buckets, durations⟩ := change_items new st x
    obtain ⟨closed, opened⟩ := creditShift_durations st x
    obtain ⟨attempt, starts, successes, failures, timeout⟩ := enter_attempt new st x
    have entered : (s.onUnit u (GenUnit.enter new st)).tu[u].attempt = x.attempt := by
      rw [State.onUnit_tu, modifyAt_self, attempt]
    have eq : t = (s.onUnit u (GenUnit.enter new st)).settleAttempt u x.mode new st v := if_neg moves
    rw [show y = x.change new st from unit]
    refine ⟨mode, entry, history, fun k => by rw [buckets, modifyAt_get], fun none => durations.trans (closed none),
      fun a start last k => by rw [durations]; exact opened a start last k, others, sourceChange_within ..,
      fun none stays => ?_, fun none leaves known quiet => ?_, fun none leaves load => ?_, fun a some => ?_⟩
    all_goals rw [← show y = x.change new st from unit, is]
    · rw [settle_of_closed (attempt.trans none) (stays.imp_right .inr)]
      exact ⟨attempt.trans none, starts, successes, failures⟩
    · have moved : new ≠ .standstill := fun same => moves (same.trans leaves.symm)
      rw [settle_opens (attempt.trans none) leaves ⟨moved, known⟩, quiet, if_neg nofun, openAttempt_eq]
      exact ⟨by rw [timeout], by rw [starts], successes, failures⟩
    · have moved : new ≠ .standstill ∧ new ≠ .unknown := by
        constructor <;> intro same <;> rw [same] at load <;> cases load
      rw [settle_opens (attempt.trans none) leaves moved, load, if_pos rfl, succeed_eq, openAttempt_eq]
      exact ⟨rfl, by rw [starts], by rw [successes], failures⟩
    · rw [settle_of_open (attempt.trans some)]
      have opened := entered.trans some
      refine ⟨?_, fun load => ?_, fun stops => ?_, fun moving => ?_⟩
      · split
        · rw [succeed_eq]
          exact starts
        · split
          · rw [fail_eq]
            exact starts
          · exact starts
      · rw [if_pos load, succeed_eq, eq, settleAttempt_of_load opened load]
        exact ⟨rfl, by rw [successes], failures, rfl⟩
      · have quiet : isLoad new = false := by rcases stops with same | same <;> rw [same] <;> rfl
        rw [quiet, if_neg nofun, if_pos stops, fail_eq, eq, settleAttempt_of_stop opened stops]
        refine ⟨rfl, successes, by rw [failures], fun room => ?_⟩
        have admitted := failAttempt_admitted opened (if new = .standstill then .standstill else .source) x.mode new (stampOf v st) room
        by_cases stand : new = .standstill
        · simp only [if_pos stand] at admitted ⊢
          exact admitted.of_eq rfl
        · simp only [if_neg stand] at admitted ⊢
          exact admitted.of_eq rfl
      · have quiet : isLoad new = false := by rcases moving with same | same | same <;> rw [same] <;> rfl
        have goes : ¬(new = .standstill ∨ new = .unknown) := by rcases moving with same | same | same <;> rw [same] <;> decide
        rw [quiet, if_neg nofun, if_neg goes, eq, settleAttempt_of_moving opened moving]
        exact ⟨attempt.trans some, successes, failures, rfl⟩
  · refine exec_of_after (?_ : s.startTimeout u = s)
    unfold State.startTimeout
    rw [closed]
  · exact exec_of_after ((startTimeout_of_open opened).trans (if_neg (Nat.not_le.mpr early)))
  · refine ⟨_, exec_of_after ((startTimeout_of_open opened).trans (if_pos due)), ?_⟩
    have failed : s.tu[u].failOpen a.expiry = s.tu[u].fail a.expiry := if_pos (by rw [opened]; rfl)
    have unit : (s.failAttempt u .timeout s.tu[u].mode s.tu[u].mode (stampOf s.tb.vals a.expiry)).tu[u] = s.tu[u].fail a.expiry := by
      rw [failAttempt_tu, modifyAt_self, stampOf_elapsed, failed]
    rw [unit, fail_eq]
    refine ⟨rfl, rfl, rfl, rfl, rfl, rfl, rfl, fun other differs => ?_, fun room => failAttempt_admitted opened _ _ _ _ room,
      failAttempt_within ..⟩
    rw [failAttempt_tu]
    exact modifyAt_other _ _ _ _ differs.symm

end Sys2Proof.Machine
end

/-! PROOF. The settle end: the shift record that it places, the sets that it makes current, and the state that SETTLING is left
for. -/

section
namespace Sys2Proof.Machine

variable {s : State}

/-! ### The shift record (R166, R167) -/

theorem shiftRecordOf_unit (n m : Nat) (c : CutNoted) (h : Header) (tu : Vector GenUnit 8) (u : UnitNo) :
    (shiftRecordOf n m c h tu).units[u] = shiftUnitOf tu[u] h.units[u] := by
  simp [shiftRecordOf]

theorem closingRecord_unit (c : CutNoted) (h : Header) (u : UnitNo) :
    (s.closingRecord c h).units[u] = shiftUnitOf (s.tu[u].closeInterval c.stamp.elapsed) h.units[u] := by
  unfold State.closingRecord
  rw [shiftRecordOf_unit]
  simp

theorem closeInterval_of_start {x : GenUnit} {a : Nat} (start : x.cur.start = some a) (cut : Nat) :
    x.closeInterval cut = { x with cur := x.cur.credit x.mode (cut - max x.entry a) } := by
  unfold GenUnit.closeInterval
  rw [start]

/-- Step 1 of R166 credits the current set up to the cut, and touches no count. -/
theorem closeInterval_eq (cut : Nat) (x : GenUnit) :
    x.closeInterval cut = { x with cur := { x.cur with durations := (x.closeInterval cut).cur.durations } } ∧
      ∀ a, x.cur.start = some a → ∀ k : Fin 8,
        (x.closeInterval cut).cur.durations[k] = x.cur.durations[k] + if k = modeIdx x.mode then cut - max x.entry a else 0 := by
  cases started : x.cur.start with
  | none =>
    have same : x.closeInterval cut = x := by unfold GenUnit.closeInterval; rw [started]
    exact ⟨by rw [same], nofun⟩
  | some a =>
    rw [closeInterval_of_start started]
    refine ⟨rfl, fun b same k => ?_⟩
    obtain rfl := Option.some.inj same
    refine (modifyAt_get .. : (x.cur.credit x.mode (cut - max x.entry a)).durations[k] = _).trans ?_
    split <;> rfl

theorem openAtEnd_iff (d : ShiftSet) (o : Bool) :
    openAtEnd d o = true ↔ d.successes + d.failures < d.starts + if o then 1 else 0 := by
  unfold openAtEnd
  cases o <;> exact decide_eq_true_iff

/-! ### The close and the state after it (R155, R166, R168, R169) -/

theorem closeShift_admitted {c : CutNoted} {h : Header} (cut : s.sh.cut = some c) (closing : s.sh.closing = some h)
    (room : s.eq.takes .b = true) : s.admittedNext s.closeShift (shiftClosedRecord c) := by
  have admitted := State.offer_admitted (r := shiftClosedRecord c)
    (s := { s with sh := { s.sh with ring := (s.closingRecord c h :: s.sh.ring).take 16 } }) room
  have same : s.closeShift.eq =
      (State.offer (shiftClosedRecord c) { s with sh := { s.sh with ring := (s.closingRecord c h :: s.sh.ring).take 16 } }).eq := by
    unfold State.closeShift
    rw [cut, closing] <;> rfl
  unfold State.admittedNext
  rw [same]
  exact admitted

theorem closeShift_openingMissed {c : CutNoted} {h : Header} (cut : s.sh.cut = some c) (closing : s.sh.closing = some h) :
    s.closeShift.sh.openingMissed = 0 := by
  unfold State.closeShift
  rw [cut, closing]

/-- The next set becomes the current one (R166). -/
theorem promote_of_next {x : GenUnit} {n : ShiftSet} (next : x.next = some n) (cut : Nat) :
    (x.closeInterval cut).promote cut = { x with cur := n, next := none } := by
  rw [(closeInterval_eq cut x).1]
  unfold GenUnit.promote
  rw [next]
  rfl

theorem afterSettling_eq (k : CloseKind) (incoming : Option Console) :
    afterSettling k incoming =
      (if k = .unattended then .noDuty else .onShift, if k = .unattended ∨ k = .auto then none else incoming) := by
  cases k <;> rfl

/-- Acting on a boundary touches neither the records of the ring nor the open shift's number. -/
theorem actBoundary_ring (b : BoundaryId) (r : Nat) (s : State) :
    (s.actBoundary b r).sh.ring = s.sh.ring ∧ (s.actBoundary b r).sh.number = s.sh.number := by
  have held : ∀ (x : State) (y : Resume), (x.holdAtBoundary y r).sh.ring = x.sh.ring ∧ (x.holdAtBoundary y r).sh.number = x.sh.number :=
    fun x y => by simp [State.holdAtBoundary]
  have cuts : ∀ (x : State) (k : CloseKind) (y : Resume),
      (x.cutAtBoundary k y r).sh.ring = x.sh.ring ∧ (x.cutAtBoundary k y r).sh.number = x.sh.number := fun x k y => by
    unfold State.cutAtBoundary
    split
    · exact held x y
    · simp [State.takeCut, State.makeCut, State.noteCut]
  have opens : ∀ x : State, (x.openWindow r).sh.ring = x.sh.ring ∧ (x.openWindow r).sh.number = x.sh.number := fun x => by
    unfold State.openWindow
    dsimp only
    split
    · exact held x _
    · simp
  unfold State.actBoundary
  split
  · split
    · exact cuts ..
    · exact ⟨rfl, rfl⟩
  · exact ⟨rfl, rfl⟩
  · exact opens ..
  · exact cuts ..
  · exact ⟨rfl, rfl⟩
  · exact ⟨rfl, rfl⟩
  · exact ⟨rfl, rfl⟩
  · exact opens ..
  · exact ⟨rfl, rfl⟩
  · exact ⟨rfl, rfl⟩

/-- The HC as SETTLING is left, before it tells of the change. -/
def State.settled (k : CloseKind) (s : State) : State :=
  s.onHc fun h =>
    { h with state := (afterSettling k h.incoming).1, duty := (afterSettling k h.incoming).2, incoming := none, settleEnd := none }

/-- SETTLING left, with the deferred boundary still to act. -/
def State.leaves (k : CloseKind) (s : State) : State :=
  (s.settled k).announce .settling .settled .b (consoleCode (s.settled k).hc.duty)

theorem leaveSettling_of_none (none : s.hc.deferred = none) (k : CloseKind) (x : Nat) : s.leaveSettling k x = s.leaves k := by
  unfold State.leaveSettling
  rw [none] <;> rfl

theorem leaveSettling_ring (k : CloseKind) (x : Nat) (s : State) :
    (s.leaveSettling k x).sh.ring = s.sh.ring ∧ (s.leaveSettling k x).sh.number = s.sh.number := by
  have left : (s.leaves k).sh.ring = s.sh.ring ∧ (s.leaves k).sh.number = s.sh.number := by
    simp [State.leaves, State.settled]
  cases deferred : s.hc.deferred with
  | none => rw [leaveSettling_of_none deferred]; exact left
  | some b =>
    have eq : s.leaveSettling k x = ((s.leaves k).onHc fun h => { h with deferred := none }).actBoundary b x := by
      unfold State.leaveSettling
      rw [deferred] <;> rfl
    rw [eq]
    obtain ⟨ring, number⟩ := actBoundary_ring b x ((s.leaves k).onHc fun h => { h with deferred := none })
    exact ⟨ring.trans left.1, number.trans left.2⟩

/-- Leaving SETTLING with no boundary deferred: the state, the consoles and the settle end change, and the NOTICE is queued. -/
theorem leaves_items (k : CloseKind) (s : State) :
    (s.leaves k).hc = { s.hc with state := if k = .unattended then .noDuty else .onShift, duty := if k = .unattended ∨ k = .auto then none else s.hc.incoming, incoming := none, settleEnd := none, queue := (s.leaves k).hc.queue, tx := (s.leaves k).hc.tx } ∧
      (s.leaves k).sh.cut = s.sh.cut ∧ (s.leaves k).sh.closing = s.sh.closing ∧
      (s.leaves k).sh.openingMissed = s.sh.openingMissed ∧ (s.leaves k).tu = s.tu ∧ Within [.hc, .eq, .sh] s (s.leaves k) := by
  have within : Within [.hc, .eq, .sh] s (s.leaves k) :=
    Within.trans (t := s.settled k) ((onHc_within ..).mono (by decide)) (announce_within ..)
  refine ⟨(State.announce_hc .settling .settled .b _ (s.settled k)).trans ?_, ?_, ?_, ?_, within.out .tu (by decide), within⟩
  · show { (s.settled k).hc with queue := (s.leaves k).hc.queue, tx := (s.leaves k).hc.tx } = _
    generalize (s.leaves k).hc = told
    simp only [State.settled, State.onHc_hc, afterSettling_eq]
  all_goals simp [State.leaves, State.settled]

theorem settleEnds_of {x : Nat} {c : CutNoted} (state : s.hc.state = .settling) (settle : s.hc.settleEnd = some x)
    (cut : s.sh.cut = some c) : s.settleEnds = if x ≤ s.tb.e then s.closeShift.leaveSettling c.kind x else s := by
  unfold State.settleEnds
  rw [state, settle, cut]

/-- Settles O49: the shift closes, which places its record, and SETTLING is left, which touches neither the ring nor the number
even where a deferred boundary acts. -/
theorem settleEndClosesShift : Obligations.SettleEndClosesShift := by
  intro s x c h state settle cut closing
  have ends := settleEnds_of state settle cut
  refine ⟨fun early => exec_of_after (ends.trans (if_neg (Nat.not_le.mpr early))), fun due => ?_⟩
  obtain ⟨ring, number, noClosing, noCut, -⟩ := closeShift_sh cut closing
  obtain ⟨ringLeft, numberLeft⟩ := leaveSettling_ring c.kind x s.closeShift
  have hc : s.closeShift.hc = s.hc := (closeShift_within s).out .hc (by decide)
  refine ⟨_, s.closingRecord c h, exec_of_after (ends.trans (if_pos due)), ringLeft.trans ring, numberLeft.trans number,
    rfl, rfl, rfl, rfl, rfl, rfl, rfl, rfl, rfl, rfl, rfl, rfl, rfl, rfl, rfl, fun u => ?_, fun room => ?_, fun none => ?_⟩
  · obtain ⟨credited, durations⟩ := closeInterval_eq c.stamp.elapsed s.tu[u]
    rw [closingRecord_unit]
    refine ⟨?_, ?_, ?_, rfl, rfl, rfl, ?_, durations⟩
    · rw [credited]; rfl
    · rw [credited]; rfl
    · rw [credited]; rfl
    · rw [credited]; exact openAtEnd_iff ..
  · exact (closeShift_admitted cut closing (takes_b room)).append (leaveSettling_appended ..)
  · rw [leaveSettling_of_none (by rw [hc]; exact none)]
    obtain ⟨left, cutLeft, closingLeft, missedLeft, tu, within⟩ := leaves_items c.kind s.closeShift
    refine ⟨cutLeft.trans noCut, closingLeft.trans noClosing, missedLeft.trans (closeShift_openingMissed cut closing), ?_,
      fun u n next => ?_, ((closeShift_within s).mono (by decide)).trans (within.mono (by decide))⟩
    · rw [hc] at left; exact left
    · rw [tu, closeShift_unit cut closing, promote_of_next next]

end Sys2Proof.Machine
end

/-! The numbers that octets spell, and how a command executes its request. -/

section
namespace Sys2Proof.Machine

variable {s t : State} {c : Instr} {req reply l r : List Octet}

/-! ### Numbers in octets (chapter 11) -/

theorem natOf_cons (o : Octet) (l : List Octet) : natOf (o :: l) = o.toNat * 256 ^ l.length + natOf l := by
  induction l using List.reverseRecOn with
  | nil => simp [natOf]
  | append_singleton l x ih =>
    rw [← List.cons_append, natOf_append_singleton, natOf_append_singleton, ih, List.length_append, List.length_singleton, pow_succ]
    ring

/-- Octets spell back the number they were made from, modulo what they can carry. -/
theorem natOf_wordOctets (k n : Nat) : natOf (wordOctets k n) = n % 256 ^ k := by
  induction k with
  | zero => rw [pow_zero, Nat.mod_one]; rfl
  | succ k ih =>
    show natOf (octetOf (n / 256 ^ k) :: wordOctets k n) = _
    rw [natOf_cons, wordOctets_length, ih, Nat.mod_pow_succ, octetOf, BitVec.toNat_ofNat]
    ring

theorem natOf_natOctets {k n : Nat} (fits : n < 256 ^ k) : natOf (natOctets k n) = n := by
  unfold natOctets
  rw [natOf_wordOctets, Nat.mod_eq_of_lt] <;> omega

theorem natOctets_one {n : Nat} (fits : n < 256) : natOctets 1 n = [BitVec.ofNat 8 n] := by
  unfold natOctets
  rw [show min n (256 ^ 1 - 1) = n by omega]
  show [octetOf (n / 256 ^ 0)] = _
  rw [pow_zero, Nat.div_one]
  rfl

theorem natOctets_toNat (o : Octet) : natOctets 1 o.toNat = [o] := by
  rw [natOctets_one o.isLt, BitVec.ofNat_toNat, BitVec.setWidth_eq]

/-! ### Fields of a request (11.5) -/

@[simp] theorem fieldAt_succ (o : Octet) (l : List Octet) (i n : Nat) : fieldAt (o :: l) (i + 1) n = fieldAt l i n := rfl

@[simp] theorem fieldAt_first (o : Octet) (l : List Octet) : fieldAt (o :: l) 0 1 = o.toNat := by
  simp [fieldAt, natOf]

theorem fieldAt_append_left {i n : Nat} (inside : i + n ≤ l.length) : fieldAt (l ++ r) i n = fieldAt l i n := by
  unfold fieldAt
  rw [List.drop_append_of_le_length (by omega), List.take_append_of_le_length (by rw [List.length_drop]; omega)]

theorem fieldAt_append_right {i n : Nat} (behind : l.length ≤ i) : fieldAt (l ++ r) i n = fieldAt r (i - l.length) n := by
  unfold fieldAt
  rw [List.drop_append, List.drop_of_length_le behind, List.nil_append]

theorem fieldAt_whole {n : Nat} (length : l.length = n) : fieldAt l 0 n = natOf l := by
  unfold fieldAt
  rw [List.drop_zero, List.take_of_length_le (Nat.le_of_eq length)]

theorem kindOf_cons (k : Octet) (l : List Octet) : kindOf (k :: l) = k.toNat := fieldAt_first k l

theorem hasKind_cons (n : Nat) (k : Octet) (l : List Octet) : hasKind n (k :: l) = (k.toNat == n) :=
  congrArg (· == n) (kindOf_cons k l)

/-! ### A 32-bit number (11.5) -/

theorem octets32_eq (v : BitVec 32) : octets32 v = wordOctets 4 v.toNat := by
  have octet : ∀ k, v.extractLsb' (8 * k) 8 = octetOf (v.toNat / 256 ^ k) := fun k => by
    unfold octetOf BitVec.extractLsb'
    rw [Nat.shiftRight_eq_div_pow, pow_mul]
    rfl
  exact congrArg₂ _ (octet 3) (congrArg₂ _ (octet 2) (congrArg₂ _ (octet 1) (congrArg₂ _ (octet 0) rfl)))

theorem natOf_octets32 (v : BitVec 32) : natOf (octets32 v) = v.toNat := by
  rw [octets32_eq, natOf_wordOctets]
  exact Nat.mod_eq_of_lt v.isLt

theorem intOctets_four {x : Int} (low : -2147483648 ≤ x) (high : x < 2147483648) :
    intOctets 4 x = octets32 (BitVec.ofInt 32 x) := by
  rw [octets32_eq, BitVec.toNat_ofInt]
  unfold intOctets clampInt
  dsimp only
  congr 2
  norm_num
  omega

theorem signedAt_writeRequest (n : Nat) (v : BitVec 32) : signedAt (writeRequest n v) 2 = v.toInt := by
  have field : fieldAt (writeRequest n v) 2 4 = v.toNat := (fieldAt_whole rfl).trans (natOf_octets32 v)
  unfold signedAt
  rw [field, BitVec.toInt_eq_toNat_cond]
  dsimp only
  have := v.isLt
  split <;> split <;> omega

theorem paramFields_eq {n : Nat} (small : n < 20) {x : Int} (low : -2147483648 ≤ x) (high : x < 2147483648) :
    paramFields n x = BitVec.ofNat 8 n :: octets32 (BitVec.ofInt 32 x) := by
  unfold paramFields
  rw [natOctets_one (by omega), intOctets_four low high]
  rfl

/-! ### A command and its request (R177, R178) -/

theorem replied_eq (req reply : List Octet) (s : State) : s.onMl (MgmtLink.answered req reply s.tb.e) = s.replied req reply := rfl

/-- A command of a request kind executes the request that stands in the buffer. -/
theorem exec_request {mine : List Octet → Bool} {act : List Octet → State → Executed} (runs : s.after c = s.runRequest mine act)
    (requested : s.requested req) (own : mine req = true) (done : act req s = (t, reply)) (e : t.tb.e = s.tb.e) :
    exec c s = .next (t.replied req reply) := by
  refine exec_of_after (runs.trans ?_)
  unfold State.runRequest
  rw [(executable_iff mine s req).mpr ⟨requested, own⟩]
  dsimp only
  rw [done, ← e]
  rfl

theorem exec_refused {mine : List Octet → Bool} {act : List Octet → State → Executed} (runs : s.after c = s.runRequest mine act)
    (requested : s.requested req) (own : mine req = true) (result : Result) (done : act req s = refuse req result s) :
    exec c s = .next (s.replied req (resultOctets req result)) :=
  exec_request runs requested own done rfl

/-- A command without a request of its own does nothing. -/
theorem exec_idle {mine : List Octet → Bool} {act : List Octet → State → Executed} (runs : s.after c = s.runRequest mine act)
    (none : ∀ req, s.requested req → mine req = false) : exec c s = .next s := by
  refine exec_of_after (runs.trans ?_)
  unfold State.runRequest
  cases own : s.executable mine with
  | none => rfl
  | some req =>
    obtain ⟨requested, own⟩ := (executable_iff mine s req).mp own
    rw [none req requested] at own
    cases own

theorem withLength_of {n : Nat} {act : List Octet → State → Executed} (length : req.length = n) (s : State) :
    withLength n act req s = act req s :=
  if_pos length

theorem withLength_of_other {n : Nat} {act : List Octet → State → Executed} (length : req.length ≠ n) (s : State) :
    withLength n act req s = refuse req .badLength s :=
  if_neg length

/-! ### Written parameters (R179, R180) -/

section
variable {α : Type} {n : Nat} {value : Int → Option α} {code : α → Int} {allowed : α → State → Bool} {effect : α → State → State}
  {v : BitVec 32}

theorem namesParam_writeRequest (small : n < 20) (v : BitVec 32) : namesParam n (writeRequest n v) = true := by
  have names : fieldAt (writeRequest n v) 1 1 = n := by
    show fieldAt (BitVec.ofNat 8 n :: _) 0 1 = n
    rw [fieldAt_first, BitVec.toNat_ofNat]
    omega
  unfold namesParam
  rw [names]
  simp [writeRequest, kindOf_cons]

theorem writeParam_writeRequest (small : n < 20) (v : BitVec 32) (s : State) :
    withLength 6 (writeParam n value code allowed effect) (writeRequest n v) s =
      match value v.toInt with
      | none => refuse (writeRequest n v) .badIndex s
      | some x =>
        if allowed x s then accept (writeRequest n v) (paramFields n (code x)) (effect x s)
        else refuse (writeRequest n v) .refusedState s := by
  have names : fieldAt (writeRequest n v) 1 1 = n := by
    show fieldAt (BitVec.ofNat 8 n :: _) 0 1 = n
    rw [fieldAt_first, BitVec.toNat_ofNat]
    omega
  rw [withLength_of (n := 6) (req := writeRequest n v) rfl]
  unfold writeParam
  rw [signedAt_writeRequest, names, if_neg (fun h => h rfl)] <;> rfl

/-- A value that is taken: its effect, and the reply with the value applied. -/
theorem exec_param {x : α} (runs : s.after c = s.paramCommand n value code allowed effect) (small : n < 20)
    (requested : s.requested (writeRequest n v)) (taken : value v.toInt = some x) (may : allowed x s = true)
    (e : (effect x s).tb.e = s.tb.e) (low : -2147483648 ≤ code x) (high : code x < 2147483648) :
    exec c s = .next ((effect x s).replied (writeRequest n v) (writeReply n (code x))) := by
  refine exec_request runs requested (namesParam_writeRequest small v) ?_ e
  rw [writeParam_writeRequest small]
  simp only [taken, may, if_true, accept, paramFields_eq small low high]
  rfl

theorem exec_param_of_none (runs : s.after c = s.paramCommand n value code allowed effect) (small : n < 20)
    (requested : s.requested (writeRequest n v)) (out : value v.toInt = none) :
    exec c s = .next (s.replied (writeRequest n v) [0x10#8, 0x03#8]) := by
  refine exec_request runs requested (namesParam_writeRequest small v) ?_ rfl
  rw [writeParam_writeRequest small]
  simp only [out]
  rfl

theorem exec_param_of_state {x : α} (runs : s.after c = s.paramCommand n value code allowed effect) (small : n < 20)
    (requested : s.requested (writeRequest n v)) (taken : value v.toInt = some x) (may : allowed x s = false) :
    exec c s = .next (s.replied (writeRequest n v) [0x10#8, 0x04#8]) := by
  refine exec_request runs requested (namesParam_writeRequest small v) ?_ rfl
  rw [writeParam_writeRequest small]
  simp only [taken, may]
  rfl

end

/-- A numeric parameter: clamped, and its effect taken in every state. -/
theorem exec_number {n lo hi : Nat} {effect : Nat → State → State} {v : BitVec 32} (runs : s.after c = s.numberCommand n lo hi effect)
    (small : n < 20) (range : lo ≤ hi) (top : hi < 2147483648) (requested : s.requested (writeRequest n v))
    (e : ∀ k, (effect k s).tb.e = s.tb.e) :
    exec c s = .next ((effect (max (lo : Int) (min hi v.toInt)).toNat s).replied (writeRequest n v)
      (writeReply n (max (lo : Int) (min hi v.toInt)))) := by
  have done := exec_param runs small requested rfl rfl (e _) (by omega) (by unfold clampInt; omega)
  rwa [Int.toNat_of_nonneg (by unfold clampInt; omega)] at done

theorem writesNumber {n lo hi : Nat} {f : Nat → Params → Params}
    (runs : ∀ s : State, s.after c = s.numberCommand n lo hi fun v => State.onParams (f v)) (small : n < 20) (range : lo ≤ hi)
    (top : hi < 2147483648) : WritesNumber c n lo hi f :=
  fun s _ requested => exec_number (runs s) small range top requested fun _ => rfl

/-- The three outcomes of an off-and-on value. -/
theorem onOff_toInt (v : BitVec 32) :
    (v = 0#32 → onOff v.toInt = some false) ∧ (v = 1#32 → onOff v.toInt = some true) ∧
      (v ≠ 0#32 → v ≠ 1#32 → onOff v.toInt = none) := by
  refine ⟨fun h => by rw [h]; rfl, fun h => by rw [h]; rfl, fun off on => ?_⟩
  have zero : v.toInt ≠ 0 := fun h => off (BitVec.eq_of_toInt_eq h)
  have one : v.toInt ≠ 1 := fun h => on (BitVec.eq_of_toInt_eq h)
  unfold onOff
  rw [if_neg zero, if_neg one]

theorem writesFlag {n : Nat} {f : Bool → State → State}
    (runs : ∀ s : State, s.after c = s.paramCommand n onOff (fun v => boolCode v) (fun _ _ => true) f) (small : n < 20)
    (e : ∀ b (s : State), (f b s).tb.e = s.tb.e) : WritesFlag c n f := by
  intro s v requested
  obtain ⟨off, on, out⟩ := onOff_toInt v
  have coded : ∀ b, onOff v.toInt = some b → exec c s = .next ((f b s).replied (writeRequest n v) (writeReply n (boolCode b))) :=
    fun b taken => exec_param (x := b) (code := fun v => boolCode v) (effect := f) (runs s) small requested taken rfl (e b s)
      (by cases b <;> decide) (by cases b <;> decide)
  have zero : ((boolCode false : Nat) : Int) = 0 := rfl
  have one : ((boolCode true : Nat) : Int) = 1 := rfl
  exact ⟨fun h => zero ▸ coded false (off h), fun h => one ▸ coded true (on h), fun h h' => exec_param_of_none (runs s) small requested (out h h')⟩

/-- Settles O53: each of these commands stores the clamped or off-and-on value in the parameter set and does nothing else. -/
theorem numericParametersWritten : Obligations.NumericParametersWritten :=
  ⟨writesNumber (fun _ => rfl) (by decide) (by decide) (by decide), writesNumber (fun _ => rfl) (by decide) (by decide) (by decide),
    writesNumber (fun _ => rfl) (by decide) (by decide) (by decide), writesNumber (fun _ => rfl) (by decide) (by decide) (by decide),
    writesNumber (fun _ => rfl) (by decide) (by decide) (by decide), writesNumber (fun _ => rfl) (by decide) (by decide) (by decide),
    writesNumber (fun _ => rfl) (by decide) (by decide) (by decide), writesFlag (fun _ => rfl) (by decide) fun _ _ => rfl,
    writesFlag (fun _ => rfl) (by decide) fun _ _ => rfl, writesNumber (fun _ => rfl) (by decide) (by decide) (by decide),
    writesNumber (fun _ => rfl) (by decide) (by decide) (by decide), writesNumber (fun _ => rfl) (by decide) (by decide) (by decide),
    writesNumber (fun _ => rfl) (by decide) (by decide) (by decide), writesNumber (fun _ => rfl) (by decide) (by decide) (by decide)⟩

end Sys2Proof.Machine
end

/-! PROOF. Refused requests: each request acts by its own command, and what its checks refuse changes nothing (R177, R178). -/

section
namespace Sys2Proof.Machine

variable {s : State} {c : Instr} {req l : List Octet} {k : Octet}

/-! ### What makes a request a command's own (R177) -/

/-- The command executes the requests that `mine` selects, which all begin with the octet `k`. -/
def Owns (c : Instr) (k : Octet) : Prop :=
  ∃ mine act, (∀ s : State, s.after c = s.runRequest mine act) ∧ ∀ req, mine req = true → req.head? = some k

/-- The command executes the requests of a kind, which have one length. -/
def RunsKind (c : Instr) (k : Octet) (n : Nat) : Prop :=
  k ≠ 0#8 ∧ ∃ act, ∀ s : State, s.after c = s.runRequest (hasKind k.toNat) (withLength n act)

/-- The command writes parameter `n`. -/
def RunsParam (c : Instr) (n : Nat) : Prop :=
  ∃ (α : Type) (value : Int → Option α) (code : α → Int) (allowed : α → State → Bool) (effect : α → State → State),
    n < 20 ∧ ∀ s : State, s.after c = s.paramCommand n value code allowed effect

/-- The command takes the TRIM_SEARCH requests of an action. -/
def RunsSearch (c : Instr) (n : Nat) : Prop :=
  ∃ act : List Octet → State → Executed, (∀ s : State, s.after c = s.runRequest (namesSearch n) (withLength 2 act)) ∧
    (n = 1 ∨ n = 2) ∧ ∀ req s, fieldAt req 1 1 ≠ n → act req s = refuse req .badIndex s

theorem head_of_kind (known : k ≠ 0#8) (kind : kindOf req = k.toNat) : req.head? = some k := by
  cases req with
  | nil => exact absurd (BitVec.eq_of_toNat_eq kind.symm) known
  | cons o l => rw [kindOf_cons] at kind; exact congrArg _ (BitVec.eq_of_toNat_eq kind)

theorem RunsKind.owns {n : Nat} (runs : RunsKind c k n) : Owns c k := by
  obtain ⟨known, act, runs⟩ := runs
  exact ⟨_, _, runs, fun req own => head_of_kind known (eq_of_beq own)⟩

theorem RunsParam.owns {n : Nat} (runs : RunsParam c n) : Owns c 0x10#8 := by
  obtain ⟨α, value, code, allowed, effect, -, runs⟩ := runs
  exact ⟨_, _, runs, fun req own => head_of_kind (by decide) (eq_of_beq (Bool.and_eq_true_iff.mp own).1)⟩

theorem RunsSearch.owns {n : Nat} (runs : RunsSearch c n) : Owns c 0x50#8 := by
  obtain ⟨act, runs, -, -⟩ := runs
  exact ⟨_, _, runs, fun req own => head_of_kind (by decide) (eq_of_beq (Bool.and_eq_true_iff.mp own).1)⟩

/-- A command does nothing without a request, between frame boundaries, and for a request of another kind. -/
theorem Owns.idle (owns : Owns c k) (s : State) :
    ((∀ req, s.ml.request ≠ .complete req) ∨ s.tb.e % 16 ≠ 0 → exec c s = .next s) ∧
      ∀ req, s.ml.request = .complete req → req.head? ≠ some k → exec c s = .next s := by
  obtain ⟨mine, act, runs, own⟩ := owns
  refine ⟨fun idle => exec_idle (runs s) fun req requested => ?_, fun req stands other => exec_idle (runs s) fun r requested => ?_⟩
  · exact idle.elim (fun empty => absurd requested.1 (empty req)) fun off => absurd requested.2 off
  · obtain rfl : req = r := RequestBuffer.complete.inj (stands.symm.trans requested.1)
    exact Bool.eq_false_iff.mpr fun mine => other (own req mine)

/-! ### Wrong lengths and names (R178) -/

theorem RunsKind.badLength {n : Nat} (runs : RunsKind c k n) (requested : s.requested (k :: l)) (length : l.length + 1 ≠ n) :
    exec c s = .next (s.replied (k :: l) [k, 0x02#8]) := by
  obtain ⟨-, act, runs⟩ := runs
  exact exec_refused (runs s) requested (by rw [hasKind_cons]; exact beq_self_eq_true _) .badLength
    (withLength_of_other (req := k :: l) length s)

theorem namesParam_cons (n : Nat) (l : List Octet) :
    namesParam n (0x10#8 :: l) = true ↔ ∀ k ∈ l.head?, k.toNat = n ∨ 20 ≤ k.toNat := by
  unfold namesParam
  cases l with
  | nil => simp [kindOf_cons]
  | cons k l => simp [kindOf_cons, Nat.succ_le_iff]

theorem namesSearch_cons (n : Nat) (l : List Octet) :
    namesSearch n (0x50#8 :: l) = true ↔ ∀ k ∈ l.head?, k.toNat = n ∨ (k ≠ 0x01#8 ∧ k ≠ 0x02#8) := by
  unfold namesSearch
  cases l with
  | nil => simp [kindOf_cons]
  | cons k l =>
    simp only [List.head?_cons, Option.mem_def, Option.some.injEq, forall_eq']
    simp [kindOf_cons, BitVec.toNat_eq]

theorem RunsParam.refuses {n : Nat} (runs : RunsParam c n) (requested : s.requested (0x10#8 :: l)) :
    let mine := ∀ k ∈ l.head?, k.toNat = n ∨ 20 ≤ k.toNat
    (¬ mine → exec c s = .next s) ∧
      (mine → l.length ≠ 5 → exec c s = .next (s.replied (0x10#8 :: l) [0x10#8, 0x02#8])) ∧
      ∀ k v, l = k :: v → v.length = 4 → 20 ≤ k.toNat → exec c s = .next (s.replied (0x10#8 :: l) [0x10#8, 0x03#8]) := by
  obtain ⟨α, value, code, allowed, effect, small, runs⟩ := runs
  refine ⟨fun other => exec_idle (runs s) fun req own => ?_, fun mine length => ?_, fun k v shape length above => ?_⟩
  · obtain rfl := RequestBuffer.complete.inj (requested.1.symm.trans own.1)
    exact Bool.eq_false_iff.mpr fun mine => other ((namesParam_cons n l).mp mine)
  · exact exec_refused (runs s) requested ((namesParam_cons n l).mpr mine) .badLength
      (withLength_of_other (by simpa using length) s)
  · subst shape
    refine exec_refused (runs s) requested ((namesParam_cons n _).mpr fun j first => .inr ?_) .badIndex ?_
    · obtain rfl : k = j := Option.some.inj first
      exact above
    · refine (withLength_of (by simpa using length) s).trans (if_pos ?_)
      rw [fieldAt_succ, fieldAt_first]
      omega

theorem RunsSearch.refuses {n : Nat} (runs : RunsSearch c n) (requested : s.requested (0x50#8 :: l)) :
    let mine := ∀ k ∈ l.head?, k.toNat = n ∨ (k ≠ 0x01#8 ∧ k ≠ 0x02#8)
    (¬ mine → exec c s = .next s) ∧
      (mine → l.length ≠ 1 → exec c s = .next (s.replied (0x50#8 :: l) [0x50#8, 0x02#8])) ∧
      ∀ k, l = [k] → k ≠ 0x01#8 → k ≠ 0x02#8 → exec c s = .next (s.replied (0x50#8 :: l) [0x50#8, 0x03#8]) := by
  obtain ⟨act, runs, action, refuses⟩ := runs
  refine ⟨fun other => exec_idle (runs s) fun req own => ?_, fun mine length => ?_, fun k shape start abort => ?_⟩
  · obtain rfl := RequestBuffer.complete.inj (requested.1.symm.trans own.1)
    exact Bool.eq_false_iff.mpr fun mine => other ((namesSearch_cons n l).mp mine)
  · exact exec_refused (runs s) requested ((namesSearch_cons n l).mpr mine) .badLength
      (withLength_of_other (by simpa using length) s)
  · subst shape
    refine exec_refused (runs s) requested ((namesSearch_cons n _).mpr fun j first => .inr ?_) .badIndex ?_
    · obtain rfl : k = j := Option.some.inj first
      exact ⟨start, abort⟩
    · refine (withLength_of rfl s).trans (refuses _ s fun named => ?_)
      rw [fieldAt_succ, fieldAt_first] at named
      rcases action with rfl | rfl
      · exact start (BitVec.eq_of_toNat_eq named)
      · exact abort (BitVec.eq_of_toNat_eq named)

/-! ### Indices, flags, roles, groups and modes out of range (R84, R119, R127, R128, R170) -/

theorem fieldAt_get {i : Nat} (inside : i < l.length) : fieldAt l i 1 = l[i].toNat := by
  induction l generalizing i with
  | nil => cases inside
  | cons o l ih =>
    cases i with
    | zero => exact fieldAt_first ..
    | succ i => exact ih (Nat.lt_of_succ_lt_succ inside)

theorem flagOfNat_of_out : ∀ {n : Nat}, 2 ≤ n → flagOfNat n = none
  | _ + 2, _ => rfl

theorem roleOfNat_of_out : ∀ {n : Nat}, 5 ≤ n → roleOfNat n = none
  | _ + 5, _ => rfl

theorem modeOfNat_of_out : ∀ {n : Nat}, 8 ≤ n → modeOfNat n = none
  | _ + 8, _ => rfl

theorem entryOf_of_out {i : Nat} (out : 2 ≤ fieldAt l i 1 ∨ 5 ≤ fieldAt l (i + 1) 1 ∨ 9 ≤ fieldAt l (i + 2) 1) :
    entryOf l i = none := by
  unfold entryOf
  rcases out with out | out | out
  · rw [flagOfNat_of_out out]
  · rw [roleOfNat_of_out out]
    cases flagOfNat (fieldAt l i 1) <;> rfl
  · split
    · exact dif_neg (Nat.not_lt.mpr out)
    · rfl

theorem modeMapOf_of_out {i j : Nat} (inside : j < 16) (out : 8 ≤ fieldAt l (i + j) 1) : modeMapOf l i = none := by
  refine if_neg fun named => ?_
  have one := List.all_eq_true.mp named j (List.mem_range.mpr inside)
  rw [modeOfNat_of_out out] at one
  cases one

theorem writeChannel_of_out {set rest : List Octet} {on role g : Octet} (length : set.length = 4)
    (out : 2 ≤ on.toNat ∨ 5 ≤ role.toNat ∨ 9 ≤ g.toNat) (s : State) :
    writeChannel ([0x20#8] ++ set ++ [on, role, g] ++ rest) s = refuse ([0x20#8] ++ set ++ [on, role, g] ++ rest) .badIndex s := by
  obtain ⟨a, b, c, d, rfl⟩ : ∃ a b c d, set = [a, b, c, d] := by
    match set, length with
    | [a, b, c, d], _ => exact ⟨a, b, c, d, rfl⟩
  have none : entryOf ([0x20#8] ++ [a, b, c, d] ++ [on, role, g] ++ rest) 5 = none :=
    entryOf_of_out (by simpa [fieldAt_get] using out)
  unfold writeChannel
  dsimp only
  rw [none]

theorem writeUnit_of_out {unit on : Octet} {map timeout : List Octet} (length : map.length = 16)
    (out : 8 ≤ unit.toNat ∨ 2 ≤ on.toNat ∨ ∃ m ∈ map, 8 ≤ m.toNat) (s : State) :
    writeUnit ([0x30#8, unit, on] ++ map ++ timeout) s = refuse ([0x30#8, unit, on] ++ map ++ timeout) .badIndex s := by
  unfold writeUnit
  rcases out with out | out | ⟨m, mem, out⟩
  · have none : unitOfNat (fieldAt ([0x30#8, unit, on] ++ map ++ timeout) 1 1) = none :=
      dif_neg (by simpa [fieldAt_get] using out)
    rw [none]
  · have none : flagOfNat (fieldAt ([0x30#8, unit, on] ++ map ++ timeout) 2 1) = none :=
      flagOfNat_of_out (by simpa [fieldAt_get] using out)
    split
    · next named _ => rw [none] at named; cases named
    · rfl
  · obtain ⟨j, inside, rfl⟩ := List.getElem_of_mem mem
    have field : fieldAt ([0x30#8, unit, on] ++ map ++ timeout) (3 + j) 1 = map[j].toNat := by
      rw [fieldAt_append_left (by simp; omega), fieldAt_append_right (by simp), fieldAt_get (by simpa using inside)]
      simp
    have none : modeMapOf ([0x30#8, unit, on] ++ map ++ timeout) 3 = none :=
      modeMapOf_of_out (length ▸ inside) (by rw [field]; exact out)
    split
    · next named => rw [none] at named; cases named
    · rfl

theorem presetTally_of_out {unit : Octet} (out : 8 ≤ unit.toNat) (rest : List Octet) (s : State) :
    presetTally (0x32#8 :: unit :: rest) s = refuse (0x32#8 :: unit :: rest) .badIndex s := by
  have none : unitOfNat (fieldAt (0x32#8 :: unit :: rest) 1 1) = none :=
    dif_neg (by rw [fieldAt_succ, fieldAt_first]; exact Nat.not_lt.mpr out)
  unfold presetTally
  rw [none]

theorem readShift_of_out {i part : Octet} (out : s.sh.ring.length ≤ i.toNat ∨ (8 ≤ part.toNat ∧ part ≠ 0xFF#8)) :
    readShift [0x42#8, i, part] s = refuse [0x42#8, i, part] .badIndex s := by
  have index : fieldAt [0x42#8, i, part] 1 1 = i.toNat := fieldAt_first ..
  have named : fieldAt [0x42#8, i, part] 2 1 = part.toNat := fieldAt_first ..
  unfold readShift
  dsimp only
  rw [index, named]
  cases found : s.sh.ring[i.toNat]? with
  | none => rfl
  | some r =>
    obtain ⟨above, other⟩ := out.resolve_left (Nat.not_le.mpr (List.getElem?_eq_some_iff.mp found).1)
    have none : unitOfNat part.toNat = none := dif_neg (Nat.not_lt.mpr above)
    dsimp only
    rw [if_neg fun full : part.toNat = 255 => other (BitVec.eq_of_toNat_eq full), none]

/-- Settles O60: a request is its own command's, by the tables of kinds, parameters and actions, and each check refuses. -/
theorem refusedRequestsChangeNothing : Obligations.RefusedRequestsChangeNothing := by
  unfold Obligations.RefusedRequestsChangeNothing
  intro kinds writes searches all
  have kindsRun : ∀ x ∈ kinds, RunsKind x.1 x.2.1 x.2.2 := fun x mem => by
    simp only [kinds] at mem
    fin_cases mem <;> exact ⟨by decide, _, fun _ => rfl⟩
  have writesRun : ∀ x ∈ writes, RunsParam x.1 x.2 := fun x mem => by
    simp only [writes] at mem
    fin_cases mem <;> exact ⟨_, _, _, _, _, by decide, fun _ => rfl⟩
  have searchesRun : ∀ x ∈ searches, RunsSearch x.1 x.2 := fun x mem => by
    simp only [searches] at mem
    fin_cases mem
    · exact ⟨_, fun _ => rfl, .inl rfl, fun _ _ other => if_pos other⟩
    · exact ⟨_, fun _ => rfl, .inr rfl, fun _ _ other => if_pos other⟩
  have owns : ∀ x ∈ all, Owns x.1 x.2 := fun x mem => by
    simp only [all, List.mem_append, List.mem_map, List.mem_singleton] at mem
    rcases mem with ((⟨y, mem, rfl⟩ | ⟨y, mem, rfl⟩) | ⟨y, mem, rfl⟩) | rfl
    · exact (kindsRun y mem).owns
    · exact (writesRun y mem).owns
    · exact (searchesRun y mem).owns
    · exact ⟨_, _, fun _ => rfl, fun req own => head_of_kind (by decide) (eq_of_beq own)⟩
  refine ⟨fun x mem s => (owns x mem).idle s, fun x mem s l requested length => (kindsRun x mem).badLength requested length,
    fun s l requested length => ?_, fun x mem s l requested => (writesRun x mem).refuses requested,
    fun x mem s l requested => (searchesRun x mem).refuses requested, fun s k l requested => ⟨fun other => ?_, fun known => ?_⟩,
    fun s n above requested => ?_, fun s n above requested => ?_, fun s n above requested => ?_,
    fun s set on role g rest four five requested out => ?_, fun s unit on map timeout sixteen two requested out => ?_,
    fun s unit rest length above requested => ?_, fun s i part requested out => ?_⟩
  · refine exec_refused rfl requested (hasKind_cons ..) .badLength (if_neg fun fits => ?_)
    simp only [scheduleLength, List.length_cons, Bool.and_eq_true, beq_iff_eq, decide_eq_true_eq] at fits
    omega
  · refine exec_refused rfl requested ?_ .unknownRequest rfl
    simpa [requestKinds, kindOf_cons] using other
  · refine exec_idle rfl fun req own => ?_
    obtain rfl := RequestBuffer.complete.inj (requested.1.symm.trans own.1)
    refine Bool.eq_false_iff.mpr fun other => absurd known ?_
    simpa [requestKinds, kindOf_cons] using other
  · refine exec_refused rfl requested rfl .badIndex ((withLength_of rfl s).trans (if_pos ?_))
    rw [fieldAt_succ, fieldAt_first]
    omega
  · refine exec_refused rfl requested rfl .badIndex ((withLength_of rfl s).trans ?_)
    have none : chanOfNat (fieldAt [0x21#8, n] 1 1) = none := dif_neg (by rw [fieldAt_succ, fieldAt_first]; omega)
    unfold readChannel
    rw [none]
  · refine exec_refused rfl requested rfl .badIndex ((withLength_of rfl s).trans ?_)
    have none : unitOfNat (fieldAt [0x31#8, n] 1 1) = none := dif_neg (by rw [fieldAt_succ, fieldAt_first]; omega)
    unfold readTally
    rw [none]
  · exact exec_refused rfl requested rfl .badIndex ((withLength_of (by simp [four, five]) s).trans (writeChannel_of_out four out s))
  · exact exec_refused rfl requested rfl .badIndex ((withLength_of (by simp [sixteen, two]) s).trans (writeUnit_of_out sixteen out s))
  · exact exec_refused rfl requested (hasKind_cons ..) .badIndex
      ((withLength_of (by simp [length]) s).trans (presetTally_of_out above rest s))
  · exact exec_refused rfl requested rfl .badIndex ((withLength_of rfl s).trans (readShift_of_out out))

end Sys2Proof.Machine
end

/-! PROOF. SET_TIME and TRIM_SEARCH (R14, R47, R49). -/

section
namespace Sys2Proof.Machine

variable {s t : State} {x : Search}

/-! ### Fields in the middle of a request (11.5) -/

theorem fieldAt_middle (pre mid post : List Octet) : fieldAt (pre ++ mid ++ post) pre.length mid.length = natOf mid := by
  rw [fieldAt_append_left (by simp), fieldAt_append_right (Nat.le_refl _), Nat.sub_self, fieldAt_whole rfl]

theorem fieldAt_number (pre post : List Octet) {k n : Nat} (fits : n < 256 ^ k) :
    fieldAt (pre ++ natOctets k n ++ post) pre.length k = n := by
  have field := fieldAt_middle pre (natOctets k n) post
  rwa [natOctets_length, natOf_natOctets fits] at field

theorem replied_within (req reply : List Octet) (s : State) : Within [.ml] s (s.replied req reply) :=
  onMl_within (MgmtLink.answered req reply s.tb.e) s

/-! ### SET_TIME (R14) -/

/-- The SET_TIME request with its seconds and accuracy (11.5). -/
def setTimeRequest (sec acc : Nat) : List Octet := [0x03#8] ++ natOctets 5 sec ++ natOctets 4 acc

theorem setTimeRequest_fields {sec acc : Nat} (seconds : sec < 2 ^ 40) (accuracy : acc < 2 ^ 32) :
    fieldAt (setTimeRequest sec acc) 1 5 = sec ∧ fieldAt (setTimeRequest sec acc) 6 4 = acc ∧
      (setTimeRequest sec acc).length = 10 := by
  refine ⟨fieldAt_number [0x03#8] (natOctets 4 acc) (by omega), ?_, ?_⟩
  · have field := fieldAt_number ([0x03#8] ++ natOctets 5 sec) [] (k := 4) (n := acc) (by omega)
    rwa [List.append_nil, List.length_append, natOctets_length] at field
  · simp [setTimeRequest, natOctets_length]

theorem isFollowing_false_iff (m : TbMode) : isFollowing m = false ↔ m = .freeRun ∨ m = .holdover := by
  cases m <;> simp [isFollowing]

theorem setTime_taken {req : List Octet} (free : isFollowing s.dl.mode = false) (noStep : s.tb.pendingStep = none) :
    setTime req s =
      accept req (natOctets 5 (fieldAt req 1 5) ++ natOctets 4 (min (fieldAt req 6 4) uTop))
        (s.onTb fun t => { t with pendingSetting := some { seconds := fieldAt req 1 5, accuracy := min (fieldAt req 6 4) uTop } }) := by
  unfold setTime
  rw [free, noStep]
  rfl

theorem setTime_refused {req : List Octet} (busy : isFollowing s.dl.mode = true ∨ s.tb.pendingStep.isSome) :
    setTime req s = refuse req .refusedState s :=
  if_pos (Bool.or_eq_true_iff.mpr busy)

/-! ### The end of a search by an abort (R42, R49) -/

/-- An abort restores I and the trim in force before the search. -/
theorem abortSearch_items (running : s.dl.search = some x) :
    s.abortSearch.dl = { s.dl with search := none, integral := x.savedI, history := [] } ∧
      s.abortSearch.tb = { s.tb with pendingTrim := x.savedT } := by
  unfold State.abortSearch
  rw [running]
  simp [State.writeTrim]

theorem abortSearch_admitted (running : s.dl.search = some x) (room : s.eq.records.length < 512) :
    s.admittedNext s.abortSearch (timebaseRecord s.dl.active s.dl.mode s.dl.mode .searchAborted s.tb.now) := by
  unfold State.abortSearch
  rw [running]
  exact (State.offer_admitted (takes_a room)).of_eq rfl

/-- The conditions of a return to A, by the items that they read. -/
theorem revertDue_of_same (params : t.ml.params = s.ml.params) (rm : t.rm = s.rm) (e : t.tb.e = s.tb.e)
    (active : t.dl.active = s.dl.active) (mode : t.dl.mode = s.dl.mode) (search : t.dl.search = s.dl.search) :
    t.revertDue ↔ s.revertDue := by
  unfold State.revertDue
  rw [params, rm, e, active, mode, search]

/-- After the abort of a search its end makes the return to A that the search held back, and leaves the rest to the abort. -/
theorem endSearch_items (running : s.dl.search = some x) :
    let back := ({ s with dl := { s.dl with search := none } } : State).revertDue
    (¬ back → s.endSearch = s.abortSearch) ∧
      (back → s.endSearch = s.abortSearch.follow .a s.dl.mode 0 .revert) ∧ s.endSearch.tb = { s.tb with pendingTrim := x.savedT } := by
  obtain ⟨dl, tb⟩ := abortSearch_items running
  have ends : s.endSearch = s.abortSearch.testRevert := if_pos (by rw [running]; rfl)
  have same : s.abortSearch.revertDue ↔ ({ s with dl := { s.dl with search := none } } : State).revertDue := by
    apply revertDue_of_same <;> simp [dl, tb]
  refine ⟨fun stays => ?_, fun back => ?_, ?_⟩
  · rw [ends, testRevert_of_not_due (same.not.mpr stays)]
  · rw [ends, testRevert_of_due (same.mpr back), abortSearch_mode]
  · by_cases back : s.abortSearch.revertDue
    · obtain ⟨-, -, -, mode, -⟩ := id back
      rw [ends, testRevert_of_due back, follow_tb_of_following ((isFollowing_iff _).mpr mode), tb]
    · rw [ends, testRevert_of_not_due back, tb]

/-! ### TRIM_SEARCH (R47, R49) -/

theorem trimSearchStart_of_running (running : s.dl.search.isSome) :
    trimSearchStart [0x50#8, 0x01#8] s = refuse [0x50#8, 0x01#8] .busy s := by
  unfold trimSearchStart
  rw [if_neg (fun h => h rfl), if_pos running]

theorem trimSearchStart_of_free (free : s.dl.search = none) :
    (s.dl.mode = .freeRun ∨ s.dl.mode = .holdover ∨ s.dl.active = none →
      trimSearchStart [0x50#8, 0x01#8] s = refuse [0x50#8, 0x01#8] .refusedState s) ∧
      ∀ r, s.dl.mode = .acquiring ∨ s.dl.mode = .locked → s.dl.active = some r →
        trimSearchStart [0x50#8, 0x01#8] s = accept [0x50#8, 0x01#8] (natOctets 1 1) (s.startSearch r) := by
  have step : trimSearchStart [0x50#8, 0x01#8] s =
      match s.dl.active, isFollowing s.dl.mode with
      | some r, true => accept [0x50#8, 0x01#8] (natOctets 1 1) (s.startSearch r)
      | _, _ => refuse [0x50#8, 0x01#8] .refusedState s := by
    unfold trimSearchStart
    rw [free, if_neg fun h => h rfl]
    exact if_neg nofun
  refine ⟨fun none => ?_, fun r following active => ?_⟩
  · rw [step]
    split
    · next active following =>
      rw [← or_assoc] at none
      rw [(isFollowing_false_iff _).mpr (none.resolve_right (by rw [active]; exact nofun))] at following
      cases following
    · rfl
  · rw [step, active, (isFollowing_iff _).mpr following]

theorem trimSearchAbort_eq (s : State) :
    trimSearchAbort [0x50#8, 0x02#8] s =
      if s.dl.search.isSome then accept [0x50#8, 0x02#8] (natOctets 1 2) s.endSearch
      else refuse [0x50#8, 0x02#8] .refusedState s := by
  unfold trimSearchAbort
  rw [if_neg fun h => h rfl]

/-- Settles O52: the three requests by their checks; an abort ends the search and tests the return to A. -/
theorem timeAndSearchRequests : Obligations.TimeAndSearchRequests := by
  refine ⟨fun s sec acc seconds accuracy => ?_, fun s requested => ⟨fun running => ?_, fun free none => ?_, fun r free following active => ?_⟩,
    fun s requested => ⟨fun free => ?_, fun x running => ?_⟩⟩
  · intro req requested
    obtain ⟨sec', acc', length⟩ := setTimeRequest_fields seconds accuracy
    refine ⟨fun ⟨free, noStep⟩ => ?_, fun busy => ?_⟩
    · refine exec_request rfl requested rfl ((withLength_of length s).trans ?_) rfl
      rw [setTime_taken ((isFollowing_false_iff _).mpr free) noStep]
      show accept (setTimeRequest sec acc) _ _ = _
      rw [sec', acc']
      rfl
    · refine exec_refused rfl requested rfl .refusedState ((withLength_of length s).trans (setTime_refused ?_))
      rw [isFollowing_iff]
      tauto
  · exact exec_refused rfl requested rfl .busy ((withLength_of rfl s).trans (trimSearchStart_of_running running))
  · exact exec_refused rfl requested rfl .refusedState ((withLength_of rfl s).trans ((trimSearchStart_of_free free).1 none))
  · exact exec_request rfl requested rfl ((withLength_of rfl s).trans ((trimSearchStart_of_free free).2 r following active)) rfl
  · refine exec_refused rfl requested rfl .refusedState ((withLength_of rfl s).trans ((trimSearchAbort_eq s).trans (if_neg ?_)))
    rw [free]
    exact nofun
  · obtain ⟨stays, returns, tb⟩ := endSearch_items running
    obtain ⟨dl, -⟩ := abortSearch_items running
    have within := endSearch_within s
    have done : trimSearchAbort [0x50#8, 0x02#8] s = accept [0x50#8, 0x02#8] (natOctets 1 2) s.endSearch :=
      (trimSearchAbort_eq s).trans (if_pos (by rw [running]; rfl))
    refine ⟨_, exec_request rfl requested rfl ((withLength_of rfl s).trans done) (by rw [tb]), ?_, ⟨fun out => ?_, fun back => ?_⟩, tb,
      fun room => ?_, ?_⟩
    · have ml : s.endSearch.ml = s.ml := within.out .ml (by decide)
      simp only [State.replied, ml, tb]
      rfl
    · refine ⟨(congrArg State.dl (stays out)).trans dl, (congrArg State.rm (stays out)).trans (abortSearch_rm s)⟩
    · have active : s.dl.active ≠ some .a := by
        obtain ⟨-, -, active, -⟩ := back
        exact fun a => nomatch a.symm.trans active
      have left : s.abortSearch.dl.active ≠ some .a := by rw [dl]; exact active
      show s.endSearch.dl.search = none ∧ s.endSearch.dl.integral = x.savedI ∧ s.endSearch.dl.history = [] ∧
        s.endSearch.dl.confirmed = none ∧ s.endSearch.dl.active = some .a ∧ s.endSearch.dl.mode = s.dl.mode ∧ s.endSearch.rm = _
      rw [returns back]
      exact ⟨(follow_search ..).trans (abortSearch_search s), (follow_integral ..).trans (congrArg Loop.integral dl), follow_history ..,
        follow_confirmed left .., follow_active .., follow_mode .., (follow_rm ..).trans (by rw [abortSearch_rm]; rfl)⟩
    · have ended : s.endSearch = s.abortSearch.testRevert := if_pos (by rw [running]; rfl)
      have told : s.admittedNext s.endSearch _ := ended ▸ (abortSearch_admitted running room).append (testRevert_appended ..)
      exact told
    · exact Within.trans (within.mono (by decide)) ((replied_within ..).mono (by decide))

end Sys2Proof.Machine
end

/-! PROOF. WRITE_SCHEDULE, and the parameters store depth, local offset and schedule mode (R61, R137 to R142, R152, R153). -/

section
namespace Sys2Proof.Machine

variable {s t : State} {l : List Nat}

/-! ### The minutes of a request (11.5) -/

theorem flatMap_natOctets_length (n : Nat) (l : List Nat) : (l.flatMap (natOctets n)).length = n * l.length := by
  induction l with
  | nil => rfl
  | cons m l ih => rw [List.flatMap_cons, List.length_append, natOctets_length, ih, List.length_cons]; ring

/-- An item of a list of numbers of `n` octets each. -/
theorem fieldAt_flatMap {n : Nat} (fits : ∀ m ∈ l, m < 256 ^ n) {k : Nat} (inside : k < l.length) :
    fieldAt (l.flatMap (natOctets n)) (n * k) n = l[k] := by
  induction l generalizing k with
  | nil => cases inside
  | cons m l ih =>
    obtain ⟨first, others⟩ := List.forall_mem_cons.mp fits
    cases k with
    | zero => exact (fieldAt_number [] _ first :)
    | succ k =>
      rw [List.flatMap_cons, fieldAt_append_right (by rw [natOctets_length, Nat.mul_succ]; omega), natOctets_length,
        show n * (k + 1) - n = n * k by rw [Nat.mul_succ]; omega]
      exact ih others (Nat.lt_of_succ_lt_succ inside)

/-- The WRITE_SCHEDULE request of some minutes. -/
def scheduleRequest (l : List Nat) : List Octet := [0x40#8] ++ l.flatMap (natOctets 2)

theorem scheduleRequest_length (l : List Nat) : (scheduleRequest l).length = 1 + 2 * l.length := by
  rw [scheduleRequest, List.length_append, flatMap_natOctets_length]
  rfl

theorem minutesOf_scheduleRequest (fits : ∀ m ∈ l, m < 2 ^ 16) : minutesOf (scheduleRequest l) = l := by
  have count : ((scheduleRequest l).length - 1) / 2 = l.length := by rw [scheduleRequest_length]; omega
  unfold minutesOf
  rw [count]
  refine List.ext_getElem (by simp) fun k _ inside => ?_
  rw [List.getElem_map, List.getElem_range, Nat.add_comm 1]
  exact fieldAt_flatMap fits inside

theorem scheduleLength_of (some : 1 ≤ l.length) (few : l.length ≤ 6) : scheduleLength (scheduleRequest l).length = true := by
  rw [scheduleRequest_length]
  simp only [scheduleLength, Bool.and_eq_true, beq_iff_eq, decide_eq_true_eq]
  omega

theorem rising_iff : ∀ l : List Nat, rising l = true ↔ l.IsChain (· < ·)
  | [] => by simp [rising]
  | [_] => by simp [rising]
  | a :: b :: r => by rw [rising, List.isChain_cons_cons, Bool.and_eq_true, decide_eq_true_iff, rising_iff (b :: r)]

theorem minutesOk_iff (l : List Nat) : minutesOk l = true ↔ (∀ m ∈ l, m ≤ 1439) ∧ l.Pairwise (· < ·) := by
  rw [minutesOk, Bool.and_eq_true, rising_iff, List.isChain_iff_pairwise, List.all_eq_true]
  simp only [decide_eq_true_iff]

/-! ### A shift in AUTO mode (R152, R153) -/

/-- ON_SHIFT with no duty console, told of. -/
theorem enterAutoShift_items (old : HState) (cause : HCause) (s : State) :
    (s.enterAutoShift old cause).hc = { s.hc with state := .onShift, duty := none, queue := (s.enterAutoShift old cause).hc.queue, tx := (s.enterAutoShift old cause).hc.tx } ∧
      SameHeads s (s.enterAutoShift old cause) ∧ Within [.hc, .eq, .sh] s (s.enterAutoShift old cause) := by
  refine ⟨State.announce_hc old cause .b 0 (s.onHc fun h => { h with state := .onShift, duty := none }), ?_, ?_⟩
  · have current := (SameHeads.offer (s := s.onHc fun h => { h with state := .onShift, duty := none })
      (mkRecord .handover .b 0 (hStateCode old) 1 (hCauseCode cause) s.tb.now)).current
    exact ⟨by simp [State.enterAutoShift], by simp [State.enterAutoShift], current, by simp [State.enterAutoShift],
      by simp [State.enterAutoShift]⟩
  · exact Within.trans ((onHc_within ..).mono (by decide)) (announce_within ..)

/-- The opening cut at this tick, into a shift in AUTO mode. -/
theorem openAuto_items (old : HState) (cause : HCause) (s : State) :
    let t := (s.takeOpeningCut s.tb.e).enterAutoShift old cause
    t.hc = { s.hc with missed := 0, shiftOpen := true, state := .onShift, duty := none, queue := t.hc.queue, tx := t.hc.tx } ∧
      (∃ h, t.sh.current = some h ∧ h.start = stampOf s.tb.vals s.tb.e) ∧
      (∀ u : UnitNo, t.tu[u] = { s.tu[u] with cur := ShiftSet.zero (some s.tb.e) }) ∧ Within [.hc, .eq, .sh, .tu] s t := by
  intro t
  obtain ⟨hc, heads, within⟩ := enterAutoShift_items old cause (s.takeOpeningCut s.tb.e)
  have tu : t.tu = (s.takeOpeningCut s.tb.e).tu := within.out .tu (by decide)
  refine ⟨hc, ?_, fun u => ?_, Within.trans (takeOpeningCut_within ..) (within.mono (by decide))⟩
  · exact Option.map_eq_some_iff.mp (heads.current : t.sh.current.map Header.start = some _)
  · rw [tu]
    refine (openingCut_unit (stampOf s.tb.vals s.tb.e) s u).trans ?_
    rw [stampOf_elapsed]

/-! ### WRITE_SCHEDULE (R138, R141, R152) -/

/-- The schedule replaced, and the last reached boundary re-seated when time is set. -/
def State.rescheduled (l : List Nat) (s : State) : State :=
  { s with hc := { s.hc with schedule := l, lastReached := if s.tb.unset then s.hc.lastReached else latestBoundary l s.localNow } }

theorem writeSchedule_eq (l : List Nat) (s : State) :
    s.writeSchedule l =
      if s.ml.params.scheduleMode = .auto ∧ s.hc.shiftOpen = false then
        ((s.rescheduled l).takeOpeningCut (s.rescheduled l).tb.e).enterAutoShift s.hc.state .schedule
      else s.rescheduled l := by
  have seated : (if (s.onHc fun h => { h with schedule := l }).tb.unset then s.onHc fun h => { h with schedule := l }
      else (s.onHc fun h => { h with schedule := l }).reseat) = s.rescheduled l := by
    unfold State.rescheduled
    cases unset : s.tb.unset
    · exact (if_neg (by rw [State.onHc_tb, unset]; exact nofun)).trans rfl
    · exact (if_pos (by rw [State.onHc_tb, unset])).trans rfl
  unfold State.writeSchedule
  dsimp only
  rw [seated]
  simp only [Bool.not_eq_true']
  rfl

/-- The checks of a WRITE_SCHEDULE, in their order (R178). -/
theorem writeSchedule_checks (some : 1 ≤ l.length) (few : l.length ≤ 6) (fits : ∀ m ∈ l, m < 2 ^ 16) (s : State) :
    writeSchedule (scheduleRequest l) s =
      if minutesOk l then
        if s.hc.state.settled then accept (scheduleRequest l) (scheduleFields l) (s.writeSchedule l)
        else refuse (scheduleRequest l) .refusedState s
      else refuse (scheduleRequest l) .badIndex s := by
  unfold writeSchedule
  rw [if_pos (scheduleLength_of some few), minutesOf_scheduleRequest fits]

/-- Settles O58: the request spells its minutes, its checks come in their order, and the effect is a replaced schedule with or
without an opening cut behind it. -/
theorem scheduleWritten : Obligations.ScheduleWritten := by
  intro s l some few fits req ok settled reply seat opens requested
  have checks := writeSchedule_checks some few fits s
  have taken : ok → settled → ∀ t, s.writeSchedule l = t → t.tb.e = s.tb.e → exec .writeSchedule s = .next (t.replied req reply) := by
    intro good state t effect e
    rw [if_pos ((minutesOk_iff l).mpr good), if_pos ((settled_iff _).mpr state), effect] at checks
    refine exec_request rfl requested rfl (checks.trans ?_) e
    unfold scheduleFields
    rw [natOctets_one (by omega)]
    rfl
  refine ⟨fun bad => ?_, fun good other => ?_, fun good state stays => ?_, fun good state opening => ?_⟩
  · exact exec_refused rfl requested rfl .badIndex (checks.trans (if_neg fun good => bad ((minutesOk_iff l).mp good)))
  · rw [if_pos ((minutesOk_iff l).mpr good), if_neg fun state => other ((settled_iff _).mp state)] at checks
    exact exec_refused rfl requested rfl .refusedState checks
  · exact taken good state _ ((writeSchedule_eq l s).trans (if_neg stays)) rfl
  · obtain ⟨hc, ⟨h, current, start⟩, tu, within⟩ := openAuto_items s.hc.state .schedule (s.rescheduled l)
    have tb : (((s.rescheduled l).takeOpeningCut (s.rescheduled l).tb.e).enterAutoShift s.hc.state .schedule).tb = s.tb :=
      within.out .tb (by decide)
    have ml : (((s.rescheduled l).takeOpeningCut (s.rescheduled l).tb.e).enterAutoShift s.hc.state .schedule).ml = s.ml :=
      within.out .ml (by decide)
    refine ⟨_, h, taken good state _ ((writeSchedule_eq l s).trans (if_pos opening)) (by rw [tb]), ?_, hc, current, start, tu, ?_⟩
    · unfold State.replied
      simp only [tb, ml]
    · refine Within.trans (t := s.rescheduled l) ((onHc_within (fun _ => (s.rescheduled l).hc) s).mono (by decide)) ?_
      exact Within.trans (within.mono (by decide)) ((replied_within ..).mono (by decide))

/-! ### Store depth and local offset (R61, R139 to R142) -/

theorem writeDepth_of_inFrame (d : Nat) (aligned : s.sli.alignment = .inFrame) :
    s.writeDepth d = (s.onParams fun p => { p with storeDepth := d }).recentreBoth := by
  unfold State.writeDepth
  rw [aligned]

theorem writeDepth_of_lof (d : Nat) (lost : s.sli.alignment = .lof) :
    s.writeDepth d = { (s.onParams fun p => { p with storeDepth := d }) with up := s.up.recentre d } := by
  unfold State.writeDepth
  rw [lost]
  rfl

theorem exec_offset {v : BitVec 32} (requested : s.requested (writeRequest 19 v)) (effect : s.writeOffset (max (-720) (min 840 v.toInt)) = t) :
    exec .writeLocalOffset s = .next (t.replied (writeRequest 19 v) (writeReply 19 (max (-720) (min 840 v.toInt)))) := by
  have tb : (s.writeOffset (max (-720) (min 840 v.toInt))).tb = s.tb := (writeOffset_within ..).out .tb (by decide)
  have done := exec_param (c := .writeLocalOffset) (effect := State.writeOffset) (code := fun v => v) (allowed := fun _ _ => true)
    (value := fun x => some (clampInt (-720) 840 x)) rfl (by decide) requested rfl rfl
    (congrArg Timebase.e tb) (by unfold clampInt; omega) (by unfold clampInt; omega)
  rw [← effect]
  exact done

/-- An evaluation that reaches no boundary leaves the state, and another one hands the latest on (R140). -/
theorem evaluate_cases (s : State) :
    let latest := latestBoundary s.hc.schedule s.localNow
    let passed := passedCount s.hc.schedule.length latest s.hc.lastReached s.hc.reachMark
    (latest = none ∨ passed = 0 → s.evaluate = s) ∧
      ∀ b, latest = some b → passed ≠ 0 → s.evaluate =
        (s.onHc fun h => { h with missed := min (h.missed + (passed - 1)) 65535, lastReached := some b, reachMark := some b }).actBoundary b s.tb.e := by
  intro latest passed
  have step : s.evaluate = match latest with
      | none => s
      | some b => if passed = 0 then s else (s.onHc fun h =>
          { h.miss (passed - 1) with lastReached := some b, reachMark := some b }).actBoundary b s.tb.e := rfl
  clear_value latest passed
  refine ⟨fun idle => ?_, fun b reached some => ?_⟩
  · rw [step]
    cases latest with
    | none => rfl
    | some b => exact if_pos (idle.resolve_left nofun)
  · rw [step, reached]
    exact if_neg some

/-! ### The schedule mode (R153) -/

theorem schedModeOf_code (m : SchedMode) : schedModeOf (BitVec.ofNat 32 (schedModeCode m)).toInt = some m := by cases m <;> rfl

theorem schedModeOf_of_out {v : BitVec 32} (out : 1 < v.toNat) : schedModeOf v.toInt = none := by
  have zero : v.toInt ≠ 0 := fun h => absurd out (by rw [BitVec.eq_of_toInt_eq (y := 0#32) h]; decide)
  have one : v.toInt ≠ 1 := fun h => absurd out (by rw [BitVec.eq_of_toInt_eq (y := 1#32) h]; decide)
  unfold schedModeOf
  rw [if_neg zero, if_neg one]

/-- A written schedule mode that the state allows: its effect, and the reply with the mode. -/
theorem exec_mode {m : SchedMode} (requested : s.requested (writeRequest 18 (BitVec.ofNat 32 (schedModeCode m))))
    (may : m = s.ml.params.scheduleMode ∨ s.hc.state = .noDuty ∨ s.hc.state = .onShift) (effect : s.writeMode m = t) :
    exec .writeScheduleMode s =
      .next (t.replied (writeRequest 18 (BitVec.ofNat 32 (schedModeCode m))) (writeReply 18 (schedModeCode m))) := by
  have tb : (s.writeMode m).tb = s.tb := (writeMode_within ..).out .tb (by decide)
  have allowed : modeAllowed m s = true := by
    rw [modeAllowed, Bool.or_eq_true, settled_iff, beq_iff_eq]
    exact may
  rw [← effect]
  exact exec_param (c := .writeScheduleMode) (x := m) (effect := State.writeMode) (code := fun v => schedModeCode v) rfl (by decide)
    requested (schedModeOf_code m) allowed (congrArg Timebase.e tb) (by cases m <;> decide) (by cases m <;> decide)

/-- The state with a schedule mode written. -/
def State.inMode (m : SchedMode) (s : State) : State := s.onParams fun p => { p with scheduleMode := m }

theorem writeMode_same (s : State) : s.writeMode s.ml.params.scheduleMode = s := if_pos rfl

theorem writeMode_of_change {m : SchedMode} (changed : m ≠ s.ml.params.scheduleMode) :
    (m = .auto → s.writeMode m = (s.inMode m).toAuto) ∧ (m = .console → s.writeMode m = (s.inMode m).toConsole) := by
  unfold State.writeMode
  rw [if_neg changed]
  exact ⟨fun auto => by subst auto; rfl, fun console => by subst console; rfl⟩

theorem toConsole_of_onShift (state : s.hc.state = .onShift) :
    s.toConsole.hc = { s.hc with state := .noDuty, queue := s.toConsole.hc.queue, tx := s.toConsole.hc.tx } ∧
      Within [.hc, .eq, .sh] s s.toConsole := by
  unfold State.toConsole
  rw [if_pos state]
  exact ⟨State.announce_hc .onShift .mode .b 0 (s.onHc fun h => { h with state := .noDuty }),
    Within.trans ((onHc_within ..).mono (by decide)) (announce_within ..)⟩

theorem toAuto_of_duty (state : s.hc.state = .onShift) (duty : s.hc.duty.isSome) : s.toAuto = s.enterAutoShift .onShift .mode := by
  unfold State.toAuto
  rw [state]
  exact if_neg fun none => by rw [none] at duty; cases duty

theorem toAuto_of_noDuty (state : s.hc.state = .noDuty) :
    s.toAuto =
      if s.hc.shiftOpen then s.enterAutoShift .noDuty .mode
      else if s.hc.schedule = [] then s else (s.takeOpeningCut s.tb.e).enterAutoShift .noDuty .mode := by
  unfold State.toAuto
  rw [state]

/-- What the reply to an effect leaves in the ML, where the effect left the ML and E. -/
theorem replied_ml {req reply : List Octet} {l : List Block} (within : Within l s t) (ml : .ml ∉ l) (tb : .tb ∉ l) :
    (t.replied req reply).ml = (s.replied req reply).ml := by
  have ml : t.ml = s.ml := within.out .ml ml
  have tb : t.tb = s.tb := within.out .tb tb
  simp only [State.replied, ml, tb]

theorem mode_within {m : SchedMode} {req reply : List Octet} {l : List Block} (within : Within l (s.inMode m) t) :
    Within (.ml :: l) s (t.replied req reply) :=
  Within.trans (((onParams_within ..).mono (by simp)) : Within (.ml :: l) s (s.inMode m))
    (Within.trans (within.mono (by simp)) ((replied_within ..).mono (by simp)))

/-- Settles O55: each parameter by the branches of its effect. -/
theorem depthOffsetAndModeAct : Obligations.DepthOffsetAndModeAct := by
  refine ⟨fun s v requested => ?_, fun s v requested => ?_, fun s v requested out => ?_, fun s mode requested => ?_⟩
  · intro d t up
    have written : exec .writeStoreDepth s = .next ((s.writeDepth d).replied (writeRequest 12 v) (writeReply 12 d)) := by
      have tb : ∀ k, (s.writeDepth k).tb = s.tb := fun k => (writeDepth_within k s).out .tb (by decide)
      have done := exec_number (c := .writeStoreDepth) (effect := State.writeDepth) rfl (by decide) (by decide) (by decide) requested
        fun k => congrArg Timebase.e (tb k)
      rwa [← Int.toNat_of_nonneg (a := max ((4 : Nat) : Int) (min ((16 : Nat) : Int) v.toInt)) (by omega)] at done
    exact ⟨fun aligned => by rw [written, writeDepth_of_inFrame d aligned]; rfl,
      fun lost => by rw [written, writeDepth_of_lof d lost]; rfl⟩
  · intro offset t secs now before latest passed
    have step : s.writeOffset offset =
        if s.tb.unset then s.onParams fun p => { p with localOffset := offset }
        else if now < before then (s.onParams fun p => { p with localOffset := offset }).reseat
        else (s.onParams fun p => { p with localOffset := offset }).evaluate := rfl
    obtain ⟨idle, reaches⟩ := evaluate_cases (s.onParams fun p => { p with localOffset := offset })
    refine ⟨fun unset => exec_offset requested (step.trans (if_pos unset)), fun set back => ?_, fun set on none => ?_,
      fun b set on reached some => ?_⟩
    · rw [if_neg (by rw [set]; exact nofun), if_pos back] at step
      exact exec_offset requested step
    · rw [if_neg (by rw [set]; exact nofun), if_neg (Nat.not_lt.mpr on)] at step
      exact exec_offset requested (step.trans (idle none))
    · rw [if_neg (by rw [set]; exact nofun), if_neg (Nat.not_lt.mpr on)] at step
      exact exec_offset requested (step.trans (reaches b reached some))
  · exact exec_param_of_none (c := .writeScheduleMode) (effect := State.writeMode) (allowed := modeAllowed)
      (code := fun v => schedModeCode v) rfl (by decide) requested (schedModeOf_of_out out)
  · intro req reply settled t
    refine ⟨fun same => ?_, fun changed other => ?_, fun changed console idle => ?_, fun changed console state => ?_,
      fun changed auto idle closed empty => ?_, fun changed auto shift => ?_, fun changed auto idle closed some => ?_⟩
    · exact exec_mode requested (.inl same) (by rw [same]; exact writeMode_same s)
    · refine exec_param_of_state (c := .writeScheduleMode) (effect := State.writeMode) (allowed := modeAllowed)
        (code := fun v => schedModeCode v) rfl (by decide) requested (schedModeOf_code mode) ?_
      rw [modeAllowed, Bool.or_eq_false_iff, beq_eq_false_iff_ne, Bool.eq_false_iff]
      exact ⟨changed, fun state => other ((settled_iff _).mp state)⟩
    · exact exec_mode requested (.inr (.inl idle)) (((writeMode_of_change changed).2 console).trans
        (if_neg (by rw [show (s.inMode mode).hc = s.hc from rfl, idle]; exact nofun)))
    · obtain ⟨hc, within⟩ := toConsole_of_onShift (s := s.inMode mode) state
      exact ⟨_, exec_mode requested (.inr (.inr state)) ((writeMode_of_change changed).2 console),
        replied_ml within (by decide) (by decide), hc, mode_within within⟩
    · refine exec_mode requested (.inr (.inl idle)) (((writeMode_of_change changed).1 auto).trans ((toAuto_of_noDuty (s := s.inMode mode) idle).trans ?_))
      rw [if_neg (by rw [show (s.inMode mode).hc = s.hc from rfl, closed]; exact nofun)]
      exact if_pos empty
    · have effect : ∃ old, s.writeMode mode = (s.inMode mode).enterAutoShift old .mode := by
        rcases shift with ⟨state, duty⟩ | ⟨idle, opened⟩
        · exact ⟨_, ((writeMode_of_change changed).1 auto).trans (toAuto_of_duty (s := s.inMode mode) state duty)⟩
        · exact ⟨_, ((writeMode_of_change changed).1 auto).trans ((toAuto_of_noDuty (s := s.inMode mode) idle).trans (if_pos opened))⟩
      obtain ⟨old, effect⟩ := effect
      obtain ⟨hc, -, within⟩ := enterAutoShift_items old .mode (s.inMode mode)
      exact ⟨_, exec_mode requested (.inr (shift.symm.imp And.left And.left)) effect, replied_ml within (by decide) (by decide), hc,
        mode_within within⟩
    · have effect : s.writeMode mode = ((s.inMode mode).takeOpeningCut s.tb.e).enterAutoShift .noDuty .mode := by
        refine ((writeMode_of_change changed).1 auto).trans ((toAuto_of_noDuty (s := s.inMode mode) idle).trans ?_)
        rw [if_neg (by rw [show (s.inMode mode).hc = s.hc from rfl, closed]; exact nofun)]
        exact if_neg some
      obtain ⟨hc, ⟨h, current, start⟩, tu, within⟩ := openAuto_items .noDuty .mode (s.inMode mode)
      exact ⟨_, h, exec_mode requested (.inr (.inl idle)) effect, replied_ml within (by decide) (by decide), hc, current, start, tu,
        mode_within within⟩

end Sys2Proof.Machine
end

/-! PROOF. The parameters that choose the reference (R35, R41 to R43). -/

section
namespace Sys2Proof.Machine

variable {s t : State} {p : Policy} {r : Ref}

/-! ### A changed policy (R43) -/

/-- The state with a reference policy written. -/
def State.underPolicy (p : Policy) (s : State) : State := s.onParams fun x => { x with policy := p }

theorem underPolicy_usable (r : Ref) : (s.underPolicy p).usable r = true ↔ p.allows r = true ∧ (s.rm.get r).qual = .qualified := by
  unfold State.usable
  rw [Bool.and_eq_true, beq_iff_eq]
  rfl

theorem abortSearch_usable (r : Ref) (s : State) : s.abortSearch.usable r = s.usable r := usable_of_same (by simp) (by simp)

/-- The policy's branches, for a loop that follows a reference. -/
theorem policyChanged_of_following (following : isFollowing s.dl.mode = true) (active : s.dl.active = some r) :
    s.policyChanged =
      if s.ml.params.policy.allows r then s.abortSearch.testRevert
      else if s.usable (otherRef r) then (s.abortSearch.switchTo (otherRef r) .policy).testRevert
      else s.abortSearch.followNone .policy := by
  have mode : isFollowing s.abortSearch.dl.mode = true := by simpa using following
  unfold State.policyChanged
  dsimp only
  rw [if_pos mode, abortSearch_active, active]
  simp only [abortSearch_usable, abortSearch_ml]

/-- A policy that allows the active reference A keeps it. -/
theorem policyChanged_keeps (following : isFollowing s.dl.mode = true) (active : s.dl.active = some .a)
    (allowed : s.ml.params.policy.allows .a = true) :
    s.policyChanged.dl.active = some .a ∧ s.policyChanged.dl.mode = s.dl.mode ∧ s.policyChanged.dl.search = none := by
  have onA : s.abortSearch.dl.active = some .a := (abortSearch_active s).trans active
  rw [policyChanged_of_following following active, if_pos allowed, testRevert_of_not_b (by rw [onA]; exact nofun)]
  exact ⟨onA, abortSearch_mode s, abortSearch_search s⟩

/-- A policy that forbids the active reference takes the other one where it is usable: the switch is not turned back, since a
policy of AUTO forbids none. -/
theorem policyChanged_switches (following : isFollowing s.dl.mode = true) (active : s.dl.active = some r)
    (forbidden : s.ml.params.policy.allows r = false) (usable : s.usable (otherRef r) = true) :
    s.policyChanged.dl.active = some (otherRef r) ∧ s.policyChanged.dl.mode = s.dl.mode ∧ s.policyChanged.dl.search = none ∧
      s.policyChanged.dl.history = [] ∧
      s.switchedBuildOut (otherRef r) (s.policyChanged.rm.get (otherRef r)).buildOut := by
  have forced : s.ml.params.policy ≠ .auto := fun auto => by rw [auto] at forbidden; cases forbidden
  have stays : (s.abortSearch.switchTo (otherRef r) .policy).testRevert = s.abortSearch.switchTo (otherRef r) .policy := by
    refine testRevert_of_not_due fun ⟨policy, _⟩ => forced ?_
    simpa [State.switchTo] using policy
  have buildOut := switchTo_buildOut (otherRef r) .policy s.abortSearch
  rw [policyChanged_of_following following active, if_neg (by rw [forbidden]; exact nofun), if_pos usable, stays]
  refine ⟨follow_active .., ?_, ?_, follow_history .., ?_⟩
  · simp [State.switchTo]
  · simp [State.switchTo]
  · simpa [State.switchedBuildOut] using buildOut

/-- Without another usable reference none is followed. -/
theorem policyChanged_leaves (following : isFollowing s.dl.mode = true) (active : s.dl.active = some r)
    (forbidden : s.ml.params.policy.allows r = false) (unusable : s.usable (otherRef r) = false) :
    s.policyChanged.dl.active = none ∧ s.policyChanged.dl.mode = (if s.dl.everLocked then .holdover else .freeRun) ∧
      s.policyChanged.tb.pendingTrim = s.policyChanged.dl.integral := by
  rw [policyChanged_of_following following active, if_neg (by rw [forbidden]; exact nofun), if_neg (by rw [unusable]; exact nofun)]
  simp

/-- The usable reference is A where A is usable, and B otherwise. -/
theorem usableRef_some (usable : s.usable .a = true ∨ s.usable .b = true) :
    ∃ r, s.usableRef = some r ∧ s.usable r = true ∧ (s.usable .a = true → r = .a) := by
  unfold State.usableRef
  by_cases first : s.usable .a = true
  · exact ⟨.a, if_pos first, first, fun _ => rfl⟩
  · exact ⟨.b, by rw [if_neg first, if_pos (usable.resolve_left first)], usable.resolve_left first, fun h => absurd h first⟩

/-- In FREE_RUN or HOLDOVER a usable reference is acquired, A first; nothing turns it back, since a return needs a usable A. -/
theorem acquire_usable (idle : isFollowing s.dl.mode = false) (usable : s.usable .a = true ∨ s.usable .b = true) (c : TbCause) :
    ∃ r, s.usable r = true ∧ (s.usable .a = true → r = .a) ∧ (s.acquire c).dl.active = some r ∧ (s.acquire c).dl.mode = .acquiring ∧
      ((s.acquire c).rm.get r).buildOut = 0 ∧
      (s.dl.mode = .holdover ∨ s.ml.params.searchOnAcquire = false → (s.acquire c).dl.search = s.dl.search) := by
  obtain ⟨r, found, own, first⟩ := usableRef_some usable
  refine ⟨r, own, first, ?_⟩
  obtain ⟨t, is⟩ : ∃ t, t = if s.ml.params.searchOnAcquire = true ∧ s.dl.mode = .freeRun then (s.follow r .acquiring 0 c).startSearch r else s.follow r .acquiring 0 c := ⟨_, rfl⟩
  have items : t.dl.active = some r ∧ t.dl.mode = .acquiring ∧ t.rm = (s.follow r .acquiring 0 c).rm ∧ t.ml = s.ml := by
    rw [is]
    split <;> simp [State.startSearch]
  obtain ⟨active, mode, rm, ml⟩ := items
  have stays : t.testRevert = t := by
    refine testRevert_of_not_due fun ⟨policy, _, onB, _, _, qualified, _⟩ => ?_
    obtain rfl : r = .b := Option.some.inj (active.symm.trans onB)
    refine absurd (first ?_) nofun
    rw [ml] at policy
    rw [rm, follow_rm] at qualified
    unfold State.usable
    rw [policy]
    exact beq_iff_eq.mpr qualified
  have acquired : s.acquire c = t := by
    unfold State.acquire
    rw [idle, found, ← stays, is]
    rfl
  rw [acquired]
  refine ⟨active, mode, ?_, fun none => ?_⟩
  · rw [rm, follow_rm]
    cases r <;> rfl
  · rw [is, if_neg fun ⟨on, free⟩ => none.elim (fun held => nomatch held.symm.trans free) fun off => nomatch off.symm.trans on]
    exact follow_search ..

theorem policyChanged_acquires (idle : isFollowing s.dl.mode = false) (free : s.dl.search = none)
    (usable : s.usable .a = true ∨ s.usable .b = true) : s.policyChanged = s.acquire .policy := by
  obtain ⟨r, found, -, -⟩ := usableRef_some usable
  unfold State.policyChanged
  dsimp only
  rw [abortSearch_of_none free, if_neg (by rw [idle]; exact nofun), found]

/-! ### The revertive setting and the revert holdoff (R42) -/

theorem follow_within_of_following (following : isFollowing s.dl.mode = true) (r : Ref) (m : TbMode) (b : Int) (c : TbCause) :
    Within [.rm, .dl, .eq, .sh] s (s.follow r m b c) := by
  refine ⟨fun k out => ?_⟩
  by_cases timebase : k = .tb
  · subst timebase
    exact follow_tb_of_following following ..
  · refine (follow_within ..).out k fun h => ?_
    revert out timebase h
    cases k <;> simp [loopBlocks]

/-- What the commands that test for a return to A leave, from the state `t` with the parameter written. -/
theorem exec_reverts {c : Instr} {req reply : List Octet} {f : Params → Params}
    (runs : exec c s = .next ((s.onParams f).testRevert.replied req reply)) :
    (¬ (s.onParams f).revertDue → exec c s = .next ((s.onParams f).replied req reply)) ∧
      ((s.onParams f).revertDue →
        ∃ t, exec c s = .next t ∧ t.ml = ((s.onParams f).replied req reply).ml ∧ t.dl.active = some .a ∧ t.dl.mode = s.dl.mode ∧
          t.dl.history = [] ∧ t.rm = { s.rm with a := { s.rm.a with buildOut := 0 } } ∧ Within [.ml, .rm, .dl, .eq, .sh] s t) := by
  refine ⟨fun stays => by rwa [testRevert_of_not_due stays] at runs, fun due => ?_⟩
  obtain ⟨-, -, -, mode, -⟩ := id due
  rw [testRevert_of_due due] at runs
  have within := follow_within_of_following (s := s.onParams f) ((isFollowing_iff _).mpr mode) .a s.dl.mode 0 .revert
  refine ⟨_, runs, replied_ml within (by decide) (by decide), follow_active .., follow_mode .., follow_history .., follow_rm .., ?_⟩
  exact Within.trans (t := s.onParams f) ((onParams_within ..).mono (by decide))
    (Within.trans (within.mono (by decide)) ((replied_within ..).mono (by decide)))

/-! ### The written values (R179, 11.6) -/

theorem policyOf_code (p : Policy) : policyOf (BitVec.ofNat 32 (policyCode p)).toInt = some p := by cases p <;> rfl

theorem onOff_code (b : Bool) : onOff (BitVec.ofNat 32 (boolCode b)).toInt = some b := by cases b <;> rfl

theorem policyOf_of_out {v : BitVec 32} (out : 3 < v.toNat) : policyOf v.toInt = none := by
  have other : ∀ k : BitVec 32, k.toNat ≤ 3 → v.toInt ≠ k.toInt := fun k small h =>
    absurd out (by rw [BitVec.eq_of_toInt_eq h]; omega)
  have auto : v.toInt ≠ 0 := other 0#32 (by decide)
  have forceA : v.toInt ≠ 1 := other 1#32 (by decide)
  have forceB : v.toInt ≠ 2 := other 2#32 (by decide)
  have forceHoldover : v.toInt ≠ 3 := other 3#32 (by decide)
  unfold policyOf
  rw [if_neg auto, if_neg forceA, if_neg forceB, if_neg forceHoldover]

/-- A written policy: its effect, and the reply with its code. -/
theorem exec_policy (requested : s.requested (writeRequest 7 (BitVec.ofNat 32 (policyCode p)))) (effect : s.writePolicy p = t)
    (e : t.tb.e = s.tb.e) :
    exec .writeReferencePolicy s = .next (t.replied (writeRequest 7 (BitVec.ofNat 32 (policyCode p))) (writeReply 7 (policyCode p))) := by
  rw [← effect] at e ⊢
  exact exec_param (c := .writeReferencePolicy) (x := p) (effect := State.writePolicy) (code := fun v => policyCode v)
    (allowed := fun _ _ => true) rfl (by decide) requested (policyOf_code p) rfl e (by cases p <;> decide) (by cases p <;> decide)

theorem exec_revertive {b : Bool} (requested : s.requested (writeRequest 8 (BitVec.ofNat 32 (boolCode b))))
    (effect : s.writeRevertive b = t) (e : t.tb.e = s.tb.e) :
    exec .writeRevertive s = .next (t.replied (writeRequest 8 (BitVec.ofNat 32 (boolCode b))) (writeReply 8 (boolCode b))) := by
  rw [← effect] at e ⊢
  exact exec_param (c := .writeRevertive) (x := b) (effect := State.writeRevertive) (code := fun v => boolCode v)
    (allowed := fun _ _ => true) rfl (by decide) requested (onOff_code b) rfl e (by cases b <;> decide) (by cases b <;> decide)

theorem SameTime.e (h : SameTime s t) : t.tb.e = s.tb.e := by
  unfold SameTime at h
  rw [h]

theorem testRevert_e (s : State) : s.testRevert.tb.e = s.tb.e := ((sameTime_loopKept s).testRevert (s := s) rfl).e

theorem policyChanged_e (s : State) : s.policyChanged.tb.e = s.tb.e := ((sameTime_loopKept s).policyChanged (s := s) rfl).e

/-- Settles O54: the policy by what it allows of the active reference, the revertive setting and the holdoff by the test for a
return. -/
theorem referenceParametersAct : Obligations.ReferenceParametersAct := by
  refine ⟨fun s v requested out => ?_, fun s p requested => ?_, ?_⟩
  · exact exec_param_of_none (c := .writeReferencePolicy) (effect := State.writePolicy) (allowed := fun _ _ => true)
      (code := fun v => policyCode v) rfl (by decide) requested (policyOf_of_out out)
  · intro req usable following
    refine ⟨fun same => exec_policy requested (if_pos same) rfl, fun changed => ?_⟩
    have within := policyChanged_within (s.underPolicy p)
    have ml : (s.underPolicy p).policyChanged.ml = (s.underPolicy p).ml := within.out .ml (by decide)
    have e := policyChanged_e (s.underPolicy p)
    have unusable : ∀ r, ¬ usable r → (s.underPolicy p).usable r = false := fun r not =>
      Bool.eq_false_iff.mpr fun can => not ((underPolicy_usable r).mp can)
    have effect : s.writePolicy p = (s.underPolicy p).policyChanged := if_neg changed
    refine ⟨_, exec_policy requested effect e, ?_, fun follows active allowed => ?_, fun r follows active forbidden can => ?_,
      fun r follows active forbidden cannot => ?_, fun idle free can => ?_, ?_⟩
    · refine Eq.trans (b := ((s.underPolicy p).replied req (writeReply 7 (policyCode p))).ml) ?_ rfl
      simp only [State.replied, ml, e]
      rfl
    · exact policyChanged_keeps (s := s.underPolicy p) ((isFollowing_iff _).mpr follows) active allowed
    · exact policyChanged_switches (s := s.underPolicy p) ((isFollowing_iff _).mpr follows) active forbidden
        ((underPolicy_usable _).mpr can)
    · exact policyChanged_leaves (s := s.underPolicy p) ((isFollowing_iff _).mpr follows) active forbidden (unusable _ cannot)
    · have idle : isFollowing (s.underPolicy p).dl.mode = false := Bool.eq_false_iff.mpr fun on => idle ((isFollowing_iff _).mp on)
      have can := can.imp (underPolicy_usable (s := s) .a).mpr (underPolicy_usable (s := s) .b).mpr
      have acquires : (s.underPolicy p).policyChanged = (s.underPolicy p).acquire .policy := policyChanged_acquires idle free can
      rw [acquires]
      obtain ⟨r, own, first, active, mode, buildOut, search⟩ := acquire_usable idle can .policy
      exact ⟨r, (underPolicy_usable r).mp own, fun a => first ((underPolicy_usable .a).mpr a), active, mode, buildOut,
        fun none => (search none).trans free⟩
    · exact Within.trans (t := s.underPolicy p) ((onParams_within ..).mono (by decide))
        (Within.trans (within.mono (by decide)) ((replied_within ..).mono (by decide)))
  · intro reverts
    refine ⟨fun s v requested out => ?_, fun s b requested => ⟨fun same => ?_, fun changed => ?_⟩, fun s v requested => ?_⟩
    · refine exec_param_of_none (c := .writeRevertive) (effect := State.writeRevertive) (allowed := fun _ _ => true)
        (code := fun v => boolCode v) rfl (by decide) requested ((onOff_toInt v).2.2 ?_ ?_)
      · exact fun off => absurd out (by rw [off]; decide)
      · exact fun on => absurd out (by rw [on]; decide)
    · exact exec_revertive requested (if_pos same) rfl
    · exact exec_reverts (exec_revertive requested (if_neg changed) (testRevert_e _))
    · exact exec_reverts (exec_number (c := .writeRevertHoldoff) (lo := 10) (hi := 3600)
        (effect := fun v t => (t.onParams fun p => { p with revertHoldoff := v }).testRevert) rfl (by decide) (by decide) (by decide)
        requested fun k => testRevert_e _)

end Sys2Proof.Machine
end

/-! PROOF. The unit table and the preset of a tally (R119, R121, R123, R128). -/

section
namespace Sys2Proof.Machine

variable {s t : State} {u : UnitNo}

/-! ### A unit after an event that derives its mode again (R123) -/

theorem failOpen_eq (st : Nat) (x : GenUnit) :
    x.failOpen st = { x with failures := (x.failOpen st).failures, attempt := none, cur := (x.failOpen st).cur, next := (x.failOpen st).next } := by
  unfold GenUnit.failOpen
  cases opened : x.attempt with
  | none => rw [if_neg nofun, ← opened]
  | some a => rw [if_pos (show (some a).isSome = true from rfl), fail_eq]

/-- What the event credits and closes: the old mode's bucket up to the tick, and an open attempt. -/
theorem reentered_items (m : UnitMode) (e : Nat) (x : GenUnit) :
    let y := (x.enter m e).failOpen e
    y.enabled = x.enabled ∧ y.modeMap = x.modeMap ∧ y.timeout = x.timeout ∧ y.mode = m ∧ y.entry = e ∧ y.attempt = none ∧
      y.starts = x.starts ∧ y.successes = x.successes ∧
      ∀ k : Fin 8, y.buckets[k] = x.buckets[k] + if k = modeIdx x.mode then e - x.entry else 0 := by
  intro y
  have eq : y = (x.enter m e).failOpen e := rfl
  rw [failOpen_eq, enter_eq] at eq
  rw [eq]
  refine ⟨rfl, rfl, rfl, rfl, rfl, rfl, rfl, rfl, fun k => ?_⟩
  refine (modifyAt_get ..).trans ?_
  split <;> rfl

/-- The derived mode depends on the unit's own entry and on the channel table. -/
theorem derivedMode_of_same (cm : t.cm = s.cm) (enabled : t.tu[u].enabled = s.tu[u].enabled) (modeMap : t.tu[u].modeMap = s.tu[u].modeMap) :
    derivedMode t u = derivedMode s u := by
  unfold derivedMode modeUnder
  rw [cm, enabled, modeMap]

theorem eventChange_of_same (s : State) (u : UnitNo) : s.eventChange u s.tu[u].mode = s := if_pos rfl

theorem eventChange_unit {m : UnitMode} (moves : m ≠ s.tu[u].mode) :
    (s.eventChange u m).tu[u] = (s.tu[u].enter m s.tb.e).failOpen s.tb.e ∧
      ∀ other, other ≠ u → (s.eventChange u m).tu[other] = s.tu[other] := by
  have tu := eventChange_tu u m s
  rw [if_neg moves] at tu
  rw [tu]
  exact ⟨modifyAt_self .., fun other apart => modifyAt_other _ _ _ _ (Ne.symm apart)⟩

theorem eventChange_mode (m : UnitMode) (s : State) (u : UnitNo) : (s.eventChange u m).tu[u].mode = m := by
  by_cases same : m = s.tu[u].mode
  · rw [same, eventChange_of_same]
  · rw [(eventChange_unit same).1]
    exact (reentered_items m s.tb.e s.tu[u]).2.2.2.1

/-- A unit's mode derived again is the one that the state after it derives. -/
theorem rederive_mode (u : UnitNo) (s : State) : (s.rederive u).tu[u].mode = derivedMode (s.rederive u) u := by
  have cm : (s.rederive u).cm = s.cm := (rederive_within u s).out .cm (by decide)
  unfold State.rederive at cm ⊢
  rw [eventChange_mode]
  by_cases same : derivedMode s u = s.tu[u].mode
  · rw [same, eventChange_of_same, same]
  · obtain ⟨unit, -⟩ := eventChange_unit same
    obtain ⟨enabled, modeMap, -⟩ := reentered_items (derivedMode s u) s.tb.e s.tu[u]
    exact (derivedMode_of_same cm (by rw [unit, enabled]) (by rw [unit, modeMap])).symm

/-! ### WRITE_UNIT (R119, R121, R123) -/

/-- The unit table entry written. -/
def GenUnit.withEntry (on : Bool) (map : Vector UnitMode 16) (timeout : Nat) (x : GenUnit) : GenUnit :=
  { x with enabled := on, modeMap := map, timeout := timeout }

theorem writeUnit_unit (on : Bool) (map : Vector UnitMode 16) (timeout : Nat) (s : State) :
    let t := s.writeUnit u on map timeout
    t.tu[u].enabled = on ∧ t.tu[u].modeMap = map ∧ t.tu[u].timeout = timeout ∧ t.tu[u].mode = derivedMode t u ∧
      (t.tu[u].mode = s.tu[u].mode → t.tu[u] = s.tu[u].withEntry on map timeout ∧ t.eq = s.eq) ∧
      (t.tu[u].mode ≠ s.tu[u].mode →
        t.tu[u].entry = s.tb.e ∧ t.tu[u].attempt = none ∧ t.tu[u].starts = s.tu[u].starts ∧
        t.tu[u].successes = s.tu[u].successes ∧
        ∀ k : Fin 8, t.tu[u].buckets[k] =
          s.tu[u].buckets[k] + if k = modeIdx s.tu[u].mode then s.tb.e - s.tu[u].entry else 0) ∧
      ∀ other : UnitNo, other ≠ u → t.tu[other] = s.tu[other] := by
  intro t
  obtain ⟨w, is⟩ : ∃ w, w = s.onUnit u (GenUnit.withEntry on map timeout) := ⟨_, rfl⟩
  have own : w.tu[u] = s.tu[u].withEntry on map timeout := by rw [is]; exact modifyAt_self ..
  have rest : ∀ other : UnitNo, other ≠ u → w.tu[other] = s.tu[other] := fun other apart => by
    rw [is]; exact modifyAt_other _ _ _ _ (Ne.symm apart)
  have mode : w.tu[u].mode = s.tu[u].mode := by rw [own]; rfl
  have result : t = w.eventChange u (derivedMode w u) := by rw [is]; rfl
  have derived : t.tu[u].mode = derivedMode t u := by rw [result]; exact rederive_mode u w
  by_cases same : derivedMode w u = w.tu[u].mode
  · have unit : t = w := by rw [result, same, eventChange_of_same]
    rw [unit, own] at derived ⊢
    refine ⟨rfl, rfl, rfl, derived, fun _ => ⟨rfl, by rw [is]; rfl⟩, fun moves => absurd rfl moves, rest⟩
  · obtain ⟨unit, others⟩ := eventChange_unit same
    rw [← result] at unit others
    obtain ⟨enabled, modeMap, timeout, entered, entry, attempt, starts, successes, buckets⟩ :=
      reentered_items (derivedMode w u) w.tb.e w.tu[u]
    rw [← unit, own] at enabled modeMap timeout starts successes buckets
    rw [← unit] at entered entry attempt
    refine ⟨enabled, modeMap, timeout, derived, fun stays => absurd (entered.symm.trans (stays.trans mode.symm)) same,
      fun _ => ⟨by rw [entry, is]; rfl, attempt, starts, successes, fun k => ?_⟩, fun other apart => (others other apart).trans (rest other apart)⟩
    rw [buckets k, show w.tb = s.tb by rw [is]; rfl]
    rfl

/-- The codes of a mode map. -/
def mapCodes (map : Vector UnitMode 16) : List Octet := map.toList.map fun m => BitVec.ofNat 8 (modeIdx m).val

theorem mapOctets_eq (map : Vector UnitMode 16) : mapOctets map = mapCodes map := by
  unfold mapOctets mapCodes
  rw [List.map_eq_flatMap]
  refine congrArg (List.flatMap · _) (funext fun m => natOctets_one ?_)
  have := (modeIdx m).isLt
  omega

theorem modeOfNat_modeIdx (m : UnitMode) : modeOfNat (modeIdx m).val = some m := by cases m <;> rfl

/-- The WRITE_UNIT request (11.5). -/
def unitRequest (u : UnitNo) (on : Bool) (map : Vector UnitMode 16) (timeout : Nat) : List Octet :=
  [0x30#8, BitVec.ofNat 8 u.val, BitVec.ofNat 8 (boolCode on)] ++ mapCodes map ++ natOctets 2 timeout

theorem mapCodes_length (map : Vector UnitMode 16) : (mapCodes map).length = 16 := by simp [mapCodes]

theorem unitRequest_fields {on : Bool} {map : Vector UnitMode 16} {timeout : Nat} (fits : timeout < 2 ^ 16) :
    (unitRequest u on map timeout).length = 21 ∧ unitOfNat (fieldAt (unitRequest u on map timeout) 1 1) = some u ∧
      flagOfNat (fieldAt (unitRequest u on map timeout) 2 1) = some on ∧ modeMapOf (unitRequest u on map timeout) 3 = some map ∧
      fieldAt (unitRequest u on map timeout) 19 2 = timeout := by
  have unit : fieldAt (unitRequest u on map timeout) 1 1 = u.val := by
    refine (fieldAt_first (BitVec.ofNat 8 u.val) _).trans ?_
    have := u.isLt
    rw [BitVec.toNat_ofNat]
    omega
  have modes : ∀ k : Fin 16, modeOfNat (fieldAt (unitRequest u on map timeout) (3 + k.val) 1) = some map[k] := fun k => by
    have inside : k.val < (mapCodes map).length := by rw [mapCodes_length]; exact k.isLt
    have code : fieldAt (unitRequest u on map timeout) (3 + k.val) 1 = (modeIdx map[k]).val := by
      rw [unitRequest, fieldAt_append_left (by simp [mapCodes_length]; omega), fieldAt_append_right (by simp),
        show 3 + k.val - ([0x30#8, BitVec.ofNat 8 u.val, BitVec.ofNat 8 (boolCode on)] : List Octet).length = k.val by simp,
        fieldAt_get inside]
      have := (modeIdx map[k]).isLt
      simp [mapCodes]
      omega
    rw [code, modeOfNat_modeIdx]
  refine ⟨by simp [unitRequest, mapCodes_length, natOctets_length], ?_, ?_, ?_, ?_⟩
  · rw [unit]; exact dif_pos u.isLt
  · refine (congrArg flagOfNat (fieldAt_first (BitVec.ofNat 8 (boolCode on)) _)).trans ?_
    cases on <;> rfl
  · have named : ((List.range 16).all fun k => (modeOfNat (fieldAt (unitRequest u on map timeout) (3 + k) 1)).isSome) = true :=
      List.all_eq_true.mpr fun k inside => by rw [modes ⟨k, List.mem_range.mp inside⟩]; rfl
    unfold modeMapOf
    rw [if_pos named]
    refine congrArg some (Vector.ext fun k inside => ?_)
    rw [Vector.getElem_ofFn, modes ⟨k, inside⟩]
    rfl
  · have field := fieldAt_number ([0x30#8, BitVec.ofNat 8 u.val, BitVec.ofNat 8 (boolCode on)] ++ mapCodes map) [] (k := 2) fits
    rwa [List.append_nil, List.length_append, mapCodes_length] at field

theorem exec_writeUnit {on : Bool} {map : Vector UnitMode 16} {timeout : Nat} (fits : timeout < 2 ^ 16)
    (requested : s.requested (unitRequest u on map timeout)) :
    exec .writeUnit s = .next ((s.writeUnit u on map (max 30 (min timeout 900))).replied (unitRequest u on map timeout)
      ([0x30#8, 0x00#8, BitVec.ofNat 8 u.val, BitVec.ofNat 8 (boolCode on)] ++ mapCodes map ++ natOctets 2 (max 30 (min timeout 900)))) := by
  obtain ⟨length, unit, enabled, modes, field⟩ := unitRequest_fields (u := u) (on := on) (map := map) fits
  have tb : (s.writeUnit u on map (max 30 (min timeout 900))).tb = s.tb := by
    refine Eq.trans (b := (s.onUnit u (GenUnit.withEntry on map (max 30 (min timeout 900)))).tb) ?_ rfl
    exact (rederive_within u _).out .tb (by decide)
  refine exec_request rfl requested rfl ((withLength_of length s).trans ?_) (congrArg Timebase.e tb)
  unfold writeUnit
  rw [unit, enabled, modes]
  dsimp only
  rw [field, mapOctets_eq, flagOctet, natOctets_one (by have := u.isLt; omega), natOctets_one (by cases on <;> decide)]
  rfl

/-! ### PRESET_TALLY (R128) -/

/-- The numbers of a preset, in the order of 11.5. -/
def presetNumbers (b : Vector Nat 8) (starts successes failures trips loadTrips : Nat) : List Nat :=
  b.toList ++ [starts, successes, failures, trips, loadTrips]

/-- The PRESET_TALLY request of a unit and its numbers. -/
def presetRequest (u : UnitNo) (l : List Nat) : List Octet := 0x32#8 :: BitVec.ofNat 8 u.val :: l.flatMap (natOctets 4)

theorem presetRequest_field {l : List Nat} (fits : ∀ m ∈ l, m < 2 ^ 32) {k : Nat} (inside : k < l.length) :
    fieldAt (presetRequest u l) (2 + 4 * k) 4 = l[k] := by
  rw [Nat.add_comm 2]
  exact fieldAt_flatMap fits inside

theorem presetRequest_unit (u : UnitNo) (l : List Nat) : unitOfNat (fieldAt (presetRequest u l) 1 1) = some u := by
  have unit : fieldAt (presetRequest u l) 1 1 = u.val := by
    refine (fieldAt_first (BitVec.ofNat 8 u.val) _).trans ?_
    have := u.isLt
    rw [BitVec.toNat_ofNat]
    omega
  rw [unit]
  exact dif_pos u.isLt

variable {b : Vector Nat 8} {starts successes failures trips loadTrips : Nat}

/-- The request spells its numbers: the buckets in seconds, the counters as they are. -/
theorem presetOf_request (fits : ∀ m ∈ presetNumbers b starts successes failures trips loadTrips, m < 2 ^ 32) :
    presetOf (presetRequest u (presetNumbers b starts successes failures trips loadTrips)) =
      { buckets := b.map (· * 64000), starts := starts, successes := successes, failures := failures, trips := trips, loadTrips := loadTrips } := by
  have length : (presetNumbers b starts successes failures trips loadTrips).length = 13 := by simp [presetNumbers]
  have field : ∀ k : Nat, ∀ inside : k < 13,
      fieldAt (presetRequest u (presetNumbers b starts successes failures trips loadTrips)) (2 + 4 * k) 4 =
        (presetNumbers b starts successes failures trips loadTrips)[k]'(by rw [length]; exact inside) :=
    fun k inside => presetRequest_field fits _
  have buckets : (Vector.ofFn fun k : Fin 8 =>
      fieldAt (presetRequest u (presetNumbers b starts successes failures trips loadTrips)) (2 + 4 * k.val) 4 * 64000) = b.map (· * 64000) :=
    Vector.ext fun k inside => by
      rw [Vector.getElem_ofFn, field k (by omega), Vector.getElem_map]
      simp [presetNumbers, List.getElem_append_left, inside]
  have counters : ∀ k, ∀ inside : k < 5,
      fieldAt (presetRequest u (presetNumbers b starts successes failures trips loadTrips)) (2 + 4 * (8 + k)) 4 =
        [starts, successes, failures, trips, loadTrips][k]'inside := fun k inside => by
    rw [field (8 + k) (by omega)]
    unfold presetNumbers
    rw [List.getElem_append_right (by simp)]
    simp
  unfold presetOf
  rw [buckets]
  exact congr (congr (congr (congr (congrArg _ (counters 0 (by decide))) (counters 1 (by decide))) (counters 2 (by decide)))
    (counters 3 (by decide))) (counters 4 (by decide))

theorem preset_base (p : Preset) (buckets : p.buckets = b.map (· * 64000)) : p.base = b.toList.sum * 64000 := by
  rw [Preset.base, buckets, Vector.toList_map, List.sum_map_mul_right, List.map_id']

theorem preset_ok (p : Preset) : p.ok = true ↔ p.base < 2 ^ 47 ∧ p.starts = p.successes + p.failures ∧ p.loadTrips ≤ p.trips := by
  simp only [Preset.ok, Bool.and_eq_true, decide_eq_true_eq, beq_iff_eq, and_assoc]
  rfl

/-- A preset sets the buckets, the counters, the base and the stamps, closes an open attempt, and keeps mode and history. -/
theorem preset_eq (p : Preset) (e : Nat) (x : GenUnit) :
    x.preset p e =
      { x with buckets := p.buckets, starts := p.starts, successes := p.successes, failures := p.failures, trips := p.trips, loadTrips := p.loadTrips, base := p.base, baseStamp := e, entry := e, attempt := none, cur := (x.preset p e).cur, next := (x.preset p e).next } := by
  have eq : x.preset p e = { (x.failOpen e).creditShift e with buckets := p.buckets, starts := p.starts, successes := p.successes, failures := p.failures, trips := p.trips, loadTrips := p.loadTrips, base := p.base, baseStamp := e, entry := e } := rfl
  rw [eq, creditShift_eq, failOpen_eq]

theorem presetTally_eq (l : List Nat) (s : State) :
    presetTally (presetRequest u l) s =
      if (presetOf (presetRequest u l)).ok then
        accept (presetRequest u l) ((presetRequest u l).drop 1) (s.onUnit u (GenUnit.preset (presetOf (presetRequest u l)) s.tb.e))
      else refuse (presetRequest u l) .badIndex s := by
  unfold presetTally
  rw [presetRequest_unit]

/-- Settles O57: the requests spell their fields; the entry is written and the mode derived again, or the tally preset. -/
theorem unitTableWritten : Obligations.UnitTableWritten := by
  refine ⟨fun s u on map timeout fits => ?_, fun s u b starts successes failures trips loadTrips bs f1 f2 f3 f4 f5 => ?_⟩
  · intro codes req applied requested
    obtain ⟨enabled, modeMap, start, mode, stays, moves, others⟩ := writeUnit_unit (u := u) on map applied s
    have within : Within [.tu, .eq, .sh] s (s.writeUnit u on map applied) :=
      Within.trans (t := s.onUnit u (GenUnit.withEntry on map applied)) ((onUnit_within ..).mono (by decide)) (rederive_within ..)
    exact ⟨_, exec_writeUnit fits requested, replied_ml within (by decide) (by decide), enabled, modeMap, start, mode, stays, moves,
      others, Within.trans (within.mono (by decide)) ((replied_within ..).mono (by decide))⟩
  · intro fields consistent requested
    obtain ⟨l, is⟩ : ∃ l, l = presetNumbers b starts successes failures trips loadTrips := ⟨_, rfl⟩
    have shape : [0x32#8] ++ fields = presetRequest u l := by
      rw [is]
      simp [fields, presetRequest, presetNumbers, List.flatMap_append]
    have small : ∀ m ∈ l, m < 2 ^ 32 := by
      intro m mem
      rw [is, presetNumbers, List.mem_append] at mem
      rcases mem with mem | mem
      · obtain ⟨k, inside, rfl⟩ := List.getElem_of_mem mem
        exact bs ⟨k, by simpa using inside⟩
      · simp only [List.mem_cons, List.not_mem_nil, or_false] at mem
        rcases mem with rfl | rfl | rfl | rfl | rfl <;> assumption
    obtain ⟨p, preset⟩ : ∃ p : Preset, p = ⟨b.map (· * 64000), starts, successes, failures, trips, loadTrips⟩ := ⟨_, rfl⟩
    have spells : presetOf (presetRequest u l) = p := by
      rw [is, preset]
      exact presetOf_request (is ▸ small)
    have base : p.base = b.toList.sum * 64000 := preset_base p (by rw [preset])
    have ok : p.ok = true ↔ consistent := by
      rw [preset_ok, base, preset]
    have length : (presetRequest u l).length = 54 := by
      show (l.flatMap (natOctets 4)).length + 1 + 1 = 54
      rw [flatMap_natOctets_length, is]
      simp [presetNumbers]
    have checks := (withLength_of (act := presetTally) length s).trans (presetTally_eq l s)
    rw [spells] at checks
    rw [shape] at requested ⊢
    refine ⟨fun bad => ?_, fun good => ?_⟩
    · exact exec_refused rfl requested rfl .badIndex (checks.trans (if_neg fun good => bad (ok.mp good)))
    · have tu : (s.onUnit u (GenUnit.preset p s.tb.e)).tu[u] = s.tu[u].preset p s.tb.e := modifyAt_self ..
      have unit := tu.trans (preset_eq ..)
      rw [base] at unit
      have reply : resultOctets (presetRequest u l) .ok ++ (presetRequest u l).drop 1 = [0x32#8, 0x00#8] ++ fields := by
        rw [← shape]
        rfl
      refine ⟨_, exec_request rfl requested rfl (checks.trans (if_pos (ok.mpr good))) rfl, ?_, fun k => ?_, congrArg GenUnit.base unit,
        congrArg GenUnit.baseStamp unit, congrArg GenUnit.entry unit, (congrArg GenUnit.starts unit).trans (by rw [preset]), (congrArg GenUnit.successes unit).trans (by rw [preset]),
        (congrArg GenUnit.failures unit).trans (by rw [preset]), (congrArg GenUnit.trips unit).trans (by rw [preset]), (congrArg GenUnit.loadTrips unit).trans (by rw [preset]), congrArg GenUnit.attempt unit,
        (congrArg GenUnit.mode unit :), (congrArg GenUnit.history unit :), fun other apart => modifyAt_other _ _ _ _ (Ne.symm apart), ?_⟩
      · rw [reply]
        rfl
      · refine (congrArg (fun x : GenUnit => x.buckets[k]) unit).trans ?_
        rw [preset]
        exact Vector.getElem_map ..
      · exact Within.trans ((onUnit_within ..).mono (by decide)) ((replied_within ..).mono (by decide))

end Sys2Proof.Machine
end

/-! PROOF. The channel table written, and channels restarted (R68, R69, R82, R84, R121, R123). -/

section
namespace Sys2Proof.Machine

variable {s t : State} {u : UnitNo} {ch : Chan} {l : List Chan}

/-! ### Mode sources (R68) -/

theorem sourceUnit_iff (cm : Vector Channel 24) (ch : Chan) (u : UnitNo) :
    sourceUnit cm ch = some u ↔ modeSource cm u = some ch := by
  unfold sourceUnit
  constructor
  · intro source
    split at source
    · cases source
    · split at source
      · next claims => obtain rfl := Option.some.inj source; exact claims
      · cases source
  · intro source
    have claims : (cm[ch].entry.claims u) = true := List.find?_some (p := fun ch : Chan => cm[ch].entry.claims u) source
    simp only [ChannelEntry.claims, Bool.and_eq_true, beq_iff_eq] at claims
    have own : groupUnit cm[ch].entry.group = some u := by rw [claims.2]; exact groupUnit_of_val rfl
    rw [own]
    exact if_pos source

/-! ### Changes of several channels -/

/-- A change that gains nothing from being made twice, made to the channels of a list. -/
theorem foldl_onChannel {f : Channel → Channel} (once : ∀ x, f (f x) = f x) {g : State → Chan → State}
    (changes : ∀ s ch, (g s ch).cm = modifyAt s.cm ch f) (l : List Chan) (s : State) (ch : Chan) :
    (l.foldl g s).cm[ch] = if ch ∈ l then f s.cm[ch] else s.cm[ch] := by
  induction l generalizing s with
  | nil => rfl
  | cons c l ih =>
    rw [List.foldl_cons, ih, changes]
    by_cases same : c = ch
    · subst same
      rw [modifyAt_self, once, if_pos List.mem_cons_self, ite_self]
    · rw [modifyAt_other _ _ _ _ same]
      simp only [List.mem_cons, Ne.symm same, false_or]

theorem discarded_within (l : List EventRecord) (s : State) : Within [.eq, .sh] s (l.foldl State.discardEntry s) :=
  foldl_keeps (P := fun t => Within [.eq, .sh] s t) (fun _ _ h => h.trans (lose_within ..)) l (.refl ..)

theorem restartChannel_cm (ch : Chan) (source : Option UnitNo) (s : State) :
    (s.restartChannel ch source).cm = modifyAt s.cm ch Channel.restart := by
  have restarted : ((s.cm[ch].store.foldl State.discardEntry s).onChannel ch Channel.restart).cm = modifyAt s.cm ch Channel.restart := by
    have cm : (s.cm[ch].store.foldl State.discardEntry s).cm = s.cm := (discarded_within ..).out .cm (by decide)
    exact congrArg (modifyAt · ch Channel.restart) cm
  unfold State.restartChannel
  dsimp only
  split
  · exact ((eventChange_within ..).out .cm (by decide)).trans restarted
  · exact restarted

theorem eventChange_others {other : UnitNo} (apart : other ≠ u) (m : UnitMode) (s : State) :
    (s.eventChange u m).tu[other] = s.tu[other] := by
  by_cases same : m = s.tu[u].mode
  · rw [same, eventChange_of_same]
  · exact (eventChange_unit same).2 other apart

/-- The unit whose mode source restarts enters UNKNOWN, and no other changes (R82, R123). -/
theorem restartChannel_unit (ch : Chan) (source : Option UnitNo) (s : State) (u : UnitNo) :
    (source = some u → (s.restartChannel ch source).tu[u].mode = .unknown) ∧
      (source ≠ some u → (s.restartChannel ch source).tu[u] = s.tu[u]) := by
  obtain ⟨w, is⟩ : ∃ w, w = (s.cm[ch].store.foldl State.discardEntry s).onChannel ch Channel.restart := ⟨_, rfl⟩
  have tu : w.tu = s.tu := by rw [is]; exact (discarded_within ..).out .tu (by decide)
  have result : s.restartChannel ch source = match source with | some u => w.eventChange u .unknown | none => w := by rw [is]; rfl
  rw [result]
  cases source with
  | none => exact ⟨nofun, fun _ => by rw [tu]⟩
  | some v =>
    refine ⟨fun same => ?_, fun other => ?_⟩
    · obtain rfl := Option.some.inj same
      exact eventChange_mode ..
    · rw [eventChange_others (fun same => other (congrArg some same.symm)), tu]

theorem restartChannel_unknown (unknown : s.tu[u].mode = .unknown) (ch : Chan) (source : Option UnitNo) :
    (s.restartChannel ch source).tu[u].mode = .unknown := by
  obtain ⟨enters, stays⟩ := restartChannel_unit ch source s u
  by_cases own : source = some u
  · exact enters own
  · rw [stays own]; exact unknown

theorem restart_restart (x : Channel) : x.restart.restart = x.restart := rfl

theorem restartChannels_cm (cm : Vector Channel 24) (l : List Chan) (s : State) (ch : Chan) :
    (s.restartChannels cm l).cm[ch] = if ch ∈ l then s.cm[ch].restart else s.cm[ch] :=
  foldl_onChannel restart_restart (fun s ch => restartChannel_cm ch (sourceUnit cm ch) s) l s ch

theorem restartChannels_unit (cm : Vector Channel 24) (l : List Chan) (s : State) (u : UnitNo) :
    ((∃ ch ∈ l, modeSource cm u = some ch) → (s.restartChannels cm l).tu[u].mode = .unknown) ∧
      ((∀ ch ∈ modeSource cm u, ch ∉ l) → (s.restartChannels cm l).tu[u] = s.tu[u]) := by
  induction l generalizing s with
  | nil => exact ⟨fun ⟨_, mem, _⟩ => (nomatch mem), fun _ => rfl⟩
  | cons c l ih =>
    obtain ⟨enters, stays⟩ := restartChannel_unit c (sourceUnit cm c) s u
    obtain ⟨later, others⟩ := ih (s.restartChannel c (sourceUnit cm c))
    refine ⟨fun ⟨ch, mem, source⟩ => ?_, fun out => ?_⟩
    · rcases List.mem_cons.mp mem with rfl | mem
      · exact foldl_keeps (P := fun t => t.tu[u].mode = .unknown) (fun _ _ h => restartChannel_unknown h ..) l
          (enters ((sourceUnit_iff cm ch u).mpr source))
      · exact later ⟨ch, mem, source⟩
    · refine (others fun ch source mem => out ch source (List.mem_cons_of_mem _ mem)).trans (stays fun own => ?_)
      exact out c ((sourceUnit_iff cm c u).mp own) List.mem_cons_self

/-! ### The sources determined again (R68, R123) -/

/-- A mode that is the derived one stays so as other units, or the unit itself, derive theirs. -/
theorem rederive_keeps_derived (derived : s.tu[u].mode = derivedMode s u) (v : UnitNo) :
    (s.rederive v).tu[u].mode = derivedMode (s.rederive v) u := by
  by_cases same : u = v
  · rw [same]; exact rederive_mode v s
  · have own : (s.rederive v).tu[u] = s.tu[u] := eventChange_others same ..
    rw [derivedMode_of_same ((rederive_within v s).out .cm (by decide)) (by rw [own]) (by rw [own]), own]
    exact derived

theorem redetermine_unit (before : Vector Channel 24) (s : State) (u : UnitNo) :
    (modeSource before u ≠ modeSource s.cm u → (s.redetermine before).tu[u].mode = derivedMode (s.redetermine before) u) ∧
      (modeSource before u = modeSource s.cm u → (s.redetermine before).tu[u] = s.tu[u]) := by
  obtain ⟨cm, is⟩ : ∃ cm, cm = s.cm := ⟨_, rfl⟩
  have mem : u ∈ allUnits := by revert u; decide
  unfold State.redetermine
  rw [← is]
  clear is
  refine ⟨fun changed => ?_, fun same => ?_⟩
  · generalize allUnits = l at mem
    induction l generalizing s with
    | nil => cases mem
    | cons v l ih =>
      rw [List.foldl_cons]
      rcases List.mem_cons.mp mem with rfl | mem
      · rw [if_neg changed]
        refine foldl_keeps (P := fun t => t.tu[u].mode = derivedMode t u) (fun t v h => ?_) l (rederive_mode u s)
        split
        · exact h
        · exact rederive_keeps_derived h v
      · exact ih _ mem
  · refine foldl_keeps (P := fun t => t.tu[u] = s.tu[u]) (fun t v h => ?_) allUnits rfl
    split
    · exact h
    · next moved => exact (eventChange_others (fun own => moved (by rw [← own]; exact same)) ..).trans h

/-! ### The requests (R84, 11.5) -/

theorem mem_channelsOf (set : Nat) (ch : Chan) : ch ∈ channelsOf set ↔ set.testBit ch.val = true := by
  unfold channelsOf
  rw [List.mem_filter]
  exact and_iff_right (by revert ch; decide)

theorem channelSetOk_iff (set : Nat) : channelSetOk set = true ↔ 0 < set ∧ set < 2 ^ 24 := by
  simp only [channelSetOk, Bool.and_eq_true, bne_iff_ne, decide_eq_true_eq]
  omega

theorem fieldAt_end {pre : List Octet} {i k n : Nat} (place : pre.length = i) (fits : n < 256 ^ k) :
    fieldAt (pre ++ natOctets k n) i k = n := by
  have field := fieldAt_number pre [] fits
  rwa [List.append_nil, place] at field

theorem roleOfNat_roleCode (r : Role) : roleOfNat (roleCode r) = some r := by cases r <;> rfl

/-- The entry that a WRITE_CHANNEL request names. -/
def entryWith (on : Bool) (role : Role) (g : Group) (trips : BitVec 16) (lat lim : Nat) : ChannelEntry :=
  { enabled := on, role := role, group := g, tripSet := trips, latency := min lat 255, chatterLimit := max 2 (min lim 15) }

/-- The WRITE_CHANNEL request (11.5). -/
def channelRequest (set : Nat) (on : Bool) (role : Role) (g : Group) (trips : BitVec 16) (lat lim : Nat) : List Octet :=
  [0x20#8] ++ natOctets 4 set ++ [BitVec.ofNat 8 (boolCode on), BitVec.ofNat 8 (roleCode role), BitVec.ofNat 8 g.val] ++
    natOctets 2 trips.toNat ++ natOctets 2 lat ++ natOctets 1 lim

theorem channelRequest_fields {set lat lim : Nat} {on : Bool} {role : Role} {g : Group} {trips : BitVec 16} (set32 : set < 2 ^ 32)
    (lat16 : lat < 2 ^ 16) (lim8 : lim < 2 ^ 8) :
    (channelRequest set on role g trips lat lim).length = 13 ∧ fieldAt (channelRequest set on role g trips lat lim) 1 4 = set ∧
      entryOf (channelRequest set on role g trips lat lim) 5 =
        if role = .mode ∧ g = 8 then none else some (entryWith on role g trips lat lim) := by
  have head : ([0x20#8] ++ natOctets 4 set).length = 5 := by simp [natOctets_length]
  obtain ⟨pre, is⟩ : ∃ pre, pre = [0x20#8] ++ natOctets 4 set ++
      ([BitVec.ofNat 8 (boolCode on), BitVec.ofNat 8 (roleCode role), BitVec.ofNat 8 g.val] : List Octet) := ⟨_, rfl⟩
  have shape : channelRequest set on role g trips lat lim = pre ++ natOctets 2 trips.toNat ++ natOctets 2 lat ++ natOctets 1 lim := by
    rw [is]; rfl
  have length : pre.length = 8 := by rw [is, List.length_append, head]; rfl
  have flags : ∀ k, ∀ inside : k < 3, fieldAt (channelRequest set on role g trips lat lim) (5 + k) 1 =
      (([BitVec.ofNat 8 (boolCode on), BitVec.ofNat 8 (roleCode role), BitVec.ofNat 8 g.val] : List Octet)[k]'inside).toNat :=
    fun k inside => by
      rw [shape, List.append_assoc, List.append_assoc, fieldAt_append_left (by rw [length]; omega), is,
        fieldAt_append_right (by rw [head]; omega), head, Nat.add_sub_cancel_left, fieldAt_get inside]
  have enabled : flagOfNat (fieldAt (channelRequest set on role g trips lat lim) 5 1) = some on := by
    rw [flags 0 (by decide)]
    cases on <;> rfl
  have named : roleOfNat (fieldAt (channelRequest set on role g trips lat lim) 6 1) = some role := by
    rw [flags 1 (by decide)]
    cases role <;> rfl
  have group : fieldAt (channelRequest set on role g trips lat lim) 7 1 = g.val := by
    have := g.isLt
    rw [flags 2 (by decide)]
    simp
    omega
  have tripSet : fieldAt (channelRequest set on role g trips lat lim) 8 2 = trips.toNat := by
    rw [shape, List.append_assoc, fieldAt_append_left (by simp [length, natOctets_length]), fieldAt_end length trips.isLt]
  have latency : fieldAt (channelRequest set on role g trips lat lim) 10 2 = lat := by
    rw [shape, fieldAt_append_left (by simp [length, natOctets_length]), fieldAt_end (by simp [length, natOctets_length]) lat16]
  have limit : fieldAt (channelRequest set on role g trips lat lim) 12 1 = lim := by
    rw [shape, fieldAt_end (by simp [length, natOctets_length]) lim8]
  refine ⟨by rw [shape]; simp [length, natOctets_length], ?_, ?_⟩
  · rw [shape, is]
    simp only [List.append_assoc]
    rw [← List.append_assoc]
    rw [fieldAt_append_left (by rw [head])]
    exact fieldAt_end rfl set32
  · unfold entryOf
    simp only [enabled, named, group, tripSet, latency, limit]
    rw [dif_pos g.isLt]
    have last : g.val = 8 ↔ g = 8 := ⟨fun h => Fin.ext h, fun h => by rw [h]; rfl⟩
    simp only [last, BitVec.ofNat_toNat, BitVec.setWidth_eq]
    rfl

/-- What restarts leave of the channels, the units and the other parts. -/
structure Restarted (set : Nat) (f : Channel → Channel) (s t : State) : Prop where
  channels : ∀ ch : Chan, t.cm[ch] = if set.testBit ch.val then f s.cm[ch] else s.cm[ch]
  within : Within [.cm, .tu, .eq, .sh] s t

theorem restartChannels_restarted (cm : Vector Channel 24) (set : Nat) (s : State) :
    Restarted set Channel.restart s (s.restartChannels cm (channelsOf set)) := by
  refine ⟨fun ch => ?_, (restartChannels_within ..).mono (by decide)⟩
  rw [restartChannels_cm]
  simp only [mem_channelsOf]

/-- An entry written to several channels. -/
def State.entered (l : List Chan) (e : ChannelEntry) (s : State) : State :=
  l.foldl (fun t ch => t.onChannel ch fun x => { x with entry := e }) s

theorem entered_within (l : List Chan) (e : ChannelEntry) (s : State) : Within [.cm] s (s.entered l e) :=
  foldl_keeps (P := fun t => Within [.cm] s t) (fun _ _ h => h.trans (onChannel_within ..)) l (.refl ..)

theorem entered_cm (l : List Chan) (e : ChannelEntry) (s : State) (ch : Chan) :
    (s.entered l e).cm[ch] = if ch ∈ l then { s.cm[ch] with entry := e } else s.cm[ch] :=
  foldl_onChannel (f := fun x => { x with entry := e }) (fun _ => rfl) (fun _ _ => rfl) l s ch

/-- The entries written, the channels restarted under the mode sources of before, and the sources determined again. -/
theorem writeEntries_eq (l : List Chan) (e : ChannelEntry) (s : State) :
    s.writeEntries l e = ((s.entered l e).restartChannels s.cm l).redetermine s.cm := rfl

theorem writeEntries_cm (set : Nat) (e : ChannelEntry) (s : State) :
    (s.writeEntries (channelsOf set) e).cm = ((s.entered (channelsOf set) e).restartChannels s.cm (channelsOf set)).cm :=
  (redetermine_within ..).out .cm (by decide)

theorem writeEntries_restarted (set : Nat) (e : ChannelEntry) (s : State) :
    Restarted set (fun x => { x.restart with entry := e }) s (s.writeEntries (channelsOf set) e) := by
  refine ⟨fun ch => ?_, ?_⟩
  · rw [writeEntries_cm, restartChannels_cm, entered_cm]
    simp only [mem_channelsOf]
    split <;> rfl
  · exact Within.trans ((entered_within ..).mono (by decide))
      (Within.trans ((restartChannels_within ..).mono (by decide)) ((redetermine_within ..).mono (by decide)))

theorem writeEntries_unit (set : Nat) (e : ChannelEntry) (s : State) (u : UnitNo) :
    let t := s.writeEntries (channelsOf set) e
    (∀ ch, modeSource s.cm u = some ch → modeSource t.cm u = some ch → set.testBit ch.val = true → t.tu[u].mode = .unknown) ∧
      (modeSource s.cm u ≠ modeSource t.cm u → t.tu[u].mode = derivedMode t u) ∧
      (modeSource s.cm u = modeSource t.cm u → (∀ ch ∈ modeSource s.cm u, set.testBit ch.val = false) → t.tu[u] = s.tu[u]) := by
  intro t
  obtain ⟨unknown, stays⟩ := restartChannels_unit s.cm (channelsOf set) (s.entered (channelsOf set) e) u
  obtain ⟨derives, same⟩ := redetermine_unit s.cm ((s.entered (channelsOf set) e).restartChannels s.cm (channelsOf set)) u
  have tu : (s.entered (channelsOf set) e).tu = s.tu := (entered_within ..).out .tu (by decide)
  rw [← writeEntries_cm, ← writeEntries_eq] at derives same
  refine ⟨fun ch before after own => ?_, derives, fun kept out => ?_⟩
  · rw [same (before.trans after.symm)]
    exact unknown ⟨ch, (mem_channelsOf set ch).mpr own, before⟩
  · rw [same kept, stays fun ch source mem => ?_, tu]
    exact nomatch (out ch source).symm.trans ((mem_channelsOf set ch).mp mem)

/-! ### The two commands (R84) -/

theorem writeChannel_checks {set lat lim : Nat} {on : Bool} {role : Role} {g : Group} {trips : BitVec 16} (set32 : set < 2 ^ 32)
    (lat16 : lat < 2 ^ 16) (lim8 : lim < 2 ^ 8) (s : State) :
    let req := channelRequest set on role g trips lat lim
    let e := entryWith on role g trips lat lim
    ((set = 0 ∨ 2 ^ 24 ≤ set ∨ (role = .mode ∧ g = 8)) → writeChannel req s = refuse req .badIndex s) ∧
      (0 < set → set < 2 ^ 24 → ¬ (role = .mode ∧ g = 8) →
        writeChannel req s = accept req (natOctets 4 set ++ e.octets) (s.writeEntries (channelsOf set) e)) := by
  intro req e
  obtain ⟨-, field, entry⟩ := channelRequest_fields (on := on) (role := role) (g := g) (trips := trips) set32 lat16 lim8
  unfold writeChannel
  dsimp only
  rw [field, entry]
  by_cases station : role = .mode ∧ g = 8
  · rw [if_pos station]
    exact ⟨fun _ => rfl, fun _ _ other => absurd station other⟩
  · rw [if_neg station]
    refine ⟨fun bad => if_neg fun ok => ?_, fun some low _ => if_pos ((channelSetOk_iff set).mpr ⟨some, low⟩)⟩
    have := (channelSetOk_iff set).mp ok
    rcases bad with bad | bad | bad
    · omega
    · omega
    · exact station bad

theorem restartChannel_checks {set : Nat} (set32 : set < 2 ^ 32) (s : State) :
    let req := [0x22#8] ++ natOctets 4 set
    restartChannel req s =
      if channelSetOk set then accept req (natOctets 4 set) (s.restartChannels s.cm (channelsOf set)) else refuse req .badIndex s := by
  intro req
  have field : fieldAt req 1 4 = set := fieldAt_end rfl set32
  unfold restartChannel
  dsimp only
  rw [field]

/-- Settles O56: the requests spell their set and entry, the restarts reach the channels of the set and the units whose sources
they are, and the sources are determined again. -/
theorem channelTableWritten : Obligations.ChannelTableWritten := by
  refine ⟨fun s set lat lim on role g trips set32 lat16 lim8 => ?_, fun s set set32 => ?_⟩
  · intro req e requested
    obtain ⟨length, -⟩ := channelRequest_fields (on := on) (role := role) (g := g) (trips := trips) set32 lat16 lim8
    obtain ⟨refused, taken⟩ := writeChannel_checks (on := on) (role := role) (g := g) (trips := trips) set32 lat16 lim8 s
    refine ⟨fun bad => ?_, fun some low unit => ?_⟩
    · exact exec_refused rfl requested rfl .badIndex ((withLength_of length s).trans (refused bad))
    · obtain ⟨channels, within⟩ := writeEntries_restarted set e s
      have units := writeEntries_unit set e s
      have tb : (s.writeEntries (channelsOf set) e).tb = s.tb := within.out .tb (by decide)
      refine ⟨_, exec_request rfl requested rfl ((withLength_of length s).trans (taken some low unit)) (congrArg Timebase.e tb), ?_,
        channels, fun u => (units u).1, fun u => (units u).2.1, fun u => (units u).2.2, ?_⟩
      · refine (replied_ml within (by decide) (by decide)).trans ?_
        rw [List.append_assoc]
        rfl
      · exact Within.trans (within.mono (by decide)) ((replied_within ..).mono (by decide))
  · intro req requested
    have length : req.length = 5 := by simp [req, natOctets_length]
    have checks := (withLength_of length s).trans (restartChannel_checks set32 s)
    refine ⟨fun bad => ?_, fun some low => ?_⟩
    · refine exec_refused rfl requested rfl .badIndex (checks.trans (if_neg fun ok => ?_))
      have := (channelSetOk_iff set).mp ok
      omega
    · obtain ⟨channels, within⟩ := restartChannels_restarted s.cm set s
      have units := restartChannels_unit s.cm (channelsOf set) s
      have tb : (s.restartChannels s.cm (channelsOf set)).tb = s.tb := within.out .tb (by decide)
      refine ⟨_, exec_request rfl requested rfl (checks.trans (if_pos ((channelSetOk_iff set).mpr ⟨some, low⟩))) (congrArg Timebase.e tb),
        replied_ml within (by decide) (by decide), fun ch => (channels ch).trans ?_, fun u ch source own => ?_, fun u out => ?_, ?_⟩
      · rfl
      · exact (units u).1 ⟨ch, (mem_channelsOf set ch).mpr own, source⟩
      · exact (units u).2 fun ch source mem => nomatch (out ch source).symm.trans ((mem_channelsOf set ch).mp mem)
      · exact Within.trans (within.mono (by decide)) ((replied_within ..).mono (by decide))

end Sys2Proof.Machine
end

/-! PROOF. The reading requests: the lengths and the heads of their replies, and the TICK that settles them (R177, R182). -/

section
namespace Sys2Proof.Machine

variable {s t : State}

/-! ### The lengths of the blocks (11.5) -/

theorem intOctets_length (k : Nat) (x : Int) : (intOctets k x).length = k := wordOctets_length ..

theorem zeros_length (n : Nat) : (zeros n).length = n := List.length_replicate

theorem orZeros_length {α : Type} {n : Nat} {f : α → List Octet} (length : ∀ x, (f x).length = n) (o : Option α) :
    (orZeros n f o).length = n := by
  cases o with
  | none => exact zeros_length n
  | some x => exact length x

theorem flatMap_length {α : Type} {k : Nat} {f : α → List Octet} (length : ∀ x, (f x).length = k) (l : List α) :
    (l.flatMap f).length = k * l.length := by
  induction l with
  | nil => rfl
  | cons x l ih => rw [List.flatMap_cons, List.length_append, length, ih, List.length_cons]; ring

theorem listOctets_length {α : Type} {k : Nat} {f : α → List Octet} (length : ∀ x, (f x).length = k) (n : Nat) (l : List α) :
    (listOctets n k f l).length = k * n := by
  unfold listOctets
  have few : (l.take n).length ≤ n := List.length_take_le ..
  rw [List.length_append, flatMap_length length, zeros_length, ← Nat.mul_add, Nat.add_sub_cancel' few]

theorem stampOctets_length (e : Nat) : (stampOctets e).length = 6 := natOctets_length ..

theorem flagOctet_length (b : Bool) : (flagOctet b).length = 1 := natOctets_length ..

theorem groupOctets_length (v : StationVals) : (groupOctets v).length = 11 := by
  simp [groupOctets, intOctets_length, natOctets_length, flagOctet_length]

theorem boundaryOctets_length (o : Option BoundaryId) : (boundaryOctets o).length = 6 := by
  cases o with
  | none => exact zeros_length 6
  | some b => simp [boundaryOctets, natOctets_length]

theorem stamp_length (x : Stamp) : x.octets.length = 15 := by simp [Stamp.octets, stampOctets_length, natOctets_length]

theorem timebaseBlock_length (s : State) : (timebaseBlock s).length = 36 := by
  simp [timebaseBlock, stampOctets_length, natOctets_length, intOctets_length]

theorem statusBlock_length (s : State) : (statusBlock s).length = 86 := by
  simp [statusBlock, timebaseBlock_length, refOctets, storeOctets, natOctets_length, intOctets_length]

theorem entryOctets_length (e : ChannelEntry) : e.octets.length = 8 := by simp [ChannelEntry.octets, natOctets_length]

theorem candidateOctets_length (o : Option Candidate) : (candidateOctets o).length = 20 := by
  cases o with
  | none => simp [candidateOctets, zeros_length]
  | some k => simp [candidateOctets, natOctets_length, stampOctets_length, groupOctets_length]

theorem runOctets_length (x : Channel) : (runOctets x).length = 18 := by
  unfold runOctets
  rw [List.length_append, natOctets_length, orZeros_length fun r => by simp [stampOctets_length, groupOctets_length]]

theorem rawOctets_length (o : Option Octet) : (rawOctets o).length = 2 := by cases o <;> rfl

theorem chatterOctets_length (o : Option Chatter) : (chatterOctets o).length = 25 := by
  cases o with
  | none => exact zeros_length 25
  | some c => simp [chatterOctets, natOctets_length, stampOctets_length, groupOctets_length]

theorem channelBlock_length (ch : Chan) (s : State) : (channelBlock ch s).length = 206 := by
  simp [channelBlock, natOctets_length, entryOctets_length, flagOctet_length, candidateOctets_length, runOctets_length, rawOctets_length,
    listOctets_length stampOctets_length, listOctets_length octets_length, chatterOctets_length, stampOctets_length]

theorem durationOctets_length (v : Vector Nat 8) : (durationOctets v).length = 48 := by
  unfold durationOctets
  rw [flatMap_length stampOctets_length]
  simp

theorem mapOctets_length (v : Vector UnitMode 16) : (mapOctets v).length = 16 := by
  rw [mapOctets_eq, mapCodes_length]

theorem attemptOctets_length (o : Option Attempt) : (attemptOctets o).length = 13 := by
  cases o with
  | none => exact zeros_length 13
  | some a => simp [attemptOctets, natOctets_length, stampOctets_length]

theorem shiftSet_length (d : ShiftSet) : d.octets.length = 66 := by
  simp [ShiftSet.octets, orZeros_length stampOctets_length, durationOctets_length, natOctets_length]

/-- The octets of a pair of the mode history. -/
theorem historyOctets_length (l : List (UnitMode × Nat)) :
    (listOctets 4 7 (fun p : UnitMode × Nat => natOctets 1 (modeIdx p.1).val ++ stampOctets p.2) l).length = 28 :=
  listOctets_length (fun p => by rw [List.length_append, natOctets_length, stampOctets_length]) 4 l

theorem tallyBlock_length (u : UnitNo) (s : State) : (tallyBlock u s).length = 230 := by
  unfold tallyBlock GenUnit.entryOctets GenUnit.counterOctets
  simp only [List.length_append, natOctets_length, stampOctets_length, flagOctet_length, mapOctets_length, historyOctets_length,
    durationOctets_length, attemptOctets_length, shiftSet_length]

theorem minuteOctets_length (l : List Nat) : (listOctets 6 2 (natOctets 2) l).length = 12 :=
  listOctets_length (f := natOctets 2) (natOctets_length 2) 6 l

theorem scheduleBlock_length (s : State) : (scheduleBlock s).length = 75 := by
  unfold scheduleBlock
  simp only [List.length_append, natOctets_length, minuteOctets_length, intOctets_length, boundaryOctets_length, flagOctet_length,
    stampOctets_length, orZeros_length stampOctets_length]

theorem shiftHeaderBlock_length (i : Nat) (r : ShiftRecord) : (shiftHeaderBlock i r).length = 74 := by
  simp [shiftHeaderBlock, natOctets_length, stamp_length, boundaryOctets_length, stampOctets_length]

theorem shiftUnitBlock_length (i : Nat) (u : UnitNo) (r : ShiftRecord) : (shiftUnitBlock i u r).length = 77 := by
  simp [shiftUnitBlock, natOctets_length, durationOctets_length, flagOctet_length]

/-! ### The commands that read (R177) -/

/-- An act that changes nothing, and whose answer does not depend on the request buffer. -/
def ReadsOnly (act : List Octet → State → Executed) : Prop :=
  ∀ req s x, act req { s with ml := { s.ml with request := x } } = ({ s with ml := { s.ml with request := x } }, (act req s).2)

theorem readsOnly_withLength {act : List Octet → State → Executed} (only : ReadsOnly act) (n : Nat) : ReadsOnly (withLength n act) := by
  intro req s x
  by_cases length : req.length = n
  · rw [withLength_of length, withLength_of length]
    exact only req s x
  · rw [withLength_of_other length, withLength_of_other length]
    rfl

theorem readsOnly_accept (block : State → List Octet)
    (fields : ∀ s x, block { s with ml := { s.ml with request := x } } = block s) : ReadsOnly fun req s => accept req (block s) s :=
  fun req s x => Prod.ext rfl (congrArg (resultOctets req .ok ++ ·) (fields s x))

theorem readsOnly_readParam : ReadsOnly readParam := fun req s x => by
  unfold readParam
  dsimp only
  split <;> rfl

theorem readsOnly_readChannel : ReadsOnly readChannel := fun req s x => by
  unfold readChannel
  split <;> rfl

theorem readsOnly_readTally : ReadsOnly readTally := fun req s x => by
  unfold readTally
  split <;> rfl

theorem readsOnly_readShift : ReadsOnly readShift := fun req s x => by
  unfold readShift
  dsimp only
  split
  · rfl
  · split
    · rfl
    · split <;> rfl

/-- The command executes the requests of a kind by an act that reads. -/
structure Reads (c : Instr) (k : Octet) (act : List Octet → State → Executed) : Prop where
  runs : ∀ s : State, s.after c = s.runRequest (hasKind k.toNat) act
  reading : readingOf k.toNat = some act
  only : ReadsOnly act

/-- The TICK at the end of E_x settles the reply from the state as the tick leaves it. -/
theorem Reads.settles {c : Instr} {k : Octet} {act : List Octet → State → Executed} (reads : Reads c k act) {l : List Octet}
    (running : s.inReset = false) (frame : s.tb.e % 16 = 0) (executed : s.ml.request = .executed (k :: l))
    (now : s.ml.executedAt = some s.tb.e) :
    ∃ t, exec .tick s = .next t ∧ t.ml = { s.ml with reply := settleReading act (k :: l) s.ml.reply s } ∧
      exec c { s with ml := { s.ml with request := .complete (k :: l) } } = .next (s.replied (k :: l) (act (k :: l) s).2) := by
  obtain ⟨runs, reading, only⟩ := reads
  have settled : s.settledReply = settleReading act (k :: l) s.ml.reply s := by
    unfold State.settledReply
    simp only [executed, now, if_true, kindOf_cons, reading]
  refine ⟨s.tick, rfl, ?_, ?_⟩
  · rw [tick_of_running running, settled]
  · have done := exec_request (s := { s with ml := { s.ml with request := .complete (k :: l) } }) (runs _) ⟨rfl, frame⟩
      (by rw [hasKind_cons]; exact beq_self_eq_true _) (only (k :: l) s (.complete (k :: l))) rfl
    exact done

theorem settleReading_of_other {act : List Octet → State → Executed} {k : Octet} (other : k ≠ 0x02#8) (l taken : List Octet) (s : State) :
    settleReading act (k :: l) taken s = (act (k :: l) s).2 :=
  if_neg fun ⟨kind, _⟩ => other (BitVec.eq_of_toNat_eq ((kindOf_cons k l).symm.trans kind))

theorem settleReading_time (act : List Octet → State → Executed) (l taken : List Octet) (s : State) :
    settleReading act (0x02#8 :: l) taken s =
      if showsSetting taken = true ∧ s.tb.pendingSetting = none then beforeSetting taken (act (0x02#8 :: l) s).2
      else (act (0x02#8 :: l) s).2 := by
  have kind : kindOf (0x02#8 :: l) = 0x02 := kindOf_cons ..
  unfold settleReading
  simp only [kind, true_and]

/-- A read that is taken: nothing changes but the executed request and its reply. -/
theorem Reads.answers {c : Instr} {k : Octet} {act : List Octet → State → Executed} (reads : Reads c k act) {l fields : List Octet}
    (requested : s.requested (k :: l)) (taken : act (k :: l) s = accept (k :: l) fields s) :
    exec c s = .next (s.replied (k :: l) ([k, 0x00#8] ++ fields)) :=
  exec_request (reads.runs s) requested (by rw [hasKind_cons]; exact beq_self_eq_true _) taken rfl

/-! ### The reading commands -/

theorem reads_status : Reads .readStatus 0x01#8 (withLength 1 readStatus) :=
  ⟨fun _ => rfl, rfl, readsOnly_withLength (readsOnly_accept statusBlock fun _ _ => rfl) 1⟩

theorem reads_time : Reads .readTime 0x02#8 (withLength 1 readTime) :=
  ⟨fun _ => rfl, rfl, readsOnly_withLength (readsOnly_accept timebaseBlock fun _ _ => rfl) 1⟩

theorem reads_param : Reads .readParam 0x11#8 (withLength 2 readParam) :=
  ⟨fun _ => rfl, rfl, readsOnly_withLength readsOnly_readParam 2⟩

theorem reads_channel : Reads .readChannel 0x21#8 (withLength 2 readChannel) :=
  ⟨fun _ => rfl, rfl, readsOnly_withLength readsOnly_readChannel 2⟩

theorem reads_tally : Reads .readTally 0x31#8 (withLength 2 readTally) :=
  ⟨fun _ => rfl, rfl, readsOnly_withLength readsOnly_readTally 2⟩

theorem reads_schedule : Reads .readSchedule 0x41#8 (withLength 1 readSchedule) :=
  ⟨fun _ => rfl, rfl, readsOnly_withLength (readsOnly_accept scheduleBlock fun _ _ => rfl) 1⟩

theorem reads_shift : Reads .readShift 0x42#8 (withLength 3 readShift) :=
  ⟨fun _ => rfl, rfl, readsOnly_withLength readsOnly_readShift 3⟩

/-! ### What each reply begins with -/

theorem statusBlock_head (s : State) : [0x4E#8, 0x24#8, 0x01#8] ++ natOctets 6 s.tb.e <+: statusBlock s := by
  unfold statusBlock timebaseBlock
  simp only [List.append_assoc]
  exact ⟨_, rfl⟩

theorem timebaseBlock_head (s : State) :
    natOctets 6 s.tb.e ++ natOctets 5 s.tb.reportedSeconds ++ natOctets 2 s.tb.reportedTick ++ intOctets 8 s.tb.delta <+: timebaseBlock s := by
  unfold timebaseBlock
  simp only [List.append_assoc]
  exact ⟨_, rfl⟩

theorem channelBlock_head (ch : Chan) (s : State) : BitVec.ofNat 8 ch.val :: s.cm[ch].entry.octets <+: channelBlock ch s := by
  unfold channelBlock
  rw [natOctets_one (by have := ch.isLt; omega)]
  simp only [List.append_assoc]
  exact ⟨_, rfl⟩

theorem tallyBlock_head (u : UnitNo) (s : State) : BitVec.ofNat 8 u.val :: natOctets 6 s.tb.e <+: tallyBlock u s := by
  unfold tallyBlock
  rw [natOctets_one (by have := u.isLt; omega)]
  simp only [List.append_assoc]
  exact ⟨_, rfl⟩

theorem scheduleBlock_head (s : State) : natOctets 1 s.hc.schedule.length <+: scheduleBlock s := by
  unfold scheduleBlock
  simp only [List.append_assoc]
  exact ⟨_, rfl⟩

theorem shiftHeaderBlock_head {i : Nat} (small : i < 256) (r : ShiftRecord) :
    [BitVec.ofNat 8 i, 0xFF#8] ++ natOctets 4 r.number ++ natOctets 1 (closeCode r.kind) <+: shiftHeaderBlock i r := by
  unfold shiftHeaderBlock
  rw [natOctets_one small]
  simp only [List.append_assoc]
  exact ⟨_, rfl⟩

theorem shiftUnitBlock_head {i : Nat} (small : i < 256) (u : UnitNo) (r : ShiftRecord) :
    [BitVec.ofNat 8 i, BitVec.ofNat 8 u.val] ++ natOctets 4 r.number <+: shiftUnitBlock i u r := by
  unfold shiftUnitBlock
  rw [natOctets_one small, natOctets_one (show u.val < 256 by have := u.isLt; omega)]
  simp only [List.append_assoc]
  exact ⟨_, rfl⟩

/-- An answer by its head and its length. -/
theorem Reads.answer {c : Instr} {k : Octet} {act : List Octet → State → Executed} (reads : Reads c k act) {l fields head : List Octet}
    {n : Nat} (requested : s.requested (k :: l)) (taken : act (k :: l) s = accept (k :: l) fields s) (begins : head <+: fields)
    (length : fields.length + 2 = n) :
    ∃ reply, exec c s = .next (s.replied (k :: l) reply) ∧ [k, 0x00#8] ++ head <+: reply ∧ reply.length = n :=
  ⟨_, reads.answers requested taken, (List.prefix_append_right_inj _).mpr begins, length⟩

theorem fieldAt_index {n : Nat} (small : n < 256) (k : Octet) (l : List Octet) : fieldAt (k :: BitVec.ofNat 8 n :: l) 1 1 = n := by
  rw [fieldAt_succ, fieldAt_first, BitVec.toNat_ofNat, Nat.mod_eq_of_lt small]

theorem readShift_of {i : Nat} {part : Octet} {r : ShiftRecord} (small : i < 256) (found : s.sh.ring[i]? = some r) :
    readShift [0x42#8, BitVec.ofNat 8 i, part] s =
      if part.toNat = 255 then accept [0x42#8, BitVec.ofNat 8 i, part] (shiftHeaderBlock i r) s
      else match unitOfNat part.toNat with
        | some u => accept [0x42#8, BitVec.ofNat 8 i, part] (shiftUnitBlock i u r) s
        | none => refuse [0x42#8, BitVec.ofNat 8 i, part] .badIndex s := by
  have named : fieldAt [0x42#8, BitVec.ofNat 8 i, part] 2 1 = part.toNat := fieldAt_first ..
  unfold readShift
  simp only [fieldAt_index small, named, found] <;> rfl

/-- Settles O51: each reading command answers its block, and the TICK answers the same request again. -/
theorem readsChangeNothing : Obligations.ReadsChangeNothing := by
  intro s answers station
  refine ⟨fun requested => ?_, fun requested => ?_, fun n small requested => ?_, fun ch requested => ?_, fun u requested => ?_,
    fun requested => ?_, fun i r small found => ⟨fun requested => ?_, fun u requested => ?_⟩, ?_⟩
  · exact reads_status.answer requested (withLength_of rfl s) (statusBlock_head s) (by rw [statusBlock_length])
  · have done := reads_time.answer requested (withLength_of rfl s) (timebaseBlock_head s) (by rw [timebaseBlock_length])
    simp only [← List.append_assoc] at done
    exact done
  · have taken : readParam [0x11#8, BitVec.ofNat 8 n] s = accept [0x11#8, BitVec.ofNat 8 n]
        (natOctets 1 n ++ intOctets 4 (s.paramInForce n) ++ intOctets 4 (s.ml.params.value n)) s := by
      unfold readParam
      simp only [fieldAt_index (show n < 256 by omega)]
      exact if_neg (by omega)
    rw [natOctets_one (by omega)] at taken
    exact reads_param.answer requested ((withLength_of rfl s).trans taken) (List.prefix_refl _) (by simp [intOctets_length])
  · have found : chanOfNat (fieldAt [0x21#8, BitVec.ofNat 8 ch.val] 1 1) = some ch := by
      rw [fieldAt_index (by have := ch.isLt; omega)]
      exact dif_pos ch.isLt
    have taken : readChannel [0x21#8, BitVec.ofNat 8 ch.val] s = accept [0x21#8, BitVec.ofNat 8 ch.val] (channelBlock ch s) s := by
      unfold readChannel
      rw [found]
    exact reads_channel.answer requested ((withLength_of rfl s).trans taken) (channelBlock_head ch s) (by rw [channelBlock_length])
  · have found : unitOfNat (fieldAt [0x31#8, BitVec.ofNat 8 u.val] 1 1) = some u := by
      rw [fieldAt_index (by have := u.isLt; omega)]
      exact dif_pos u.isLt
    have taken : readTally [0x31#8, BitVec.ofNat 8 u.val] s = accept [0x31#8, BitVec.ofNat 8 u.val] (tallyBlock u s) s := by
      unfold readTally
      rw [found]
    exact reads_tally.answer requested ((withLength_of rfl s).trans taken) (tallyBlock_head u s) (by rw [tallyBlock_length])
  · exact reads_schedule.answer requested (withLength_of rfl s) (scheduleBlock_head s) (by rw [scheduleBlock_length])
  · exact reads_shift.answer requested ((withLength_of rfl s).trans ((readShift_of small found).trans (if_pos rfl)))
      (shiftHeaderBlock_head small r) (by rw [shiftHeaderBlock_length])
  · have part : (BitVec.ofNat 8 u.val).toNat = u.val := by
      rw [BitVec.toNat_ofNat]
      have := u.isLt
      omega
    have named : unitOfNat u.val = some u := dif_pos u.isLt
    have taken := readShift_of (part := BitVec.ofNat 8 u.val) small found
    rw [part, if_neg (by have := u.isLt; omega), named] at taken
    exact reads_shift.answer requested ((withLength_of rfl s).trans taken) (shiftUnitBlock_head small u r)
      (by rw [shiftUnitBlock_length])
  · intro settles reads
    have plain : ∀ {c k act}, Reads c k act → k ≠ 0x02#8 → ∀ l, settles c (k :: l) fun now => now := by
      intro c k act reads other l running frame executed now
      obtain ⟨t, ticks, ml, again⟩ := reads.settles running frame executed now
      rw [settleReading_of_other other] at ml
      exact ⟨t, _, ticks, ml, again⟩
    refine ⟨fun x mem => ?_, fun l running frame executed now => ?_⟩
    · simp only [reads, List.mem_cons, List.not_mem_nil, or_false] at mem
      rcases mem with rfl | rfl | rfl | rfl | rfl | rfl
      · exact plain reads_status (by decide)
      · exact plain reads_param (by decide)
      · exact plain reads_channel (by decide)
      · exact plain reads_tally (by decide)
      · exact plain reads_schedule (by decide)
      · exact plain reads_shift (by decide)
    · obtain ⟨t, ticks, ml, again⟩ := reads_time.settles running frame executed now
      rw [settleReading_time] at ml
      exact ⟨t, _, ticks, ml, again⟩

end Sys2Proof.Machine
end

/-! PROOF. The boundaries of the schedule: which is the latest, how many are passed, where local time is evaluated, and how a
reached one acts (R139 to R142, R148). -/

section
namespace Sys2Proof.Machine

variable {s t v : State} {l : List Nat}

/-! ### The order of the boundaries (R139) -/

/-- A minute of a rising schedule lies at or before a second of day exactly when its place is below their count. -/
theorem getElem_le_iff_lt_countP (rising : l.Pairwise (· < ·)) (secs : Nat) {i : Nat} (inside : i < l.length) :
    l[i] * 60 ≤ secs ↔ i < l.countP fun m => m * 60 ≤ secs := by
  induction l generalizing i with
  | nil => cases inside
  | cons a l ih =>
    obtain ⟨above, rising⟩ := List.pairwise_cons.mp rising
    by_cases first : a * 60 ≤ secs
    · rw [List.countP_cons_of_pos (by simpa using first)]
      cases i with
      | zero => simpa using first
      | succ i =>
        rw [Nat.add_lt_add_iff_right]
        exact ih rising (Nat.lt_of_succ_lt_succ inside)
    · have none : (l.countP fun m => decide (m * 60 ≤ secs)) = 0 := by
        rw [List.countP_eq_zero]
        intro m mem
        have := above m mem
        simp only [decide_eq_true_eq]
        omega
      rw [List.countP_cons_of_neg (by simpa using first), none]
      cases i with
      | zero => simpa using first
      | succ i =>
        have := above _ (List.getElem_mem (Nat.lt_of_succ_lt_succ inside))
        simp only [List.getElem_cons_succ, Nat.not_lt_zero, iff_false]
        omega

/-- A boundary of a day lies at or before a local second: its day is past, or it is the day's and its minute is reached. -/
theorem boundary_le_iff (rising : l.Pairwise (· < ·)) (minutes : ∀ m ∈ l, m ≤ 1439) (secs d : Nat) {i : Nat} (inside : i < l.length) :
    d * 86400 + l[i] * 60 ≤ secs ↔
      d < secs / 86400 ∨ (d = secs / 86400 ∧ i < l.countP fun m => m * 60 ≤ secs % 86400) := by
  have small := minutes _ (List.getElem_mem inside)
  rw [← getElem_le_iff_lt_countP rising _ inside]
  omega

theorem latestBoundary_spec (rising : l.Pairwise (· < ·)) (minutes : ∀ m ∈ l, m ≤ 1439) (secs : Nat) :
    (∀ d i, latestBoundary l secs = some (d, i) →
      ∃ h : i < l.length, d * 86400 + l[i] * 60 ≤ secs ∧
        ∀ (d' i' : Nat) (h' : i' < l.length), d' * 86400 + l[i'] * 60 ≤ secs → d' < d ∨ (d' = d ∧ i' ≤ i)) ∧
      (latestBoundary l secs = none → ∀ (d i : Nat) (h : i < l.length), secs < d * 86400 + l[i] * 60) := by
  have count : (l.countP fun m => decide (m * 60 ≤ secs % 86400)) ≤ l.length := List.countP_le_length
  have passed := fun d i (h : i < l.length) => boundary_le_iff rising minutes secs d h
  unfold latestBoundary
  dsimp only
  split
  · refine ⟨fun d i found => ?_, nofun⟩
    obtain ⟨rfl, rfl⟩ := Prod.mk.inj (Option.some.inj found)
    refine ⟨by omega, (passed ..).mpr (by omega), fun d' i' h' le => ?_⟩
    have := (passed d' i' h').mp le
    omega
  · split
    · next earlier =>
      refine ⟨fun d i found => ?_, nofun⟩
      obtain ⟨rfl, rfl⟩ := Prod.mk.inj (Option.some.inj found)
      have some := List.length_pos_iff.mpr earlier.2
      refine ⟨by omega, (passed ..).mpr (by omega), fun d' i' h' le => ?_⟩
      have := (passed d' i' h').mp le
      omega
    · next never =>
      refine ⟨nofun, fun _ d i h => ?_⟩
      refine Nat.not_le.mp fun le => never ⟨?_, List.ne_nil_of_length_pos (Nat.lt_of_le_of_lt (Nat.zero_le _) h)⟩
      have := (passed d i h).mp le
      omega

/-- The latest boundary is the one that none passed follows. -/
theorem latestBoundary_iff (rising : l.Pairwise (· < ·)) (minutes : ∀ m ∈ l, m ≤ 1439) (secs : Nat) :
    (∀ d i, latestBoundary l secs = some (d, i) ↔
      ∃ h : i < l.length, d * 86400 + l[i] * 60 ≤ secs ∧
        ∀ (d' i' : Nat) (h' : i' < l.length), d' * 86400 + l[i'] * 60 ≤ secs → d' < d ∨ (d' = d ∧ i' ≤ i)) ∧
      (latestBoundary l secs = none ↔ ∀ (d i : Nat) (h : i < l.length), secs < d * 86400 + l[i] * 60) := by
  obtain ⟨latest, never⟩ := latestBoundary_spec rising minutes secs
  refine ⟨fun d i => ⟨latest d i, fun ⟨inside, past, last⟩ => ?_⟩, never, fun all => ?_⟩
  · cases found : latestBoundary l secs with
    | none => exact absurd past (Nat.not_le.mpr (never found d i inside))
    | some b =>
      obtain ⟨inside', past', last'⟩ := latest b.1 b.2 found
      have one := last b.1 b.2 inside' past'
      have other := last' d i inside past
      exact congrArg some (Prod.ext (by omega) (by omega))
  · cases found : latestBoundary l secs with
    | none => rfl
    | some b =>
      obtain ⟨inside, past, -⟩ := latest b.1 b.2 found
      exact absurd past (Nat.not_le.mpr (all b.1 b.2 inside))

/-- A boundary comes after another one: a later day, or a later place on its day. -/
def BoundaryId.after (p q : BoundaryId) : Prop := q.1 < p.1 ∨ (q.1 = p.1 ∧ q.2 < p.2)

/-- The boundaries of a schedule of `n` minutes counted up to a pair. -/
theorem after_iff {n : Nat} {p : BoundaryId} (place : p.2 < n) (q : BoundaryId) :
    BoundaryId.after p q ↔ boundariesThrough n (some q) ≤ p.1 * n + p.2 := by
  obtain ⟨d, i⟩ := p
  obtain ⟨e, j⟩ := q
  unfold BoundaryId.after boundariesThrough
  dsimp only at place ⊢
  rcases Nat.lt_trichotomy e d with less | rfl | more
  · have : e * n + n ≤ d * n := by rw [← Nat.succ_mul]; exact Nat.mul_le_mul_right n less
    omega
  · omega
  · have : d * n + n ≤ e * n := by rw [← Nat.succ_mul]; exact Nat.mul_le_mul_right n more
    omega

theorem after_all_iff {n : Nat} {p : BoundaryId} (place : p.2 < n) (o : Option BoundaryId) :
    (∀ q ∈ o, BoundaryId.after p q) ↔ boundariesThrough n o ≤ p.1 * n + p.2 := by
  cases o with
  | none => exact ⟨fun _ => Nat.zero_le _, fun _ => nofun⟩
  | some q =>
    rw [← after_iff place]
    exact ⟨fun all => all q rfl, fun one r mem => Option.some.inj mem ▸ one⟩

/-- The boundaries from a count up to another one, in order. -/
def boundariesBetween (n a b : Nat) : List BoundaryId := (List.range' a (b - a)).map fun k => (k / n, k % n)

theorem boundariesBetween_nodup (n a b : Nat) : (boundariesBetween n a b).Nodup := by
  refine List.Nodup.map (fun j k same => ?_) List.nodup_range'
  obtain ⟨days, places⟩ := Prod.mk.inj same
  rw [← Nat.div_add_mod j n, days, places, Nat.div_add_mod]

theorem boundariesBetween_length (n a b : Nat) : (boundariesBetween n a b).length = b - a := by
  simp [boundariesBetween]

theorem mem_boundariesBetween {n b : Nat} (none : n = 0 → b = 0) (a : Nat) (p : BoundaryId) :
    p ∈ boundariesBetween n a b ↔ p.2 < n ∧ a ≤ p.1 * n + p.2 ∧ p.1 * n + p.2 < b := by
  unfold boundariesBetween
  rw [List.mem_map]
  constructor
  · rintro ⟨k, mem, rfl⟩
    rw [List.mem_range'_1] at mem
    have some : 0 < n := Nat.pos_of_ne_zero fun zero => by have := none zero; omega
    have whole : k / n * n + k % n = k := by rw [Nat.mul_comm]; exact Nat.div_add_mod k n
    exact ⟨Nat.mod_lt k some, by rw [whole]; omega, by rw [whole]; omega⟩
  · rintro ⟨place, low, high⟩
    refine ⟨p.1 * n + p.2, List.mem_range'_1.mpr ⟨low, by omega⟩, Prod.ext ?_ ?_⟩
    · rw [Nat.mul_comm, Nat.mul_add_div (by omega), Nat.div_eq_of_lt place, Nat.add_zero]
    · rw [Nat.mul_comm, Nat.mul_add_mod, Nat.mod_eq_of_lt place]

/-- The passed boundaries counted are those after both marks, at or before the latest (R140). -/
theorem passedCount_spec (n : Nat) (b : BoundaryId) (reached mark : Option BoundaryId) :
    ∃ l : List BoundaryId, l.Nodup ∧ l.length = passedCount n (some b) reached mark ∧
      ∀ p, p ∈ l ↔ p.2 < n ∧ ¬ BoundaryId.after p b ∧ (∀ q ∈ reached, BoundaryId.after p q) ∧ ∀ q ∈ mark, BoundaryId.after p q := by
  have none : n = 0 → boundariesThrough n (some b) = 0 := fun zero => by subst zero; simp [boundariesThrough]
  refine ⟨boundariesBetween n (max (boundariesThrough n reached) (boundariesThrough n mark)) (boundariesThrough n (some b)),
    boundariesBetween_nodup .., boundariesBetween_length .., fun p => ?_⟩
  rw [mem_boundariesBetween none, and_congr_right_iff]
  intro place
  rw [after_iff place, after_all_iff place, after_all_iff place]
  omega

/-! ### Where local time is evaluated (R140, R141) -/

/-- The HC's part comes last in a change of the offset. -/
theorem reportOffset_hands (q : Quality) (b : Bool) (r : Stamp → EventRecord) (s : State) :
    ∃ v, s.reportOffset q b r = v.onLocalTime b ∧ Within [.tb, .eq, .sh] s v :=
  ⟨_, rfl, Within.trans ((takeClass_within s).mono (by decide))
    (Within.trans ((offer_within ..).mono (by decide)) ((reportClass_within ..).mono (by decide)))⟩

theorem applyStep_hands (p : PendingStep) (s : State) :
    ∃ v, s.applyStep p = v.onLocalTime s.tb.unset ∧ Within [.tb, .rm, .eq, .sh] s v := by
  unfold State.applyStep
  dsimp only
  obtain ⟨w, is⟩ : ∃ w, w = (if s.tb.unset then
      ((s.setOffset (steppedOffset s.tb.e s.tb.delta p.amount)).onTb fun x => { x with pendingStep := none }).setU
        (s.activeAccuracy + p.residual.natAbs)
    else (s.setOffset (steppedOffset s.tb.e s.tb.delta p.amount)).onTb fun x => { x with pendingStep := none }) := ⟨_, rfl⟩
  have moved : Within [.tb, .rm] s ((s.setOffset (steppedOffset s.tb.e s.tb.delta p.amount)).onTb fun x => { x with pendingStep := none }) :=
    (setOffset_within ..).trans ((onTb_within ..).mono (by decide))
  have within : Within [.tb, .rm] s w := is ▸ .ite (moved.trans ((onTb_within ..).mono (by decide))) moved
  rw [← is]
  obtain ⟨v, hands, reported⟩ := reportOffset_hands s.tb.quality s.tb.unset
    (timeStepRecord s.dl.active s.tb.stepCount w.tb.stepCount (steppedOffset s.tb.e s.tb.delta p.amount - s.tb.delta)) w
  exact ⟨v, hands, (within.mono (by decide)).trans (reported.mono (by decide))⟩

theorem applySetting_hands (x : TimeSetting) (s : State) :
    ∃ v, s.applySetting x = v.onLocalTime s.tb.unset ∧ Within [.tb, .rm, .eq, .sh] s v := by
  unfold State.applySetting
  obtain ⟨v, hands, reported⟩ := reportOffset_hands s.tb.quality s.tb.unset
    (timeSetRecord s.tb.stepCount ((((s.setOffset ((x.seconds : Int) * 64000 - s.tb.e)).onTb fun y => { y with pendingSetting := none }).setU
      x.accuracy).tb.stepCount) ((x.seconds : Int) * 64000 - s.tb.e - s.tb.delta))
    (((s.setOffset ((x.seconds : Int) * 64000 - s.tb.e)).onTb fun y => { y with pendingSetting := none }).setU x.accuracy)
  refine ⟨v, hands, Within.trans ((setOffset_within _ s).mono (by decide)) (Within.trans ((onTb_within ..).mono (by decide))
    (Within.trans ((onTb_within ..).mono (by decide)) (reported.mono (by decide))))⟩

theorem plainSecond_hands (s : State) : ∃ v, s.plainSecond = v.onLocalTime false ∧ Within [.tb, .eq, .sh] s v :=
  ⟨_, rfl, Within.trans ((recomputeU_within s).mono (by decide))
    (Within.trans ((takeClass_within _).mono (by decide)) ((reportClass_within ..).mono (by decide)))⟩

/-- What an evaluation of local time makes of the handover. -/
def EvaluatesTo (s t : State) : Prop :=
  let latest := latestBoundary s.hc.schedule ((stationSeconds ((t.tb.e : Int) + t.tb.delta) : Int) + s.ml.params.localOffset * 60).toNat
  let passed := passedCount s.hc.schedule.length latest s.hc.lastReached s.hc.reachMark
  (latest = none ∨ passed = 0 → t.hc = s.hc) ∧
    ∀ b, latest = some b → passed ≠ 0 →
      ∃ v : State, Within [.tb, .rm, .dl, .up, .down, .hc, .eq, .sh] s v ∧ v.tb = t.tb ∧
        v.hc = { s.hc with missed := min (s.hc.missed + (passed - 1)) 65535, lastReached := some b, reachMark := some b } ∧
        t = v.actBoundary b s.tb.e

/-- What a re-seat makes of the handover. -/
def ReseatsTo (s t : State) : Prop :=
  t.hc = { s.hc with lastReached := latestBoundary s.hc.schedule ((stationSeconds ((t.tb.e : Int) + t.tb.delta) : Int) + s.ml.params.localOffset * 60).toNat }

/-- The HC's part by the unset flag: nothing while time is unset, a re-seat where it has just been set, an evaluation else. -/
theorem handed_local {first : Bool} (hands : t = v.onLocalTime first) (within : Within [.tb, .rm, .dl, .up, .down, .eq, .sh] s v)
    (e : t.tb.e = s.tb.e) :
    (t.tb.unset = true → t.hc = s.hc) ∧ (t.tb.unset = false → first = true → ReseatsTo s t) ∧
      (t.tb.unset = false → first = false → EvaluatesTo s t) := by
  have tb : t.tb = v.tb := hands ▸ onLocalTime_tb first v
  have hc : v.hc = s.hc := within.out .hc (by decide)
  have ml : v.ml = s.ml := within.out .ml (by decide)
  have step : t = if v.tb.unset then v else if first then v.reseat else v.evaluate := hands
  refine ⟨fun unset => ?_, fun set fresh => ?_, fun set old => ?_⟩
  · rw [step, if_pos (tb ▸ unset), hc]
  · have result : t = v.reseat := by rw [step, if_neg (by rw [← tb, set]; exact nofun), if_pos fresh]
    unfold ReseatsTo
    rw [tb, ← hc, ← ml, result]
    rfl
  · have result : t = v.evaluate := by
      rw [step, if_neg (by rw [← tb, set]; exact nofun), if_neg (by rw [old]; exact nofun)]
    have ve : v.tb.e = s.tb.e := tb ▸ e
    obtain ⟨idle, reaches⟩ := evaluate_cases v
    unfold EvaluatesTo
    rw [tb, ← hc, ← ml, ← ve]
    refine ⟨fun none => by rw [result, idle none], fun b latest some => ?_⟩
    refine ⟨_, ?_, ?_, rfl, result.trans (reaches b latest some)⟩
    · exact (within.mono (by decide)).trans ((onHc_within ..).mono (by decide))
    · rfl

theorem stepApplies_evaluates {p : PendingStep} (pending : s.tb.pendingStep = some p) (due : p.applyAt ≤ s.tb.e) :
    (s.tb.unset = true → ReseatsTo s s.stepApplies) ∧ (s.tb.unset = false → EvaluatesTo s s.stepApplies) := by
  rw [stepApplies_of_due pending due]
  obtain ⟨v, hands, within⟩ := applyStep_hands p s
  have tb := applyStep_tb p s
  obtain ⟨-, reseats, evaluates⟩ := handed_local hands (within.mono (by decide)) (by rw [tb])
  exact ⟨reseats (by rw [tb]), evaluates (by rw [tb])⟩

theorem secondBoundary_evaluates (boundary : s.atBoundary) :
    (s.tb.unset = true → s.tb.pendingSetting = none → s.secondBoundary.hc = s.hc) ∧
      (s.tb.unset = true → s.tb.pendingSetting.isSome → ReseatsTo s s.secondBoundary) ∧
      (s.tb.unset = false → EvaluatesTo s s.secondBoundary) := by
  rw [secondBoundary_of_atBoundary boundary]
  have latched := handed_within s
  obtain ⟨y, handed⟩ := handed_tb s
  cases pending : s.tb.pendingSetting with
  | some x =>
    rw [takeBoundary_of_setting pending]
    obtain ⟨v, hands, within⟩ := applySetting_hands x s.latchSecond.handStep
    have tb := applySetting_tb x s.latchSecond.handStep
    rw [handed] at hands
    obtain ⟨-, reseats, evaluates⟩ := handed_local hands ((latched.mono (by decide)).trans (within.mono (by decide))) (by rw [tb, handed])
    exact ⟨fun _ => nofun, fun unset _ => reseats (by rw [tb]) unset, fun set => evaluates (by rw [tb]) set⟩
  | none =>
    rw [takeBoundary_of_plain pending]
    obtain ⟨v, hands, within⟩ := plainSecond_hands s.latchSecond.handStep
    have tb : s.latchSecond.handStep.plainSecond.tb.e = s.tb.e ∧ s.latchSecond.handStep.plainSecond.tb.unset = s.tb.unset := by
      rw [plainSecond_after, recomputeU_tb, handed]
      exact ⟨rfl, rfl⟩
    obtain ⟨idle, -, evaluates⟩ := handed_local hands ((latched.mono (by decide)).trans (within.mono (by decide))) tb.1
    exact ⟨fun unset _ => idle (tb.2.trans unset), fun _ => nofun, fun set => evaluates (tb.2.trans set) rfl⟩

/-! ### A reached boundary (R148, R150, R154, R155) -/

/-- The HC's items but the boundary, which is the one reached, and what a NOTICE changes. -/
def Handover.ItemsAt (b : BoundaryId) (g h : Handover) : Prop := g = { h with boundary := some b, queue := g.queue, tx := g.tx }

theorem holdAtBoundary_items (b : BoundaryId) (x : Resume) (r : Nat) (s : State) :
    ((s.onHc (Handover.noteBoundary b)).holdAtBoundary x r).hc.ItemsAt b { s.hc with state := .held, resume := x, heldSince := some r } :=
  State.announce_hc ..

theorem openWindow_items (b : BoundaryId) (r : Nat) (s : State) :
    let window := s.ml.params.handoverWindow * 3840000
    (s.ct.incident = true → ((s.onHc (Handover.noteBoundary b)).openWindow r).hc.ItemsAt b
      { s.hc with state := .held, resume := .windowOpen window, heldSince := some r }) ∧
    (s.ct.incident = false → ((s.onHc (Handover.noteBoundary b)).openWindow r).hc.ItemsAt b
      { s.hc with state := .windowOpen, timer := .window (r + window) }) := by
  intro window
  refine ⟨fun active => ?_, fun none => ?_⟩
  · have eq : (s.onHc (Handover.noteBoundary b)).openWindow r = (s.onHc (Handover.noteBoundary b)).holdAtBoundary (.windowOpen window) r :=
      if_pos active
    rw [eq]
    exact holdAtBoundary_items ..
  · have eq : (s.onHc (Handover.noteBoundary b)).openWindow r =
        ((s.onHc (Handover.noteBoundary b)).onHc fun h => { h with state := .windowOpen, timer := .window (r + window) }).announce
          s.hc.state .boundary .b (consoleCode s.hc.duty) := if_neg (by rw [show (s.onHc _).ct = s.ct from rfl, none]; exact nofun)
    rw [eq]
    exact State.announce_hc ..

/-- A cut of a kind at a boundary. -/
structure CutsAt (kind : CloseKind) (b : BoundaryId) (r : Nat) (s t : State) : Prop where
  items : t.hc.state = .settling ∧ t.hc.duty = none ∧ t.hc.settleEnd = some (r + 320) ∧ t.hc.missed = 0
  noted : ∃ c, t.sh.cut = some c ∧ c.kind = kind ∧ c.stamp = stampOf s.tb.vals r ∧ c.boundary = some b ∧ c.missed = s.hc.missed ∧ c.incoming = s.hc.incoming

theorem cutAtBoundary_items (kind : CloseKind) (x : Resume) (b : BoundaryId) (r : Nat) (s : State) :
    (s.ct.incident = true → ((s.onHc (Handover.noteBoundary b)).cutAtBoundary kind x r).hc.ItemsAt b
      { s.hc with state := .held, resume := x, heldSince := some r }) ∧
    (s.ct.incident = false → CutsAt kind b r s ((s.onHc (Handover.noteBoundary b)).cutAtBoundary kind x r)) := by
  refine ⟨fun active => ?_, fun none => ?_⟩
  · have eq : (s.onHc (Handover.noteBoundary b)).cutAtBoundary kind x r = (s.onHc (Handover.noteBoundary b)).holdAtBoundary x r :=
      if_pos active
    rw [eq]
    exact holdAtBoundary_items ..
  · have eq : (s.onHc (Handover.noteBoundary b)).cutAtBoundary kind x r = (s.onHc (Handover.noteBoundary b)).takeCut kind .boundary r :=
      if_neg (by rw [show (s.onHc _).ct = s.ct from rfl, none]; exact nofun)
    rw [eq]
    have hc := takeCut_hc kind .boundary r (s.onHc (Handover.noteBoundary b))
    exact ⟨by rw [hc]; exact ⟨rfl, rfl, rfl, rfl⟩, _, takeCut_cut .., rfl, rfl, rfl, rfl, rfl⟩

theorem actBoundary_of_noDuty (b : BoundaryId) (r : Nat) (state : s.hc.state = .noDuty) :
    (s.hc.shiftOpen = false ∨ s.ml.params.scheduleMode ≠ .console → s.actBoundary b r = s) ∧
      (s.ml.params.scheduleMode = .console → s.hc.shiftOpen = true →
        s.actBoundary b r = (s.onHc (Handover.noteBoundary b)).cutAtBoundary .unattended .cutUnattended r) := by
  unfold State.actBoundary
  rw [state]
  cases s.ml.params.scheduleMode with
  | console =>
    exact ⟨fun shut => if_neg (by rw [shut.resolve_right fun other => other rfl]; exact nofun), fun _ opened => if_pos opened⟩
  | auto => exact ⟨fun _ => rfl, nofun⟩

theorem actBoundary_of_onShift (b : BoundaryId) (r : Nat) (state : s.hc.state = .onShift) :
    s.actBoundary b r =
      if s.ml.params.scheduleMode = .console then (s.onHc (Handover.noteBoundary b)).openWindow r
      else (s.onHc (Handover.noteBoundary b)).cutAtBoundary .auto .cutAuto r := by
  unfold State.actBoundary
  rw [state]
  cases s.ml.params.scheduleMode <;> rfl

theorem actBoundary_of_overrun (b : BoundaryId) (r : Nat) (state : s.hc.state = .overrun) (console : s.ml.params.scheduleMode = .console) :
    s.actBoundary b r = (s.onHc (Handover.noteBoundary b)).openWindow r := by
  unfold State.actBoundary
  rw [state, console]

theorem actBoundary_missed (b : BoundaryId) (r : Nat) (state : s.hc.state = .windowOpen ∨ s.hc.state = .accepted ∨ s.hc.state = .held) :
    s.actBoundary b r = s.onHc fun h => (h.noteBoundary b).miss 1 := by
  unfold State.actBoundary
  rcases state with state | state | state <;> rw [state]

theorem actBoundary_deferred (b : BoundaryId) (r : Nat) (state : s.hc.state = .settling) :
    (s.actBoundary b r).hc.ItemsAt b { s.hc with deferred := some b, missed := if s.hc.deferred.isSome then min (s.hc.missed + 1) 65535 else s.hc.missed } ∧
      Within [.hc] s (s.actBoundary b r) := by
  have eq : s.actBoundary b r = s.onHc fun h => { (if h.deferred.isSome then h.miss 1 else h).noteBoundary b with deferred := some b } := by
    unfold State.actBoundary
    rw [state]
  rw [eq]
  refine ⟨?_, onHc_within ..⟩
  unfold Handover.ItemsAt
  rw [State.onHc_hc]
  split <;> rfl

/-- Settles O50: the order of the boundaries, the evaluation that comes last in a change of the offset, and the act of a reached
boundary by state and mode. -/
theorem boundaryActsByState : Obligations.BoundaryActsByState := by
  refine ⟨fun l secs rising minutes => latestBoundary_iff rising minutes secs, fun n latest reached mark => ⟨fun none => ?_, fun b found => ?_⟩,
    ⟨fun s boundary => ⟨_, rfl, secondBoundary_evaluates boundary⟩,
      fun s p pending due => ⟨_, rfl, stepApplies_evaluates pending due⟩⟩, fun s b r => ?_⟩
  · rw [none]
    exact Nat.zero_sub _
  · rw [found]
    exact passedCount_spec n b reached mark
  · intro t items console held window cuts
    obtain ⟨opensHeld, opens⟩ := openWindow_items b r s
    have cut : ∀ {kind}, CutsAt kind b r s t → cuts kind := fun ⟨⟨state, duty, settle, missed⟩, noted⟩ => ⟨state, duty, settle, missed, noted⟩
    refine ⟨fun state shut => (actBoundary_of_noDuty b r state).1 shut, fun state console opened none => cut ?_,
      fun state console opened active => ?_, fun state auto none => cut ?_, fun state auto active => ?_, fun state console none => ?_,
      fun state console active => ?_, fun state => ?_, fun state => ?_, actBoundary_within ..⟩
    · have eq : t = _ := (actBoundary_of_noDuty b r state).2 console opened
      exact eq ▸ (cutAtBoundary_items .unattended .cutUnattended b r s).2 none
    · exact ((actBoundary_of_noDuty b r state).2 console opened ▸ (cutAtBoundary_items .unattended .cutUnattended b r s).1 active :
        t.hc.ItemsAt b _)
    · have eq : t = _ := (actBoundary_of_onShift b r state).trans (if_neg auto)
      exact eq ▸ (cutAtBoundary_items .auto .cutAuto b r s).2 none
    · exact (((actBoundary_of_onShift b r state).trans (if_neg auto)) ▸ (cutAtBoundary_items .auto .cutAuto b r s).1 active :
        t.hc.ItemsAt b _)
    · have eq : t = (s.onHc (Handover.noteBoundary b)).openWindow r :=
        state.elim (fun state => (actBoundary_of_onShift b r state).trans (if_pos console)) fun state => actBoundary_of_overrun b r state console
      exact (eq ▸ opens none : t.hc.ItemsAt b _)
    · exact (((actBoundary_of_onShift b r state).trans (if_pos console)) ▸ opensHeld active : t.hc.ItemsAt b _)
    · have eq : t = s.onHc fun h => (h.noteBoundary b).miss 1 := actBoundary_missed b r state
      exact ⟨(eq ▸ rfl : t.hc.ItemsAt b _), eq ▸ onHc_within ..⟩
    · exact actBoundary_deferred b r state

end Sys2Proof.Machine
end

/-! PROOF. The frame that starts on the unit bus and what it leaves (R5, R54, R58, R60, R143, R145). -/

section
namespace Sys2Proof.Machine

variable {s : State}

/-! ### When it starts -/

theorem downlinkDue_iff (s : State) : s.downlinkDue = true ↔ s.frameDue := by
  unfold State.downlinkDue State.frameDue
  cases s.ubi.frame <;> simp [ticksPerFrame, and_assoc]

theorem downlinkStart_of_due (due : s.frameDue) : s.downlinkStart = s.startDownlink :=
  if_pos ((downlinkDue_iff s).mpr due)

theorem downlinkStart_of_not_due (early : ¬ s.frameDue) : s.downlinkStart = s :=
  if_neg fun due => early ((downlinkDue_iff s).mp due)

/-! ### What it leaves -/

/-- Reading the downward store leaves the bus and the handover as they were. -/
theorem readDown_within (s : State) : Within [.down, .eq, .sh] s s.readDown := by
  unfold State.readDown
  split
  · exact (readStore_within ..).mono (by decide)
  · exact .refl ..

/-- The bus items after the start: the frame with the distribution message it is part of. -/
theorem startDownlink_ubi (s : State) :
    s.startDownlink.ubi = { s.ubi with frame := some s.downlinkFrame, distribution := s.distribution } :=
  (readDown_within _).1 .ubi (by decide)

theorem startDownlink_hc (s : State) : s.startDownlink.hc = (s.hc.downlinkSlot s.tb.e).1 :=
  (readDown_within _).1 .hc (by decide)

/-! ### The flags and the grant -/

/-- The three parts of the flag octet do not overlap. -/
theorem downlinkFlags_toNat (t : Timebase) :
    (downlinkFlags t).toNat =
      (if t.toBoundary < 16 then 128 + t.toBoundary else 0) + if t.e / 16 % 8 = 0 then 64 else 0 := by
  unfold downlinkFlags octetOf bitAt frameNumber ticksPerFrame
  rw [BitVec.toNat_ofNat]
  simp only [decide_eq_true_eq, beq_iff_eq]
  split <;> split <;> omega

theorem grantField_of_grant {g : Grant} {n : Nat} {h : Handover} (granted : h.grant = some g) (before : g.frame + 1 = n) :
    (octetOf (h.grantField n)).toNat = g.console.val + 1 := by
  have below := g.console.isLt
  simp only [Handover.grantField, granted, if_pos before, octetOf, BitVec.toNat_ofNat]
  omega

theorem grantField_of_none {n : Nat} {h : Handover} (others : ∀ g, h.grant = some g → g.frame + 1 ≠ n) :
    octetOf (h.grantField n) = 0x00#8 := by
  unfold Handover.grantField
  split
  · next g granted => rw [if_neg (others g granted)]; rfl
  · rfl

/-! ### The commands -/

theorem readDown_of_lof (lof : s.sli.alignment = .lof) : s.readDown = s := by simp [State.readDown, lof]

theorem readDown_of_inFrame (aligned : s.sli.alignment = .inFrame) : s.readDown = s.readStore .down := by
  simp [State.readDown, aligned]

/-- What a read leaves in a store depends on that store alone. -/
theorem store_readStore_of_same {n : StoreName} {t : State} (same : t.store n = s.store n) :
    (t.readStore n).store n = (s.readStore n).store n := by
  cases frames : (s.store n).frames with
  | nil => rw [readStore_of_nil frames, readStore_of_nil (same ▸ frames), store_slip, store_slip, same]
  | cons g r => rw [readStore_of_cons frames, readStore_of_cons (same ▸ frames), store_setStore, store_setStore, same]

theorem startDownlink_down (aligned : s.sli.alignment = .inFrame) : s.startDownlink.down = (s.readStore .down).down := by
  have read : s.startDownlink = State.readStore .down _ := readDown_of_inFrame aligned
  rw [read]
  exact store_readStore_of_same (n := .down) rfl

theorem downCommands_of_inFrame (aligned : s.sli.alignment = .inFrame) : s.downCommands = s.down.front := by
  simp [State.downCommands, aligned]

/-! ### The console slot (R145) -/

/-- A message of the queue is four octets long. -/
theorem DownMsg.octets_four (m : DownMsg) : ∃ a b c d, m.octets = [a, b, c, d] := ⟨_, _, _, _, rfl⟩

theorem flush_of_ended {e x : Nat} {h : Handover} (sent : h.tx = some { frames := 2, start := x }) (past : x + 16 ≤ e) :
    h.flush e = { h with queue := h.queue.tail, tx := none } := by
  unfold Handover.flush
  rw [sent]
  exact if_pos ⟨le_refl 2, past⟩

theorem downlinkSlot_of_idle {e : Nat} {h : Handover} (sound : h.gap = false) (still : h.tx = none) (empty : h.queue = []) :
    h.downlinkSlot e = (h, 0xFF#8, 0xFF#8) := by
  unfold Handover.downlinkSlot
  rw [flush_of_first (h := h) (by simp [still])]
  simp [sound, empty]

theorem downlinkSlot_of_start {e : Nat} {h : Handover} {m : DownMsg} {q : List DownMsg} (sound : h.gap = false)
    (still : h.tx = none) (head : h.queue = m :: q) :
    h.downlinkSlot e =
      ({ h with tx := some { frames := 1, start := e } }, (m.octets[0]?).getD 0xFF#8, (m.octets[1]?).getD 0xFF#8) := by
  unfold Handover.downlinkSlot
  rw [flush_of_first (h := h) (by simp [still])]
  simp [sound, head, still]

theorem downlinkSlot_of_second {e x : Nat} {h : Handover} {m : DownMsg} {q : List DownMsg} (sound : h.gap = false)
    (first : h.tx = some { frames := 1, start := x }) (head : h.queue = m :: q) :
    h.downlinkSlot e =
      ({ h with tx := some { frames := 2, start := e } }, (m.octets[2]?).getD 0xFF#8, (m.octets[3]?).getD 0xFF#8) := by
  unfold Handover.downlinkSlot
  rw [flush_of_first (h := h) (by simp [first])]
  simp [sound, head, first]

theorem downlinkSlot_of_last {e x : Nat} {h : Handover} {m : DownMsg} (sound : h.gap = false)
    (sent : h.tx = some { frames := 2, start := x }) (past : x + 16 ≤ e) (head : h.queue = [m]) :
    h.downlinkSlot e = ({ h with queue := [], tx := none }, 0xFF#8, 0xFF#8) := by
  unfold Handover.downlinkSlot
  rw [flush_of_ended sent past]
  simp [sound, head]

/-- The console octets of the frame and the handover items are those of the decided slot. -/
theorem downlinkFrame_slot {h : Handover} {a b : Octet} (decided : s.hc.downlinkSlot s.tb.e = (h, a, b)) :
    s.downlinkFrame.console0 = a ∧ s.downlinkFrame.console1 = b ∧ s.startDownlink.hc = h := by
  refine ⟨?_, ?_, ?_⟩
  · exact congrArg (fun p : Handover × Octet × Octet => p.2.1) decided
  · exact congrArg (fun p : Handover × Octet × Octet => p.2.2) decided
  · rw [startDownlink_hc, decided]

/-- Settles O35. -/
theorem downlinkFrameHasItsContents : Obligations.DownlinkFrameHasItsContents := by
  unfold Obligations.DownlinkFrameHasItsContents
  refine fun s => ⟨fun early => congrArg Host.Outcome.next (downlinkStart_of_not_due early), fun due => ?_⟩
  intro ahead
  have within := downlinkStart_within s
  have run : exec .downlinkFrameStart s = .next s.startDownlink := congrArg Host.Outcome.next (downlinkStart_of_due due)
  rw [downlinkStart_of_due due] at within
  refine ⟨s.startDownlink, s.downlinkFrame, run, by rw [startDownlink_ubi], rfl, by rw [startDownlink_ubi], rfl,
    downlinkFlags_toNat s.tb, fun later => ?_, fun first => ?_, fun o taken => ?_, fun lof => ?_,
    fun g r aligned frames => ?_, fun aligned empty => ?_, fun g => grantField_of_grant, grantField_of_none,
    fun sound still empty => ?_, fun m q sound still head => ?_, fun m q x sound first head => ?_,
    fun m x sound sent past head => ?_, within⟩
  · rw [startDownlink_ubi]
    exact if_neg later
  · rw [startDownlink_ubi]
    exact ⟨distributionBody s.tb, if_pos first, rfl⟩
  · rw [startDownlink_ubi] at taken
    exact (congrArg (Option.getD · 0xFF#8) taken :)
  · refine ⟨by simp [State.downlinkFrame, State.downCommands, lof], ?_⟩
    rw [← downlinkStart_of_due due]
    exact downlinkStart_down_of_lof lof
  · refine ⟨(downCommands_of_inFrame aligned).trans (by simp [Elastic.front, frames]), ?_⟩
    rw [startDownlink_down aligned, readStore_of_cons (n := .down) (s := s) frames]
    rfl
  · refine ⟨(downCommands_of_inFrame aligned).trans (by simp [Elastic.front, empty]), ?_⟩
    rw [startDownlink_down aligned, readStore_of_nil (n := .down) (s := s) empty]
    exact congrArg Elastic.slips (store_slip .down .repeated s)
  · exact downlinkFrame_slot (downlinkSlot_of_idle sound still empty)
  · obtain ⟨console0, console1, hc⟩ := downlinkFrame_slot (downlinkSlot_of_start (e := s.tb.e) sound still head)
    obtain ⟨a, b, c, d, octets⟩ := m.octets_four
    rw [console0, console1, octets]
    exact ⟨rfl, rfl, hc⟩
  · obtain ⟨console0, console1, hc⟩ := downlinkFrame_slot (downlinkSlot_of_second (e := s.tb.e) sound first head)
    obtain ⟨a, b, c, d, octets⟩ := m.octets_four
    rw [console0, console1, octets]
    exact ⟨rfl, rfl, hc⟩
  · exact downlinkFrame_slot (downlinkSlot_of_last sound sent past head)

end Sys2Proof.Machine
end

/-! PROOF. The warm restart: what it clears, what it leaves, and the first record after it (R183, R184). -/

section
namespace Sys2Proof.Machine

variable {s t : State} {x : Search} {h : Handover} {e : Nat}

/-! ### When it acts (R183) -/

theorem restartDue_iff (s : State) :
    s.restartDue = true ↔ s.tb.e % 16 = 0 ∧ s.ml.reply = [] ∧ s.ml.request = .executed [0x60#8] := by
  unfold State.restartDue
  cases request : s.ml.request <;> simp [ticksPerFrame, isWarmRestart, and_assoc]

/-! ### What ends with the incident (R158) -/

/-- The end of an incident reaches of the units their shift sets alone. -/
theorem incidentEnds_units (s : State) (u : UnitNo) : s.tu[u].SameTally s.incidentEnds.tu[u] := by
  have kept : HandoverKept fun t => s.tu[u].SameTally t.tu[u] :=
    { apart := fun w h => by rw [w.out .tu (by decide)]; exact h
      offer := fun r _ h => by rw [State.offer_tu]; exact h
      openingCut := fun st h => h.trans (openingCut_sameTally st _ u)
      noteCut := fun k st h => h.trans (noteCut_sameTally k st _ u)
      closeShift := fun h => h.trans (closeShift_sameTally _ u) }
  exact kept.incidentEnds rfl

/-- The console slot is the same: the grant, the levels and the arrived message. -/
structure SameSlot (s t : State) : Prop where
  grant : t.hc.grant = s.hc.grant
  levels : t.hc.levels = s.hc.levels
  arrived : t.hc.arrived = s.hc.arrived

theorem SameSlot.refl (s : State) : SameSlot s s := ⟨rfl, rfl, rfl⟩

theorem SameSlot.trans {v : State} (h : SameSlot s t) (g : SameSlot t v) : SameSlot s v :=
  ⟨g.grant.trans h.grant, g.levels.trans h.levels, g.arrived.trans h.arrived⟩

theorem SameSlot.of_hc (same : t.hc = s.hc) : SameSlot s t := by constructor <;> rw [same]

theorem sameSlot_onHc {f : Handover → Handover}
    (keeps : ∀ h, (f h).grant = h.grant ∧ (f h).levels = h.levels ∧ (f h).arrived = h.arrived) (s : State) : SameSlot s (s.onHc f) := by
  obtain ⟨grant, levels, arrived⟩ := keeps s.hc
  exact ⟨grant, levels, arrived⟩

theorem sameSlot_resumeTo (x : HState) (y : HTimer) (s : State) : SameSlot s (s.resumeTo x y) := by
  constructor <;> rw [resumeTo_hc]

theorem sameSlot_takeCut (k : CloseKind) (c : HCause) (e : Nat) (s : State) : SameSlot s (s.takeCut k c e) := by
  constructor <;> rw [takeCut_hc] <;> rfl

/-- The end of an incident leaves the console slot. -/
theorem sameSlot_incidentEnds (s : State) : SameSlot s s.incidentEnds := by
  have counted := sameSlot_onHc (f := fun h => { h with heldTicks := h.heldTicks + (s.tb.e - h.heldSince.getD s.tb.e), heldSince := none })
    (fun _ => ⟨rfl, rfl, rfl⟩) s
  have resumed := fun t : State => sameSlot_onHc (f := fun h => { h with resume := .none }) (fun _ => ⟨rfl, rfl, rfl⟩) t
  unfold State.incidentEnds
  split
  · dsimp only
    split
    · exact counted.trans (sameSlot_resumeTo ..)
    · exact counted.trans (sameSlot_resumeTo ..)
    · exact counted.trans (sameSlot_resumeTo ..)
    · exact (counted.trans (resumed _)).trans (sameSlot_takeCut ..)
    · exact (counted.trans (resumed _)).trans (sameSlot_takeCut ..)
    · exact counted
  all_goals exact .refl _

/-- The end of an incident leaves the schedule and the ring of shift records. -/
theorem incidentEnds_ring (s : State) : s.incidentEnds.hc.schedule = s.hc.schedule ∧ s.incidentEnds.sh.ring = s.sh.ring := by
  have resumed : ∀ (t : State) a b, (t.resumeTo a b).hc.schedule = t.hc.schedule ∧ (t.resumeTo a b).sh.ring = t.sh.ring :=
    fun t a b => by
      rw [resumeTo_hc]
      exact ⟨rfl, by simp [State.resumeTo]⟩
  have cut : ∀ (t : State) k c e, (t.takeCut k c e).hc.schedule = t.hc.schedule ∧ (t.takeCut k c e).sh.ring = t.sh.ring :=
    fun t k c e => by
      rw [takeCut_hc]
      exact ⟨rfl, by simp [State.takeCut, State.makeCut, State.noteCut]⟩
  unfold State.incidentEnds
  split
  · dsimp only
    split
    · exact resumed ..
    · exact resumed ..
    · exact resumed ..
    · exact cut ..
    · exact cut ..
    · exact ⟨rfl, rfl⟩
  all_goals exact ⟨rfl, rfl⟩

/-! ### Step 4: the cascades (R118) -/

/-- The open cascades discarded. -/
def State.cascadesCleared (s : State) : State :=
  s.onCt fun _ => { slots := Vector.replicate 9 none, holdEnd := none, incident := false }

theorem restartCascades_of_other (other : s.hc.state ≠ .held ∨ s.ct.incident = false) : s.restartCascades = s.cascadesCleared := by
  unfold State.restartCascades
  cases running : s.ct.incident
  · rfl
  · have state : s.hc.state ≠ .held := other.resolve_right (by simp [running])
    exact incidentEnds_of_other state

theorem restartCascades_items (s : State) :
    s.restartCascades.ct = { slots := Vector.replicate 9 none, holdEnd := none, incident := false } ∧
      (∀ u : UnitNo, s.tu[u].SameTally s.restartCascades.tu[u]) ∧ s.restartCascades.hc.schedule = s.hc.schedule ∧
      SameSlot s s.restartCascades ∧ s.restartCascades.sh.ring = s.sh.ring ∧ Appended s s.restartCascades := by
  have result : s.restartCascades = if s.ct.incident then s.cascadesCleared.incidentEnds else s.cascadesCleared := rfl
  rw [result]
  split
  · obtain ⟨schedule, ring⟩ := incidentEnds_ring s.cascadesCleared
    have start : SameSlot s s.cascadesCleared := .of_hc rfl
    have slot := start.trans (sameSlot_incidentEnds s.cascadesCleared)
    exact ⟨incidentEnds_ct _, incidentEnds_units s.cascadesCleared, schedule, slot, ring, incidentEnds_appended s.cascadesCleared⟩
  · exact ⟨rfl, fun _ => rfl, rfl, ⟨rfl, rfl, rfl⟩, rfl, .refl _⟩

/-! ### Step 3: the units (R136) -/

theorem mem_allUnits (u : UnitNo) : u ∈ allUnits := by revert u; decide

theorem allUnits_nodup : allUnits.Nodup := by decide

/-- A unit changed once in a round over distinct units holds what the change gives it, of a unit that nothing before it changed. -/
theorem foldl_eventChange_unit (l : List UnitNo) (distinct : l.Nodup) (s : State) (u : UnitNo) :
    (l.foldl (fun t u => t.eventChange u .unknown) s).tu[u] =
      if u ∈ l ∧ s.tu[u].mode ≠ .unknown then (s.tu[u].enter .unknown s.tb.e).failOpen s.tb.e else s.tu[u] := by
  induction l generalizing s with
  | nil => simp
  | cons v l ih =>
    obtain ⟨absent, distinct⟩ := List.nodup_cons.mp distinct
    have e : (s.eventChange v .unknown).tb = s.tb := (eventChange_within ..).out .tb (by decide)
    rw [List.foldl_cons, ih distinct, e]
    by_cases own : u = v
    · subst own
      rw [if_neg fun h => absent h.1]
      by_cases same : s.tu[u].mode = .unknown
      · rw [if_neg fun h => h.2 same, ← same, eventChange_of_same]
      · rw [if_pos ⟨List.mem_cons_self .., same⟩, (eventChange_unit fun h => same h.symm).1]
    · rw [eventChange_others own]
      simp [own]

theorem restartUnits_unit (s : State) (u : UnitNo) :
    s.restartUnits.tu[u] =
      if s.tu[u].mode ≠ .unknown then (s.tu[u].enter .unknown s.tb.e).failOpen s.tb.e else s.tu[u] := by
  refine (foldl_eventChange_unit allUnits allUnits_nodup s u).trans ?_
  simp only [mem_allUnits, true_and]

/-- A unit brought to UNKNOWN keeps its table entry, its base and its trips. -/
theorem restartUnits_items (s : State) (u : UnitNo) :
    let y := s.restartUnits.tu[u]
    y.mode = .unknown ∧ y.enabled = s.tu[u].enabled ∧ y.modeMap = s.tu[u].modeMap ∧ y.base = s.tu[u].base ∧
      y.trips = s.tu[u].trips ∧ (s.tu[u].mode ≠ .unknown → y.attempt = none ∧ y.entry = s.tb.e) := by
  intro y
  have result : y = _ := restartUnits_unit s u
  by_cases unknown : s.tu[u].mode = .unknown
  · rw [if_neg (not_not.mpr unknown)] at result
    rw [result]
    exact ⟨unknown, rfl, rfl, rfl, rfl, fun other => absurd unknown other⟩
  · rw [if_pos unknown, failOpen_eq, enter_eq] at result
    rw [result]
    exact ⟨rfl, rfl, rfl, rfl, rfl, fun _ => ⟨rfl, rfl⟩⟩

theorem restartUnits_appended (s : State) : Appended s s.restartUnits :=
  foldl_keeps (P := fun t => Appended s t) (fun _ _ h => h.trans (eventChange_appended ..)) allUnits (.refl s)

/-- A change of mode with no attempt open offers no record. -/
theorem eventChange_eq_of_none {u : UnitNo} (closed : s.tu[u].attempt = none) (m : UnitMode) : (s.eventChange u m).eq = s.eq := by
  unfold State.eventChange State.failAttempt
  dsimp only
  split
  · rfl
  · have still : (s.onUnit u (GenUnit.enter m s.tb.e)).tu[u].attempt = none := by
      rw [State.onUnit_tu, modifyAt_self, enter_eq]; exact closed
    rw [still]
    rfl

theorem restartUnits_eq (closed : ∀ u : UnitNo, s.tu[u].attempt = none) : s.restartUnits.eq = s.eq := by
  refine (foldl_keeps (P := fun t => (∀ u : UnitNo, t.tu[u].attempt = none) ∧ t.eq = s.eq) (fun t v h => ?_) allUnits ⟨closed, rfl⟩).2
  obtain ⟨closed, eq⟩ := h
  refine ⟨fun u => ?_, (eventChange_eq_of_none (closed v) _).trans eq⟩
  by_cases own : u = v
  · subst own
    by_cases same : t.tu[u].mode = .unknown
    · rw [← same, eventChange_of_same]; exact closed u
    · rw [(eventChange_unit fun h => same h.symm).1]
      exact (reentered_items ..).2.2.2.2.2.1
  · rw [eventChange_others own]; exact closed u

/-! ### Step 2: the loop (R42, R49) -/

theorem restartLoop_of_none (still : s.dl.search = none) :
    s.restartLoop = s.onDl fun d => { d with confirmed := none, history := [] } := by
  have stays : s.endSearch = s := if_neg (by simp [still])
  unfold State.restartLoop
  rw [stays]

theorem restartLoop_of_running (running : s.dl.search = some x) :
    let back := ({ s with dl := { s.dl with search := none } } : State).revertDue
    s.restartLoop.tb = { s.tb with pendingTrim := x.savedT } ∧
      (¬ back → s.restartLoop.rm = s.rm ∧
        s.restartLoop.dl = { s.dl with confirmed := none, history := [], search := none, integral := x.savedI }) ∧
      (back → s.restartLoop.rm = s.rm.put .a { s.rm.get .a with buildOut := 0 } ∧ s.restartLoop.dl.active = some .a) ∧
      s.restartLoop.dl.search = none ∧ s.restartLoop.dl.integral = x.savedI ∧ s.restartLoop.dl.confirmed = none ∧
      s.restartLoop.dl.history = [] ∧ s.restartLoop.dl.mode = s.dl.mode := by
  intro back
  obtain ⟨stays, returns, tb⟩ := endSearch_items running
  obtain ⟨dl, -⟩ := abortSearch_items running
  have result : s.restartLoop = s.endSearch.onDl fun d => { d with confirmed := none, history := [] } := rfl
  rw [result]
  by_cases due : back
  · refine ⟨tb, fun h => absurd due h, fun _ => ?_, ?_⟩
    · rw [returns due]
      simp
    · rw [returns due]
      simp [dl]
  · refine ⟨tb, fun _ => ?_, fun h => absurd h due, ?_⟩
    · rw [stays due]
      simp [dl]
    · rw [stays due]
      simp [dl]

/-- The record of the aborted search is the first of a queue that was cleared. -/
theorem restartLoop_head (running : s.dl.search = some x) (empty : s.eq = EventQueue.cleared) (later : Appended s.restartLoop t) :
    t.eq.records.head? =
      some (mkRecord .timebase .a (refCode s.dl.active) (tbModeCode s.dl.mode) (tbModeCode s.dl.mode) 6 s.tb.now) := by
  have room : s.eq.records.length < 512 := by rw [empty]; decide
  have ends : s.endSearch = s.abortSearch.testRevert := if_pos (by rw [running]; rfl)
  have looped : Appended s.abortSearch s.restartLoop := by
    have result : s.restartLoop = s.endSearch.onDl fun d => { d with confirmed := none, history := [] } := rfl
    rw [result, ends]
    exact (testRevert_appended _).trans (.of_within (onDl_within ..) (by decide))
  have admitted := (abortSearch_admitted running room).append (looped.trans later)
  unfold State.admittedNext at admitted
  rw [empty] at admitted
  exact List.head?_eq_getElem?.trans admitted

/-! ### The restart -/

theorem restartActs_of_due (due : s.tb.e % 16 = 0 ∧ s.ml.reply = [] ∧ s.ml.request = .executed [0x60#8]) :
    s.restartActs = s.clearLinks.restartLoop.restartUnits.restartCascades :=
  if_pos ((restartDue_iff s).mpr due)

/-- What the steps after the clearing reach. -/
theorem restarted_within (s : State) :
    Within [.tb, .rm, .dl, .eq, .sh, .tu, .ct, .hc] s s.restartLoop.restartUnits.restartCascades :=
  ((restartLoop_within s).and ((restartUnits_within _).and (restartCascades_within _))).mono (by decide)

/-- The loop and the references after the restart, by the search that ran (R42, R49). -/
theorem clearLinks_restartLoop (s : State) :
    let b := s.clearLinks.restartLoop
    let back := s.dl.search.isSome ∧ ({ s with dl := { s.dl with search := none } } : State).revertDue
    b.tb = { s.tb with pendingSetting := none, pendingTrim := b.tb.pendingTrim } ∧
      (¬ back → b.rm = { s.rm with assembly := [], message := none }) ∧
      (back → b.rm = { s.rm with a := { s.rm.a with buildOut := 0 }, assembly := [], message := none } ∧ b.dl.active = some .a) ∧
      (∀ x, ¬ back → s.dl.search = some x →
        b.dl = { s.dl with confirmed := none, history := [], search := none, integral := x.savedI }) ∧
      (s.dl.search = none → b.tb.pendingTrim = s.tb.pendingTrim ∧ b.dl = { s.dl with confirmed := none, history := [] }) ∧
      (∀ x, s.dl.search = some x → b.tb.pendingTrim = x.savedT ∧ b.dl.search = none ∧ b.dl.integral = x.savedI ∧
        b.dl.confirmed = none ∧ b.dl.history = [] ∧ b.dl.mode = s.dl.mode) := by
  intro b back
  cases search : s.dl.search with
  | none =>
    have result : b = _ := restartLoop_of_none (s := s.clearLinks) search
    refine ⟨by rw [result]; rfl, fun _ => by rw [result]; rfl, fun h => ?_, nofun, fun _ => by rw [result]; exact ⟨rfl, rfl⟩, nofun⟩
    exact absurd h.1 (by simp [search])
  | some x =>
    obtain ⟨tb, stays, returns, ended, integral, confirmed, history, mode⟩ := restartLoop_of_running (s := s.clearLinks) search
    have running : s.dl.search.isSome = true := by rw [search]; rfl
    refine ⟨?_, fun h => (stays fun due => h ⟨running, due⟩).1, fun h => returns h.2, fun y h same => ?_, nofun, fun y same => ?_⟩
    · rw [tb]; rfl
    · cases same
      exact (stays fun due => h ⟨running, due⟩).2
    · cases same
      exact ⟨congrArg Timebase.pendingTrim tb, ended, integral, confirmed, history, mode⟩

/-! ### The records of the past shifts -/

theorem setMode_ring (m : TbMode) (r : Option Ref) (c : TbCause) (s : State) : (s.setMode m r c).sh.ring = s.sh.ring := by
  unfold State.setMode
  have dropped : (s.dropSetting m).sh = s.sh := by
    unfold State.dropSetting
    split <;> rfl
  split
  · rfl
  · simp [dropped]

theorem restartLoop_ring (s : State) : s.restartLoop.sh.ring = s.sh.ring := by
  have aborted : s.abortSearch.sh.ring = s.sh.ring := by
    unfold State.abortSearch
    split <;> simp
  have tested : ∀ t : State, t.testRevert.sh.ring = t.sh.ring := fun t => by
    unfold State.testRevert State.follow
    split
    · split
      · exact setMode_ring ..
      · rfl
    · rfl
  show s.endSearch.sh.ring = s.sh.ring
  unfold State.endSearch
  split
  · exact (tested _).trans aborted
  · rfl

theorem restartUnits_ring (s : State) : s.restartUnits.sh.ring = s.sh.ring := by
  unfold State.restartUnits
  refine foldl_keeps (P := fun t => t.sh.ring = s.sh.ring) (fun t u h => ?_) allUnits rfl
  refine Eq.trans ?_ h
  unfold State.eventChange State.failAttempt
  dsimp only
  split
  · rfl
  · split <;> simp

/-- The handover items after the restart: the slot cleared, and what a held handover resumes to (R143, R145, R158). -/
theorem restartCascades_hc (cleared : s.hc = h.clearSlot e) :
    let t := s.restartCascades
    t.hc.schedule = h.schedule ∧ t.hc.grant = none ∧ (∀ c : Console, t.hc.levels[c] = .normal) ∧
      (h.state ≠ .held ∨ s.ct.incident = false →
        t.hc.state = h.state ∧ t.hc.duty = h.duty ∧ t.hc.timer = h.timer ∧ t.hc.queue = []) := by
  intro t
  obtain ⟨-, -, schedule, same, -⟩ := restartCascades_items s
  have slot : s.hc = { h with levels := Vector.replicate 4 .normal, grant := none, queue := [], tx := none, gap := s.hc.gap } := by
    rw [cleared, Handover.clearSlot, Handover.flush_items]
  refine ⟨?_, ?_, fun c => ?_, fun other => ?_⟩
  · rw [schedule, slot]
  · rw [same.grant, slot]
  · rw [same.levels, slot]; simp
  · have state : s.hc.state = h.state := by rw [slot]
    have result : t = s.cascadesCleared := restartCascades_of_other (other.imp (fun still => state ▸ still) id)
    have hc : t.hc = s.hc := by rw [result]; rfl
    rw [hc, slot]
    exact ⟨rfl, rfl, rfl, rfl⟩

/-- Settles O59: the blocks that the restart clears are read off their Warm restart values, and the loop, the units and the
incident follow it one after the other. -/
theorem warmRestartKeepsWhatItMust : Obligations.WarmRestartKeepsWhatItMust := by
  refine ⟨fun s requested => ?_, fun s => ?_⟩
  · exact exec_request (s := s) rfl requested rfl (withLength_of rfl s) rfl
  intro due
  refine ⟨fun early => congrArg Host.Outcome.next (if_neg fun h => early ((restartDue_iff s).mp h)), fun acts => ?_⟩
  obtain ⟨b, isB⟩ : ∃ b, b = s.clearLinks.restartLoop := ⟨_, rfl⟩
  obtain ⟨c, isC⟩ : ∃ c, c = b.restartUnits := ⟨_, rfl⟩
  obtain ⟨t, isT⟩ : ∃ t, t = c.restartCascades := ⟨_, rfl⟩
  have run : s.restartActs = t := by rw [isT, isC, isB]; exact restartActs_of_due acts
  have loop : Within [.rm, .dl, .tb, .eq, .sh] s.clearLinks b := by rw [isB]; exact restartLoop_within _
  have units : Within [.tu, .eq, .sh] b c := by rw [isC]; exact restartUnits_within b
  have ends : Within [.ct, .hc, .eq, .sh, .tu] c t := by rw [isT]; exact restartCascades_within c
  have tail : Within [.tu, .eq, .sh, .ct, .hc] b t := (units.and ends).mono (by decide)
  have later : Within [.tb, .rm, .dl, .eq, .sh, .tu, .ct, .hc] s.clearLinks t := (loop.and tail).mono (by decide)
  have hc : c.hc = s.hc.clearSlot s.tb.e := (units.out .hc (by decide)).trans (loop.out .hc (by decide))
  have incident : c.ct.incident = s.ct.incident :=
    congrArg Cascades.incident ((units.out .ct (by decide)).trans (loop.out .ct (by decide)))
  have tu : b.tu = s.tu := loop.out .tu (by decide)
  have tbT : t.tb = b.tb := tail.out .tb (by decide)
  have rmT : t.rm = b.rm := tail.out .rm (by decide)
  have dlT : t.dl = b.dl := tail.out .dl (by decide)
  obtain ⟨tb, stays, returns, stopped, still, running⟩ := clearLinks_restartLoop s
  rw [← isB, ← tbT] at tb
  rw [← isB, ← rmT] at stays
  rw [← isB, ← rmT, ← dlT] at returns
  rw [← isB, ← dlT] at stopped
  rw [← isB, ← tbT, ← dlT] at still
  rw [← isB, ← tbT, ← dlT] at running
  obtain ⟨ct, sets, -, -, ring, appended⟩ := restartCascades_items c
  obtain ⟨schedule, grant, levels, handover⟩ := restartCascades_hc hc
  rw [← isT] at ct sets ring appended schedule grant levels handover
  have within : Within warmBlocks s t := run ▸ restartActs_within s
  refine ⟨t, congrArg Host.Outcome.next run, within, tb, ⟨stays, returns, stopped⟩, still, fun x search => ?_,
    later.out .up (by decide), later.out .down (by decide), fun ch => ?_, ?_, ⟨fun g => ?_, ?_, ?_⟩, fun u => ?_, ?_, ?_,
    schedule, grant, levels, fun other => handover (incident.symm ▸ other), fun search closed state => ?_⟩
  · obtain ⟨trim, ended, integral, confirmed, history, mode⟩ := running x search
    have appended : Appended b t := (isC ▸ restartUnits_appended b).trans appended
    exact ⟨trim, ended, integral, confirmed, history, mode, restartLoop_head (s := s.clearLinks) search rfl (isB ▸ appended)⟩
  · have cm : t.cm = s.cm.map Channel.warmRestart := later.out .cm (by decide)
    rw [cm]
    simp only [Fin.getElem_fin, Vector.getElem_map]
    rfl
  · have ra : t.ra = s.ra.cleared := later.out .ra (by decide)
    rw [ra]
    rfl
  · rw [ct]; simp
  · rw [ct]
  · rw [ct]
  · have e : b.tb.e = s.tb.e := by rw [← tbT, tb]
    have unit := restartUnits_items b u
    rw [← isC, tu, e] at unit
    have kept : t.tu[u] = { c.tu[u] with cur := t.tu[u].cur, next := t.tu[u].next } := sets u
    rw [kept]
    exact unit
  · have ml : t.ml = s.ml.warmRestart := later.out .ml (by decide)
    rw [ml, MgmtLink.warmRestart, ← acts.2.1]
  · rw [ring, isC, restartUnits_ring, isB, restartLoop_ring]
    rfl
  · have last : t = c.cascadesCleared := by
      rw [isT]
      refine restartCascades_of_other (.inl ?_)
      rw [hc, Handover.clearSlot, Handover.flush_items]
      exact state
    have eqT : t.eq = c.eq := by rw [last]; rfl
    have eqC : c.eq = b.eq := by rw [isC]; exact restartUnits_eq (by rw [tu]; exact closed)
    have eqB : b.eq = EventQueue.cleared := by rw [isB, restartLoop_of_none (s := s.clearLinks) search]; rfl
    rw [eqT, eqC, eqB]
    exact ⟨rfl, rfl, rfl, rfl, rfl⟩

end Sys2Proof.Machine
end

/-! PROOF. The management link: octets of a request taken, octets of a reply shown, and the end of a reply (R172 to R176). -/

section
namespace Sys2Proof.Machine

variable {s : State} {m : MgmtLink} {p f : MgmtField}

/-! ### An octet of a request (R173, R174) -/

theorem wants_iff (f : MgmtField) (m : MgmtLink) :
    m.wants f = true ↔ (m.lastTurn = none ∧ f.first = true) ∨ ∃ t, m.lastTurn = some t ∧ t ≠ f.turn := by
  unfold MgmtLink.wants
  cases m.lastTurn <;> simp [ne_comm]

theorem readOctet_of_unwanted (other : ¬ m.wants f = true) : m.readOctet f = m := if_neg other

theorem readOctet_of_stopping {n : Nat} (stopping : m.rx = .stopping n) : m.readOctet f = m := by
  simp [MgmtLink.readOctet, stopping]

theorem readOctet_of_idle (idle : m.rx = .idle) (later : f.first = false) : m.readOctet f = m := by
  simp [MgmtLink.readOctet, idle, later]

/-- A First octet that is wanted begins the request, or is stopped by a busy buffer. -/
theorem readOctet_of_first (wanted : m.wants f = true) (ready : m.rx = .idle ∨ ∃ n, m.rx = .receiving n) (first : f.first = true) :
    m.readOctet f = if m.request.busy then m.stopReception else m.takeOctet [f.octet] f := by
  unfold MgmtLink.readOctet
  rw [if_pos wanted]
  rcases ready with idle | ⟨n, receiving⟩
  · simp [idle, first]
  · simp [receiving, first]

theorem readOctet_of_next {n : Nat} (wanted : m.wants f = true) (receiving : m.rx = .receiving n) (later : f.first = false) :
    m.readOctet f = if 64 ≤ n then m.stopReception else m.takeOctet (m.request.octets ++ [f.octet]) f := by
  unfold MgmtLink.readOctet
  rw [if_pos wanted]
  simp [receiving, later]

theorem busy_iff (b : RequestBuffer) : b.busy = true ↔ (∃ l, b = .complete l) ∨ ∃ l, b = .executed l := by
  cases b <;> simp [RequestBuffer.busy]

theorem readInvalid_of_valid (valid : p.valid = true ∨ f.valid = true) : m.readInvalid p f = m := by
  unfold MgmtLink.readInvalid
  split
  · exact if_neg (by rcases valid with valid | valid <;> simp [valid])
  all_goals rfl

theorem readInvalid_of_receiving {n : Nat} (receiving : m.rx = .receiving n) (first : p.valid = false) (second : f.valid = false) :
    m.readInvalid p f = m.abandonReception := by
  simp [MgmtLink.readInvalid, receiving, first, second]

/-! ### A field (R172) -/

theorem sameOctet_iff (p f : MgmtField) : sameOctet p f = true ↔
    p.valid = true ∧ f.valid = true ∧ p.octet = f.octet ∧ p.turn = f.turn ∧ p.first = f.first ∧ p.last = f.last := by
  simp [sameOctet, and_assoc]

theorem read_of_previous (previous : m.previous = some p) :
    m.read f =
      { (if sameOctet p f then (m.readAnswers p f).readOctet f else (m.readAnswers p f).readInvalid p f) with
        previous := some f } := by
  simp [MgmtLink.read, previous]

/-- The last Echo after a field: a double-looked one is taken. -/
def MgmtLink.echoed (p f : MgmtField) (m : MgmtLink) : MgmtLink :=
  { m with lastEcho := if sameEcho p f then some f.echo else m.lastEcho }

theorem echoed_eq (p f : MgmtField) (m : MgmtLink) :
    (if sameEcho p f then { m with lastEcho := some f.echo } else m) = m.echoed p f := by
  unfold MgmtLink.echoed
  split <;> rfl

/-- With no reply being sent the answers of a field change the last Echo alone. -/
theorem readAnswers_of_quiet (quiet : ∀ i turn n, m.tx ≠ .sending i turn n) (p f : MgmtField) :
    m.readAnswers p f = m.echoed p f := by
  unfold MgmtLink.readAnswers
  simp only [echoed_eq]
  split
  · rfl
  · rfl
  · next i turn n sending => exact absurd sending (quiet i turn n)

/-- While a reply is sent a double Stop abandons it, and the Echo of its Turn brings the next octet or ends it. -/
theorem readAnswers_of_sending {i n : Nat} {turn : Bool} (sending : m.tx = .sending i turn n) (p f : MgmtField) :
    m.readAnswers p f =
      if bothStop p f then (m.echoed p f).abandonReply
      else if sameEcho p f ∧ f.echo = turn ∧ 1 ≤ n then
        if i + 1 < m.reply.length then { m.echoed p f with tx := .sending (i + 1) (!turn) 0 } else (m.echoed p f).endReply
      else m.echoed p f := by
  unfold MgmtLink.readAnswers
  simp only [echoed_eq]
  rw [show (m.echoed p f).tx = .sending i turn n from sending]
  rfl

/-- The ML reads the field of a frame taken in IN_FRAME, and nothing else of the frame reaches it. -/
theorem takeFrame_ml {fine : Fin 15625} {f : DownFrame} (frame : s.sli.alignment = .inFrame) (sync : f.hasSync = true) :
    (s.takeFrame fine f).ml = s.ml.read (mgmtFieldOf f) := by
  have timed : (s.timed fine f).ml = s.ml := (timed_within fine f s).out .ml (by decide)
  rw [takeFrame_of_inFrame frame sync]
  refine ((writeStore_within .down f.commands _).out .ml (by decide)).trans ?_
  rw [State.onMl_ml, timed]

/-- Settles O36: the answers of a field leave the reception, and each octet or field then has its own reading. -/
theorem requestOctetsTakenOnce : Obligations.RequestOctetsTakenOnce := by
  unfold Obligations.RequestOctetsTakenOnce
  intro s fine f p frame sync previous quiet g seen wanted busy
  have read := read_of_previous (f := g) previous
  rw [readAnswers_of_quiet quiet] at read
  have ml : (s.takeFrame fine f).ml = _ := (takeFrame_ml frame sync).trans read
  have isSeen : seen → sameOctet p g = true := (sameOctet_iff p g).mpr
  have isWanted : wanted ↔ s.ml.wants g = true := (wants_iff g s.ml).symm
  have isBusy : busy ↔ s.ml.request.busy = true := (busy_iff s.ml.request).symm
  have octet : seen → (s.takeFrame fine f).ml = { (s.ml.echoed p g).readOctet g with previous := some g } := fun h => by
    rw [ml, if_pos (isSeen h)]
  have invalid : p.valid = false ∨ g.valid = false →
      (s.takeFrame fine f).ml = { (s.ml.echoed p g).readInvalid p g with previous := some g } := fun h => by
    rw [ml, if_neg fun same => ?_]
    obtain ⟨first, second, -⟩ := (sameOctet_iff p g).mp same
    simp [first, second] at h
  refine ⟨s.takeFrame fine f, rfl, by rw [ml], ?_⟩
  intro same takes stops
  have keeps : ∀ m : MgmtLink, (s.takeFrame fine f).ml = { m with previous := some g } → m = s.ml.echoed p g → same :=
    fun m read unread => by
      rw [unread] at read
      simp only [same, read]
      exact ⟨rfl, rfl, rfl, rfl⟩
  have took : ∀ l, (s.takeFrame fine f).ml = { (s.ml.echoed p g).takeOctet l g with previous := some g } → takes l := fun l read => by
    simp only [takes, read]
    exact ⟨rfl, rfl, rfl, rfl⟩
  have stopped : (s.takeFrame fine f).ml = { (s.ml.echoed p g).stopReception with previous := some g } → stops := fun read => by
    simp only [stops, read]
    exact ⟨rfl, rfl, rfl, rfl⟩
  refine ⟨fun h other => ?_, fun h want ⟨n, stopping⟩ => ?_, fun h want idle later => ?_, fun h want ready first free => ?_,
    fun h want ready first full => ?_, fun n h want receiving later short => ?_, fun n h want receiving later long => ?_,
    fun n first second receiving => ?_, fun differ => ?_⟩
  · exact keeps _ (octet h) (readOctet_of_unwanted fun w => other (isWanted.mpr w))
  · exact keeps _ (octet h) (readOctet_of_stopping (m := s.ml.echoed p g) stopping)
  · exact keeps _ (octet h) (readOctet_of_idle (m := s.ml.echoed p g) idle later)
  · refine took _ ((octet h).trans ?_)
    rw [readOctet_of_first (m := s.ml.echoed p g) (isWanted.mp want) ready first,
      if_neg (c := (s.ml.echoed p g).request.busy = true) fun full => free (isBusy.mpr full)]
  · refine stopped ((octet h).trans ?_)
    rw [readOctet_of_first (m := s.ml.echoed p g) (isWanted.mp want) ready first,
      if_pos (c := (s.ml.echoed p g).request.busy = true) (isBusy.mp full)]
  · refine took _ ((octet h).trans ?_)
    rw [readOctet_of_next (m := s.ml.echoed p g) (isWanted.mp want) receiving later, if_neg (Nat.not_le.mpr short)]
    rfl
  · refine stopped ((octet h).trans ?_)
    rw [readOctet_of_next (m := s.ml.echoed p g) (isWanted.mp want) receiving later, if_pos long]
  · rw [invalid (.inl first), readInvalid_of_receiving (m := s.ml.echoed p g) receiving first second]
    exact ⟨rfl, rfl, rfl⟩
  · have one : (p.valid = false ∨ g.valid = false) ∧ (p.valid = true ∨ g.valid = true) := by
      revert differ
      cases p.valid <;> cases g.valid <;> decide
    exact keeps _ (invalid one.1) (readInvalid_of_valid one.2)

/-! ### A reply in the upward frames (R172, R175, R176) -/

/-- The five parts of the control octet do not overlap. -/
theorem controlOctet_toNat (valid turn first last echo stop : Bool) :
    (controlOctet valid turn first last echo stop).toNat / 16 =
        (if valid then 8 + (if turn then 4 else 0) + (if first then 2 else 0) + (if last then 1 else 0) else 0) ∧
      (controlOctet valid turn first last echo stop).toNat / 8 % 2 = (if echo then 1 else 0) ∧
      ((controlOctet valid turn first last echo stop).toNat / 4 % 2 = 1 ↔ stop = true) := by
  revert valid turn first last echo stop
  decide

theorem stops_iff (x : RxState) : x.stops = true ↔ ∃ n, x = .stopping n := by
  cases x <;> simp [RxState.stops]

/-- The upward frame shows Echo and Stop in every transmit state. -/
theorem shownOctets_flags (tx : TxState) (m : MgmtLink) :
    (m.shownOctets tx).2.toNat / 8 % 2 = (if m.echoSent then 1 else 0) ∧
      ((m.shownOctets tx).2.toNat / 4 % 2 = 1 ↔ ∃ n, m.rx = .stopping n) := by
  rw [← stops_iff]
  unfold MgmtLink.shownOctets
  split
  · exact (controlOctet_toNat ..).2
  · exact (controlOctet_toNat ..).2
  · exact (controlOctet_toNat ..).2

/-- What the start of an upward frame makes of the management link, and what the frame shows of it. -/
theorem startUpward_mgmt (s : State) :
    s.startUpward.ml = s.ml.startFrame ∧ s.startedFrame.frame.mgmt = (s.ml.shownOctets s.ml.startTx).1 ∧
      s.startedFrame.frame.control = (s.ml.shownOctets s.ml.startTx).2 := by
  have ml : (({ s with ra := (decideSlot s.eq s.ra).1 } : State).readStore .up).ml = s.ml := (startUpward_within s).out .ml (by decide)
  refine ⟨congrArg MgmtLink.startFrame ml, ?_, ?_⟩
  · exact congrArg (fun m : MgmtLink => (m.shownOctets m.startTx).1) ml
  · exact congrArg (fun m : MgmtLink => (m.shownOctets m.startTx).2) ml

theorem shown_of_waiting {o : Octet} {l : List Octet} (idle : m.tx = .idle) (reply : m.reply = o :: l) :
    m.startTx = .sending 0 (m.lastEcho ≠ some true) 1 ∧ (m.shownOctets m.startTx).1 = o ∧
      (m.shownOctets m.startTx).2.toNat / 16 = 10 + (if m.lastEcho = some true then 0 else 4) + (if l = [] then 1 else 0) := by
  have starts : m.startTx = .sending 0 (!m.lastEcho.getD false) 1 := by simp [MgmtLink.startTx, idle, reply]
  have turn : (!m.lastEcho.getD false) = decide (m.lastEcho ≠ some true) := by
    cases m.lastEcho with
    | none => rfl
    | some b => cases b <;> rfl
  have last : (0 + 1 == m.reply.length) = decide (l = []) := by rw [reply]; cases l <;> simp
  unfold MgmtLink.shownOctets
  rw [starts, idle]
  refine ⟨by rw [turn], by simp [reply], ?_⟩
  refine (controlOctet_toNat ..).1.trans ?_
  rw [turn, last]
  by_cases echo : m.lastEcho = some true
  · simp [echo]
  · simp [echo]

theorem shown_of_sending {i n : Nat} {turn : Bool} {o : Octet} (sending : m.tx = .sending i turn n) (octet : m.reply[i]? = some o) :
    m.startTx = .sending i turn (min (n + 1) 80) ∧ (m.shownOctets m.startTx).1 = o := by
  have starts : m.startTx = .sending i turn (min (n + 1) 80) := by simp [MgmtLink.startTx, sending]
  unfold MgmtLink.shownOctets
  rw [starts, sending]
  exact ⟨rfl, by simp [octet]⟩

theorem shown_of_none (none : (m.tx = .idle ∧ m.reply = []) ∨ ∃ n, m.tx = .abandoning n) :
    (m.shownOctets m.startTx).1 = 0xFF#8 ∧ (m.shownOctets m.startTx).2.toNat / 16 = 0 := by
  unfold MgmtLink.shownOctets
  rcases none with ⟨idle, empty⟩ | ⟨n, abandoned⟩
  · have starts : m.startTx = .idle := by simp [MgmtLink.startTx, idle, empty]
    rw [starts, idle]
    exact ⟨rfl, (controlOctet_toNat ..).1⟩
  · rw [abandoned]
    exact ⟨rfl, (controlOctet_toNat ..).1⟩

/-! ### The end of a reply (R175, R176, R183) -/

theorem afterReply_eq (b : RequestBuffer) :
    b.afterReply = match b with
      | .executed req => if req = [0x60#8] then .executed req else .empty
      | b => b := by
  cases b <;> simp [RequestBuffer.afterReply, isWarmRestart]

theorem timeout_of_early {i n : Nat} {turn : Bool} (sending : m.tx = .sending i turn n) (early : n < 80) : m.timeout = m := by
  unfold MgmtLink.timeout
  rw [sending]
  exact if_neg (Nat.not_le.mpr early)

theorem timeout_of_due {i n : Nat} {turn : Bool} (sending : m.tx = .sending i turn n) (due : 80 ≤ n) :
    m.timeout = m.abandonReply := by
  unfold MgmtLink.timeout
  rw [sending]
  exact if_pos due

theorem timeout_of_quiet (quiet : ∀ i turn n, m.tx ≠ .sending i turn n) : m.timeout = m := by
  unfold MgmtLink.timeout
  split
  · next i turn n sending => exact absurd sending (quiet i turn n)
  · rfl
  · rfl

/-- Reading octets leaves the reply being sent. -/
theorem readOctet_reply (f : MgmtField) (m : MgmtLink) : (m.readOctet f).tx = m.tx ∧ (m.readOctet f).reply = m.reply := by
  unfold MgmtLink.readOctet
  split
  · split
    · exact ⟨rfl, rfl⟩
    · split
      · split <;> exact ⟨rfl, rfl⟩
      · exact ⟨rfl, rfl⟩
    · split
      · split <;> exact ⟨rfl, rfl⟩
      · split <;> exact ⟨rfl, rfl⟩
  · exact ⟨rfl, rfl⟩

/-- Abandoned reception discards a partial request alone. -/
theorem readInvalid_reply (p f : MgmtField) (m : MgmtLink) :
    (m.readInvalid p f).tx = m.tx ∧ (m.readInvalid p f).reply = m.reply ∧
      ((∀ l, m.request ≠ .partialRequest l) → (m.readInvalid p f).request = m.request) := by
  unfold MgmtLink.readInvalid
  split
  · split
    · refine ⟨rfl, rfl, fun whole => ?_⟩
      show (match m.request with | .partialRequest _ => RequestBuffer.empty | b => b) = m.request
      split
      · next l part => exact absurd part (whole l)
      · rfl
    · exact ⟨rfl, rfl, fun _ => rfl⟩
  all_goals exact ⟨rfl, rfl, fun _ => rfl⟩

theorem read_reply (previous : m.previous = some p) :
    (m.read f).tx = (m.readAnswers p f).tx ∧ (m.read f).reply = (m.readAnswers p f).reply ∧
      (f.valid = false → (∀ l, (m.readAnswers p f).request ≠ .partialRequest l) →
        (m.read f).request = (m.readAnswers p f).request) := by
  rw [read_of_previous previous]
  by_cases same : sameOctet p f = true
  · rw [if_pos same]
    obtain ⟨-, valid, -⟩ := (sameOctet_iff p f).mp same
    exact ⟨(readOctet_reply ..).1, (readOctet_reply ..).2, fun invalid => absurd valid (by simp [invalid])⟩
  · rw [if_neg same]
    obtain ⟨tx, reply, request⟩ := readInvalid_reply p f (m.readAnswers p f)
    exact ⟨tx, reply, fun _ => request⟩

/-- Settles O37: what the upward frames show, the timeout, and the answers of a field. -/
theorem replyShownAndEnded : Obligations.ReplyShownAndEnded := by
  refine ⟨fun s due => ?_, fun s i turn n sending => ⟨fun early => ?_, fun late => ?_⟩, fun s quiet => ?_,
    fun s fine f p i turn n frame sync previous readable sending shown => ?_⟩
  · obtain ⟨ml, mgmt, control⟩ := startUpward_mgmt s
    obtain ⟨echo, stop⟩ := shownOctets_flags s.ml.startTx s.ml
    have tx : s.startUpward.ml.tx = s.ml.startTx := by rw [ml]; rfl
    have rx : s.startUpward.ml.rx = s.ml.rx.afterStopFrame := by rw [ml]; rfl
    refine ⟨s.startUpward, s.startedFrame, congrArg Host.Outcome.next (upwardStart_of_due due), by rw [startUpward_sli],
      by rw [ml]; rfl, ?_⟩
    rw [mgmt, control, tx, rx]
    refine ⟨fun o l idle reply => ?_, fun i turn n o sending octet => (shown_of_sending sending octet).symm, shown_of_none, echo, stop, fun two => ?_, fun one => ?_,
      fun two => ?_, fun one => ?_⟩
    · obtain ⟨starts, octet, bits⟩ := shown_of_waiting idle reply
      exact ⟨octet, starts, bits⟩
    · simp [MgmtLink.startTx, two]
    · simp [MgmtLink.startTx, one]
    · rw [two]; rfl
    · rw [one]; rfl
  · exact congrArg Host.Outcome.next (congrArg (fun m => { s with ml := m }) (timeout_of_early sending early))
  · refine congrArg Host.Outcome.next (congrArg (fun m => { s with ml := m }) ((timeout_of_due sending late).trans ?_))
    rw [MgmtLink.abandonReply, afterReply_eq] <;> rfl
  · exact congrArg Host.Outcome.next (congrArg (fun m => { s with ml := m }) (timeout_of_quiet quiet))
  intro g
  have answers := readAnswers_of_sending sending p g
  obtain ⟨tx, reply, request⟩ := read_reply (f := g) previous
  rw [← takeFrame_ml (fine := fine) frame sync] at tx reply request
  have bothStops : bothStop p g = (p.stop && g.stop) := by simp [bothStop, readable, g, mgmtFieldOf]
  have echoes : sameEcho p g = (p.echo == g.echo) := by simp [sameEcho, readable, g, mgmtFieldOf]
  refine ⟨s.takeFrame fine f, rfl, ?_⟩
  rw [tx, reply]
  refine ⟨fun first second => ?_, fun runs first second more => ?_, fun runs first second last => ?_, fun runs other => ?_⟩
  · rw [answers, if_pos (by rw [bothStops, first, second]; rfl)]
    exact ⟨rfl, rfl⟩
  · have echoed : sameEcho p g = true ∧ g.echo = turn ∧ 1 ≤ n := ⟨by rw [echoes, first, second]; simp, second, shown⟩
    rw [answers, if_neg (by rw [bothStops, runs]; decide), if_pos echoed, if_pos more]
    exact ⟨rfl, rfl⟩
  · have echoed : sameEcho p g = true ∧ g.echo = turn ∧ 1 ≤ n := ⟨by rw [echoes, first, second]; simp, second, shown⟩
    rw [answers, if_neg (by rw [bothStops, runs]; decide), if_pos echoed, if_neg (Nat.not_lt.mpr last)] at request ⊢
    refine ⟨rfl, rfl, fun req invalid executed => ?_⟩
    have after : ((s.ml.echoed p g).endReply).request = if req = [0x60#8] then .executed req else .empty := by
      show s.ml.request.afterReply = _
      rw [executed, afterReply_eq]
    rw [request invalid, after]
    intro l
    rw [after]
    split <;> nofun
  · have silent : ¬ (sameEcho p g = true ∧ g.echo = turn ∧ 1 ≤ n) := by
      rintro ⟨same, second, -⟩
      rw [echoes, beq_iff_eq] at same
      rcases other with first | second'
      · exact first (same.trans second)
      · exact second' second
    rw [answers, if_neg (by rw [bothStops, runs]; decide), if_neg silent]
    exact ⟨rfl, rfl⟩

end Sys2Proof.Machine
end

/-! PROOF. The operations of one channel: what they leave of its items, and the record they make (R72 to R81, R86). -/

section
namespace Sys2Proof.Machine

variable {s t v : State} {ch : Chan}

/-! ### One channel alone -/

/-- Of the channel table a step changes at most one channel. -/
structure Alone (ch : Chan) (s t : State) : Prop where
  others : ∀ other : Chan, other ≠ ch → t.cm[other] = s.cm[other]

theorem Alone.of_cm (same : t.cm = s.cm) : Alone ch s t := ⟨fun _ _ => by rw [same]⟩

theorem Alone.trans (h : Alone ch s t) (g : Alone ch t v) : Alone ch s v :=
  ⟨fun other apart => (g.others other apart).trans (h.others other apart)⟩

theorem onChannel_self (ch : Chan) (f : Channel → Channel) (s : State) : (s.onChannel ch f).cm[ch] = f s.cm[ch] :=
  modifyAt_self ..

theorem onChannel_alone (ch : Chan) (f : Channel → Channel) (s : State) : Alone ch s (s.onChannel ch f) :=
  ⟨fun _ apart => modifyAt_other _ _ _ _ apart.symm⟩

/-! ### A channel record (R73, R86) -/

theorem offerChannel_self (ch : Chan) (r : EventRecord) (s : State) :
    (s.offerChannel ch r).cm[ch] = { s.cm[ch] with store := (s.offerChannel ch r).cm[ch].store } ∧ Alone ch s (s.offerChannel ch r) := by
  rcases offerChannel_cases ch r s with ⟨-, -, -, enters⟩ | ⟨-, waits⟩
  · rw [enters]
    exact ⟨rfl, .of_cm rfl⟩
  · rw [waits, onChannel_self]
    exact ⟨rfl, onChannel_alone ..⟩

theorem channelRecord_self (ch : Chan) (kind : RecKind) (cls : RecClass) (i : Bool) (old new : Option Code) (aux stamp : Nat)
    (v : StationVals) (s : State) :
    let t := s.channelRecord ch kind cls i old new aux stamp v
    t.cm[ch] = { s.cm[ch] with floor := max stamp s.cm[ch].floor, store := t.cm[ch].store } ∧ Alone ch s t := by
  intro t
  obtain ⟨self, alone⟩ := offerChannel_self ch
    { mkRecord kind cls ch.val (codeOrNone old) (codeOrNone new) aux (stampOf v (max stamp s.cm[ch].floor)) with initial := i }
    (s.onChannel ch fun x => { x with floor := max stamp s.cm[ch].floor })
  rw [onChannel_self] at self
  exact ⟨self, (onChannel_alone ..).trans alone⟩

theorem otherClassHeld_of_admitsNow {c : RecClass} (admits : s.admitsNow ch c) : otherClassHeld s.eq ch c = false := by
  obtain ⟨-, -, own⟩ := admits
  unfold otherClassHeld
  rw [List.any_eq_false]
  intro q mem
  simp only [Bool.and_eq_true, beq_iff_eq, bne_iff_ne, ne_eq, not_and, not_not]
  exact fun ⟨kind, source⟩ => own q mem kind source

/-- A record that can enter now is the next one of the EQ. -/
theorem channelRecord_admitted {cls : RecClass} (admits : s.admitsNow ch cls) (kind : RecKind) (i : Bool) (old new : Option Code)
    (aux stamp : Nat) (v : StationVals) :
    s.admittedNext (s.channelRecord ch kind cls i old new aux stamp v)
      { mkRecord kind cls ch.val (codeOrNone old) (codeOrNone new) aux (stampOf v (max stamp s.cm[ch].floor)) with initial := i } := by
  obtain ⟨empty, room, -⟩ := id admits
  unfold State.channelRecord
  dsimp only
  rcases offerChannel_cases ch
    { mkRecord kind cls ch.val (codeOrNone old) (codeOrNone new) aux (stampOf v (max stamp s.cm[ch].floor)) with initial := i }
    (s.onChannel ch fun x => { x with floor := max stamp s.cm[ch].floor }) with ⟨-, -, -, enters⟩ | ⟨held, -⟩
  · rw [enters]
    exact enqueue_admitted _ (s.onChannel ch fun x => { x with floor := max stamp s.cm[ch].floor })
  · refine absurd ⟨?_, room, (otherClassHeld_of_admitsNow admits :)⟩ held
    rw [onChannel_self]
    exact empty

theorem offerChannel_appended (ch : Chan) (r : EventRecord) (s : State) : Appended s (s.offerChannel ch r) := by
  rcases offerChannel_cases ch r s with ⟨-, -, -, enters⟩ | ⟨-, waits⟩
  · rw [enters]
    exact List.prefix_append ..
  · rw [waits]
    exact .of_eq rfl

theorem channelRecord_appended (ch : Chan) (kind : RecKind) (cls : RecClass) (i : Bool) (old new : Option Code) (aux stamp : Nat)
    (v : StationVals) (s : State) : Appended s (s.channelRecord ch kind cls i old new aux stamp v) :=
  offerChannel_appended ch _ (s.onChannel ch fun x => { x with floor := max stamp s.cm[ch].floor })

/-! ### The end of chatter, a change, a validation and a loss -/

/-- A channel as before but for what its records and its chatter change: the floor, the store, and the chatter items. -/
def Channel.Recorded (x y : Channel) : Prop :=
  y = { x with floor := y.floor, store := y.store, recent := y.recent, chatter := y.chatter, suppressed := y.suppressed }

theorem Channel.Recorded.refl (x : Channel) : x.Recorded x := rfl

theorem Channel.Recorded.trans {x y z : Channel} (h : x.Recorded y) (g : y.Recorded z) : x.Recorded z := by
  unfold Channel.Recorded at h g ⊢
  rw [g, h]

theorem channelRecord_recorded (ch : Chan) (kind : RecKind) (cls : RecClass) (i : Bool) (old new : Option Code) (aux stamp : Nat)
    (v : StationVals) (s : State) : s.cm[ch].Recorded (s.channelRecord ch kind cls i old new aux stamp v).cm[ch] := by
  unfold Channel.Recorded
  rw [(channelRecord_self ..).1]

/-- A change of the chatter items after a channel record. -/
theorem recorded_onChannel {f : Channel → Channel} (items : ∀ x : Channel, x.Recorded (f x)) (h : s.cm[ch].Recorded t.cm[ch])
    (alone : Alone ch s t) : s.cm[ch].Recorded (t.onChannel ch f).cm[ch] ∧ Alone ch s (t.onChannel ch f) := by
  rw [onChannel_self]
  exact ⟨h.trans (items _), alone.trans (onChannel_alone ..)⟩

theorem endChatter_self (ch : Chan) (c : Chatter) (new : Option Code) (s : State) :
    let t := s.endChatter ch c new
    t.cm[ch] = { s.cm[ch] with floor := max c.lastStamp s.cm[ch].floor, store := t.cm[ch].store, chatter := none, suppressed := 0, recent := [] } ∧
      Alone ch s t := by
  intro t
  obtain ⟨self, alone⟩ := channelRecord_self ch .chatterOff (changeClass s.cm ch) false (some c.codeAtEntry) new
    s.cm[ch].suppressed c.lastStamp c.lastVals s
  have ended : t.cm[ch] = { (s.channelRecord ch .chatterOff (changeClass s.cm ch) false (some c.codeAtEntry) new
      s.cm[ch].suppressed c.lastStamp c.lastVals).cm[ch] with chatter := none, suppressed := 0, recent := [] } := onChannel_self ..
  refine ⟨?_, alone.trans (onChannel_alone ..)⟩
  rw [ended, self]

theorem recordChange_recorded (ch : Chan) (c : Change) (s : State) :
    s.cm[ch].Recorded (s.recordChange ch c).cm[ch] ∧ Alone ch s (s.recordChange ch c) := by
  unfold State.recordChange
  dsimp only
  split
  · exact recorded_onChannel (fun _ => rfl) (.refl _) (.of_cm rfl)
  · split
    · exact recorded_onChannel (fun _ => rfl) (channelRecord_recorded ..) (channelRecord_self ..).2
    · exact recorded_onChannel (fun _ => rfl) (channelRecord_recorded ..) (channelRecord_self ..).2

/-- The channel after a validation: PRESENT with the candidate's code. -/
theorem validate_recorded (ch : Chan) (k : Candidate) (s : State) :
    ({ s.cm[ch] with valid := some k.code, candidate := none, presence := .present } : Channel).Recorded (s.validate ch k).1.cm[ch] ∧
      Alone ch s (s.validate ch k).1 := by
  let v := s.onChannel ch fun y => { y with valid := some k.code, candidate := none, presence := .present }
  have noted : v.cm[ch] = { s.cm[ch] with valid := some k.code, candidate := none, presence := .present } := onChannel_self ..
  have alone : Alone ch s v := onChannel_alone ..
  rw [← noted]
  unfold State.validate
  dsimp only
  split
  · exact ⟨channelRecord_recorded .., alone.trans (channelRecord_self ..).2⟩
  · exact ⟨channelRecord_recorded .., alone.trans (channelRecord_self ..).2⟩
  · exact ⟨(recordChange_recorded ..).1, alone.trans (recordChange_recorded ..).2⟩

/-- A channel whose chatter, if any, has ended with the code `new` (R81). -/
def State.chatterEnded (ch : Chan) (new : Option Code) (s : State) : State :=
  match s.cm[ch].chatter with
  | some c => s.endChatter ch c new
  | none => s

theorem chatterEnded_recorded (ch : Chan) (new : Option Code) (s : State) :
    s.cm[ch].Recorded (s.chatterEnded ch new).cm[ch] ∧ Alone ch s (s.chatterEnded ch new) := by
  unfold State.chatterEnded
  split
  · next c _ =>
    obtain ⟨self, alone⟩ := endChatter_self ch c new s
    refine ⟨?_, alone⟩
    unfold Channel.Recorded
    rw [self]
  · exact ⟨.refl _, .of_cm rfl⟩

/-- A loss is the end of chatter, the absence, and the CHANNEL_LOST record (R76, R81). -/
theorem loseChannel_eq (ch : Chan) (r : RunStart) (s : State) :
    (s.loseChannel ch r).1 =
      (((s.chatterEnded ch s.cm[ch].valid).onChannel ch fun x => { x with valid := none, presence := .absent }).channelRecord ch
        .channelLost (presenceClass s.cm ch) false s.cm[ch].valid none 0 (r.frame - s.cm[ch].entry.latency) r.vals) := rfl

theorem loseChannel_recorded (ch : Chan) (r : RunStart) (s : State) :
    ({ s.cm[ch] with valid := none, presence := .absent } : Channel).Recorded (s.loseChannel ch r).1.cm[ch] ∧
      Alone ch s (s.loseChannel ch r).1 := by
  obtain ⟨ended, alone⟩ := chatterEnded_recorded ch s.cm[ch].valid s
  rw [loseChannel_eq]
  refine ⟨Channel.Recorded.trans ?_ (channelRecord_recorded ..), (alone.trans (onChannel_alone ..)).trans (channelRecord_self ..).2⟩
  rw [onChannel_self]
  unfold Channel.Recorded at ended ⊢
  rw [ended]

end Sys2Proof.Machine
end

/-! PROOF. One look: what it makes of a channel, of the console slot and of the upward store (R59, R67 to R72, R76, R143, R144). -/

section
namespace Sys2Proof.Machine

variable {s t v : State} {ch : Chan} {o : Octet}

/-! ### One channel's look (R67, R70 to R72, R76) -/

/-- The candidate that an octet opens at this tick (R71). -/
def State.freshCandidate (s : State) (o : Octet) : Candidate :=
  { code := codeOf o, age := ageOf o, frame := s.tb.e, vals := s.tb.vals }

/-- The channel with its octet taken, no-device run ended (R70). -/
def State.coded (ch : Chan) (o : Octet) (s : State) : State :=
  (s.onChannel ch fun y => { y with rawLast := some o }).onChannel ch fun y => { y with runCount := 0, runStart := none }

/-- The channel with its octet taken as no device, in a run that began at `r` (R70). -/
def State.missing (ch : Chan) (o : Octet) (r : RunStart) (s : State) : State :=
  (s.onChannel ch fun y => { y with rawLast := some o }).onChannel ch fun y =>
    { y with candidate := none, runCount := min (y.runCount + 1) 2, runStart := some r }

/-- The start of the no-device run that a look belongs to (R70). -/
def State.runOf (ch : Chan) (s : State) : RunStart :=
  if s.cm[ch].runCount = 0 then { frame := s.tb.e, vals := s.tb.vals }
  else s.cm[ch].runStart.getD { frame := s.tb.e, vals := s.tb.vals }

theorem coded_self (ch : Chan) (o : Octet) (s : State) :
    (s.coded ch o).cm[ch] = { s.cm[ch] with rawLast := some o, runCount := 0, runStart := none } ∧ Alone ch s (s.coded ch o) := by
  unfold State.coded
  rw [onChannel_self, onChannel_self]
  exact ⟨rfl, (onChannel_alone ..).trans (onChannel_alone ..)⟩

theorem missing_self (ch : Chan) (o : Octet) (r : RunStart) (s : State) :
    (s.missing ch o r).cm[ch] =
        { s.cm[ch] with rawLast := some o, candidate := none, runCount := min (s.cm[ch].runCount + 1) 2, runStart := some r } ∧
      Alone ch s (s.missing ch o r) := by
  unfold State.missing
  rw [onChannel_self, onChannel_self]
  exact ⟨rfl, (onChannel_alone ..).trans (onChannel_alone ..)⟩

theorem channelLook_of_ignored (ignored : s.cm[ch].entry.monitored = false) (o : Octet) :
    s.channelLook ch o = (s.onChannel ch fun y => { y with rawLast := some o }, []) := by
  simp [State.channelLook, ignored, -Fin.getElem_fin]

theorem channelLook_of_missing (monitored : s.cm[ch].entry.monitored = true) (device : o = 0xFF#8) :
    s.channelLook ch o =
      if 1 ≤ s.cm[ch].runCount ∧ s.cm[ch].presence ≠ .absent then (s.missing ch o (s.runOf ch)).loseChannel ch (s.runOf ch)
      else (s.missing ch o (s.runOf ch), []) := by
  have none : noDevice o = true := by rw [device]; rfl
  unfold State.channelLook State.noDeviceLook
  simp only [monitored, none, onChannel_self, if_true] <;> rfl

theorem channelLook_of_coded (monitored : s.cm[ch].entry.monitored = true) (device : o ≠ 0xFF#8) :
    s.channelLook ch o = match s.cm[ch].candidate with
      | none => if s.cm[ch].valid = some (codeOf o) then (s.coded ch o, [])
          else ((s.coded ch o).onChannel ch fun y => { y with candidate := some (s.freshCandidate o) }, [])
      | some k => if codeOf o = k.code then (s.coded ch o).validate ch k
          else ((s.coded ch o).onChannel ch fun y =>
            { y with unstable := satAdd top16 y.unstable 1,
                     candidate := if s.cm[ch].valid = some (codeOf o) then none else some (s.freshCandidate o) }, []) := by
  have some_ : noDevice o = false := by simp [noDevice, device]
  unfold State.channelLook State.codeLook
  simp only [monitored, some_, onChannel_self, if_true, Bool.false_eq_true, if_false] <;> rfl

/-- What the rules of a look make of a channel `x` whose octet is `o` at the tick of the Timebase `tb`. -/
def Judged (tb : Timebase) (o : Octet) (x y : Channel) : Prop :=
  let code := codeOf o
  let fresh : Candidate := { code := code, age := ageOf o, frame := tb.e, vals := tb.vals }
  let seen := { x with rawLast := some o, runCount := 0, runStart := none }
  y.entry = x.entry ∧ y.rawLast = some o ∧
  (x.entry.monitored = false → y = { x with rawLast := some o }) ∧
  (x.entry.monitored = true → o ≠ 0xFF#8 →
    (x.candidate = none → x.valid = some code → y = seen) ∧
    (x.candidate = none → x.valid ≠ some code → y = { seen with candidate := some fresh }) ∧
    (∀ k, x.candidate = some k → k.code = code →
      y.valid = some code ∧ y.candidate = none ∧ y.presence = .present ∧ y.runCount = 0 ∧ y.unstable = x.unstable) ∧
    (∀ k, x.candidate = some k → k.code ≠ code →
      y = { seen with unstable := min (x.unstable + 1) 65535,
                      candidate := if x.valid = some code then none else some fresh })) ∧
  (x.entry.monitored = true → o = 0xFF#8 →
    y.candidate = none ∧ y.runCount = min (x.runCount + 1) 2 ∧
    (x.runCount = 0 →
      y = { x with rawLast := some 0xFF#8, candidate := none, runCount := 1,
                   runStart := some { frame := tb.e, vals := tb.vals } }) ∧
    (1 ≤ x.runCount → x.presence ≠ .absent → y.presence = .absent ∧ y.valid = none) ∧
    (x.presence = .absent → y.presence = .absent ∧ y.valid = x.valid))

theorem channelLook_judged_missing (monitored : s.cm[ch].entry.monitored = true) :
    Judged s.tb 0xFF#8 s.cm[ch] (s.channelLook ch 0xFF#8).1.cm[ch] ∧ Alone ch s (s.channelLook ch 0xFF#8).1 := by
  obtain ⟨taken, alone⟩ := missing_self ch 0xFF#8 (s.runOf ch) s
  rw [channelLook_of_missing monitored rfl]
  by_cases loses : 1 ≤ s.cm[ch].runCount ∧ s.cm[ch].presence ≠ .absent
  · rw [if_pos loses]
    obtain ⟨lost, after⟩ := loseChannel_recorded ch (s.runOf ch) (s.missing ch 0xFF#8 (s.runOf ch))
    refine ⟨?_, alone.trans after⟩
    unfold Channel.Recorded at lost
    rw [taken] at lost
    rw [lost]
    exact ⟨rfl, rfl, fun other => (nomatch monitored.symm.trans other), fun _ device => absurd rfl device, fun _ _ =>
      ⟨rfl, rfl, fun zero => absurd loses.1 (by omega), fun _ _ => ⟨rfl, rfl⟩, fun absent => absurd absent loses.2⟩⟩
  · rw [if_neg loses]
    refine ⟨?_, alone⟩
    rw [taken]
    refine ⟨rfl, rfl, fun other => (nomatch monitored.symm.trans other), fun _ device => absurd rfl device, fun _ _ =>
      ⟨rfl, rfl, fun zero => ?_, fun run present => absurd ⟨run, present⟩ loses, fun absent => ⟨absent, rfl⟩⟩⟩
    rw [State.runOf, if_pos zero, zero]
    rfl

theorem channelLook_judged_coded (monitored : s.cm[ch].entry.monitored = true) (device : o ≠ 0xFF#8) :
    Judged s.tb o s.cm[ch] (s.channelLook ch o).1.cm[ch] ∧ Alone ch s (s.channelLook ch o).1 := by
  obtain ⟨taken, alone⟩ := coded_self ch o s
  have judged : ∀ y : Channel, y.entry = s.cm[ch].entry → y.rawLast = some o → _ → Judged s.tb o s.cm[ch] y :=
    fun y entry raw rules => ⟨entry, raw, fun other => (nomatch monitored.symm.trans other), fun _ _ => rules, fun _ none => absurd none device⟩
  rw [channelLook_of_coded monitored device]
  cases candidate : s.cm[ch].candidate with
  | none =>
    dsimp only
    by_cases same : s.cm[ch].valid = some (codeOf o)
    · rw [if_pos same]
      refine ⟨?_, alone⟩
      rw [taken]
      exact judged _ rfl rfl ⟨fun _ _ => rfl, fun _ other => absurd same other, fun k some => (nomatch candidate.symm.trans some),
        fun k some => (nomatch candidate.symm.trans some)⟩
    · rw [if_neg same]
      refine ⟨?_, alone.trans (onChannel_alone ..)⟩
      rw [onChannel_self, taken]
      exact judged _ rfl rfl ⟨fun _ other => absurd other same, fun _ _ => rfl, fun k some => (nomatch candidate.symm.trans some),
        fun k some => (nomatch candidate.symm.trans some)⟩
  | some k =>
    dsimp only
    by_cases same : codeOf o = k.code
    · rw [if_pos same]
      obtain ⟨valid, after⟩ := validate_recorded ch k (s.coded ch o)
      refine ⟨?_, alone.trans after⟩
      unfold Channel.Recorded at valid
      rw [taken] at valid
      rw [valid]
      refine judged _ rfl rfl ⟨fun none => (nomatch candidate.symm.trans none), fun none => (nomatch candidate.symm.trans none),
        fun l some _ => ?_, fun l some other => ?_⟩
      · exact ⟨congrArg _ same.symm, rfl, rfl, rfl, rfl⟩
      · cases candidate.symm.trans some
        exact absurd same.symm other
    · rw [if_neg same]
      refine ⟨?_, alone.trans (onChannel_alone ..)⟩
      rw [onChannel_self, taken]
      refine judged _ rfl rfl ⟨fun none => (nomatch candidate.symm.trans none), fun none => (nomatch candidate.symm.trans none),
        fun l some equal => ?_, fun _ _ _ => rfl⟩
      cases candidate.symm.trans some
      exact absurd equal.symm same

theorem channelLook_judged (ch : Chan) (o : Octet) (s : State) :
    Judged s.tb o s.cm[ch] (s.channelLook ch o).1.cm[ch] ∧ Alone ch s (s.channelLook ch o).1 := by
  cases monitored : s.cm[ch].entry.monitored with
  | false =>
    rw [channelLook_of_ignored monitored]
    refine ⟨?_, onChannel_alone ..⟩
    rw [onChannel_self]
    exact ⟨rfl, rfl, fun _ => rfl, fun on => (nomatch monitored.symm.trans on), fun on => (nomatch monitored.symm.trans on)⟩
  | true =>
    by_cases device : o = 0xFF#8
    · rw [device]
      exact channelLook_judged_missing monitored
    · exact channelLook_judged_coded monitored device

/-! ### The looks of a frame (R59) -/

/-- The looks of the channels of a list, in its order. -/
def State.looked (status : Vector Octet 24) (l : List Chan) (s : State) : State :=
  l.foldl (fun t ch => (t.channelLook ch status[ch]).1) s

variable {status : Vector Octet 24} {l : List Chan}

theorem looked_cons (ch : Chan) (l : List Chan) (s : State) :
    s.looked status (ch :: l) = (s.channelLook ch status[ch]).1.looked status l := rfl

theorem looked_append (l k : List Chan) (s : State) : s.looked status (l ++ k) = (s.looked status l).looked status k :=
  List.foldl_append ..

theorem allLooks_looked (status : Vector Octet 24) (s : State) : (s.allLooks status).1 = s.looked status allChannels := by
  unfold State.allLooks State.looked
  generalize allChannels = l
  suffices ∀ p : State × List HandOn, (l.foldl (fun (p : State × List HandOn) ch =>
      let q := p.1.channelLook ch status[ch]
      (q.1, p.2 ++ q.2)) p).1 = l.foldl (fun t ch => (t.channelLook ch status[ch]).1) p.1 from this _
  induction l with
  | nil => exact fun _ => rfl
  | cons a l ih => exact fun p => ih _

theorem looked_within (status : Vector Octet 24) (l : List Chan) (s : State) : Within [.cm, .eq, .sh] s (s.looked status l) :=
  foldl_keeps (P := fun t => Within [.cm, .eq, .sh] s t) (fun _ _ h => h.trans (channelLook_within ..)) l (.refl ..)

theorem looked_others (absent : ch ∉ l) (s : State) : (s.looked status l).cm[ch] = s.cm[ch] := by
  refine foldl_keeps_mem (P := fun t => t.cm[ch] = s.cm[ch]) (fun t a mem h => ?_) rfl
  exact ((channelLook_judged a status[a] t).2.others ch fun same => absent (same ▸ mem)).trans h

theorem allChannels_nodup : allChannels.Nodup := by decide

/-- Every channel stands once among all, after those with lower numbers. -/
theorem allChannels_split (ch : Chan) :
    ∃ pre post, allChannels = pre ++ ch :: post ∧ (∀ d ∈ pre, d < ch) ∧ ch ∉ pre ∧ ch ∉ post := by
  obtain ⟨pre, post, split⟩ := List.append_of_mem (mem_allChannels ch)
  have distinct : (pre ++ ch :: post).Nodup := split ▸ allChannels_nodup
  have rising : (pre ++ ch :: post).Pairwise (· < ·) := split ▸ allChannels_rising
  obtain ⟨-, later, apart⟩ := List.nodup_append.mp distinct
  refine ⟨pre, post, split, fun d mem => (List.pairwise_append.mp rising).2.2 d mem ch (List.mem_cons_self ..), fun mem =>
    apart ch mem ch (List.mem_cons_self ..) rfl, (List.nodup_cons.mp later).1⟩

/-- The look of one channel among all of them: what went before leaves the channel and the tick, what follows leaves its result. -/
theorem looked_at (ch : Chan) (status : Vector Octet 24) (s : State) :
    ∃ pre post, allChannels = pre ++ ch :: post ∧ (∀ d ∈ pre, d < ch) ∧
      (s.looked status pre).cm[ch] = s.cm[ch] ∧ (s.looked status pre).tb = s.tb ∧
      (s.allLooks status).1.cm[ch] = ((s.looked status pre).channelLook ch status[ch]).1.cm[ch] := by
  obtain ⟨pre, post, split, lower, before, after⟩ := allChannels_split ch
  refine ⟨pre, post, split, lower, looked_others before s, (looked_within ..).out .tb (by decide), ?_⟩
  rw [allLooks_looked, split, looked_append, looked_cons]
  exact looked_others after _

theorem allLooks_judged (status : Vector Octet 24) (s : State) (ch : Chan) :
    Judged s.tb status[ch] s.cm[ch] (s.allLooks status).1.cm[ch] := by
  obtain ⟨pre, post, -, -, channel, tb, result⟩ := looked_at ch status s
  have judged := (channelLook_judged ch status[ch] (s.looked status pre)).1
  rw [channel, tb] at judged
  rw [result]
  exact judged

end Sys2Proof.Machine
end

/-! PROOF. The console slot of the uplink at a look: the halves of a message, the grant, and what leaves them (R143, R144). -/

section
namespace Sys2Proof.Machine

variable {s t v : State} {m : ConsoleMsg} {u : Uplink} {h : Handover} {e n : Nat}

/-! ### What leaves the slot -/

theorem sameSlot_announce (old : HState) (c : HCause) (k : RecClass) (n : Nat) (s : State) : SameSlot s (s.announce old c k n) := by
  constructor <;> rw [State.announce_hc]

theorem sameSlot_answer (k : DownKind) (m : ConsoleMsg) (s : State) : SameSlot s (s.answer k m) := by
  constructor <;> rw [State.answer_hc]

theorem sameSlot_takeOpeningCut (e : Nat) (s : State) : SameSlot s (s.takeOpeningCut e) := ⟨rfl, rfl, rfl⟩

theorem sameSlot_claimFrom (m : ConsoleMsg) (s : State) : SameSlot s (s.claimFrom m) := by
  have begun : SameSlot s (if s.hc.shiftOpen then s else s.takeOpeningCut m.arrival) := by
    split
    · exact .refl s
    · exact sameSlot_takeOpeningCut ..
  have claimed := sameSlot_onHc (f := fun h => { h with duty := some m.console, state := .onShift }) (fun _ => ⟨rfl, rfl, rfl⟩)
    (if s.hc.shiftOpen then s else s.takeOpeningCut m.arrival)
  exact ((begun.trans claimed).trans (sameSlot_answer ..)).trans (sameSlot_announce ..)

theorem sameSlot_acceptFrom (m : ConsoleMsg) (s : State) : SameSlot s (s.acceptFrom m) := by
  have accepted := sameSlot_onHc (f := fun h =>
    { h with incoming := some m.console, state := .accepted, timer := .release (m.arrival + s.ml.params.releaseLimit * ticksPerMinute) })
    (fun _ => ⟨rfl, rfl, rfl⟩) s
  exact (accepted.trans (sameSlot_answer ..)).trans (sameSlot_announce ..)

theorem sameSlot_releaseCut (m : ConsoleMsg) (s : State) : SameSlot s (s.releaseCut m) := by
  have cut : SameSlot s (s.makeCut (if s.hc.overrun then .late else .normal) m.arrival) := ⟨rfl, rfl, rfl⟩
  exact (cut.trans (sameSlot_answer ..)).trans (sameSlot_announce ..)

theorem sameSlot_acted (m : ConsoleMsg) (s : State) : SameSlot s (s.acted m) := by
  unfold State.acted
  split
  · exact sameSlot_claimFrom ..
  · split
    · exact sameSlot_answer ..
    · exact sameSlot_acceptFrom ..
  · exact sameSlot_releaseCut ..
  · exact sameSlot_answer ..

/-- A message that is acted on leaves the slot as it was. -/
theorem sameSlot_takeMessage (m : ConsoleMsg) (s : State) : SameSlot s (s.takeMessage m) := by
  rw [takeMessage_eq]
  unfold State.refusedOr
  split
  · exact sameSlot_answer ..
  · exact sameSlot_acted ..

theorem sameSlot_incidentBegins (s : State) : SameSlot s s.incidentBegins := by
  have held : ∀ x, SameSlot s (s.holdAtIncident x) := fun x => by constructor <;> rw [holdAtIncident_hc]
  unfold State.incidentBegins
  split
  · exact held _
  · exact held _
  · exact held _
  all_goals exact .refl s

theorem sameSlot_onCt (f : Cascades → Cascades) (s : State) : SameSlot s (s.onCt f) := ⟨rfl, rfl, rfl⟩

theorem sameSlot_evalIncident (s : State) : SameSlot s s.evalIncident := by
  unfold State.evalIncident
  split
  · exact (sameSlot_onCt ..).trans (sameSlot_incidentBegins _)
  · exact (sameSlot_onCt ..).trans (sameSlot_incidentEnds _)
  all_goals exact .refl s

theorem sameSlot_incidentKept (s : State) : IncidentKept (SameSlot s) where
  offer r _ g := g.trans (.of_hc (State.offer_hc ..))
  slots _ g := g.trans (.of_hc rfl)
  evalIncident g := g.trans (sameSlot_evalIncident _)
  cascadeOpened u g := g.trans (.of_hc ((cascadeOpened_within u _).out .hc (by decide)))
  countTrip a b g := g.trans (.of_hc ((countTrip_within a b _).out .hc (by decide)))
  attributeCascade a b c d g := g.trans (.of_hc ((attributeCascade_within a b c d _).out .hc (by decide)))

/-- The channels of a look leave the slot: what they hand on reaches the handover by an incident alone. -/
theorem sameSlot_channelPart (u : Uplink) (first : Bool) (s : State) : SameSlot s (s.channelPart u first) := by
  have looked : SameSlot s (s.allLooks u.status).1 := .of_hc ((allLooks_within ..).out .hc (by decide))
  have handed : SameSlot s ((s.allLooks u.status).1.takeHandOns first (s.allLooks u.status).2) :=
    (sameSlot_incidentKept s).takeHandOns _ _ (fun _ x _ g => g.trans (.of_hc ((handToTally_within x _).out .hc (by decide)))) looked
  exact handed.trans (.of_hc ((writeStore_within ..).out .hc (by decide)))

/-! ### The message in two halves (R143, R144) -/

theorem checkOctet_three (a b c : Octet) : checkOctet [a, b, c] = a + b + c := by
  apply BitVec.eq_of_toNat_eq
  simp [checkOctet, octetOf, BitVec.toNat_add]
  omega

theorem consoleKindOf_iff (o : Octet) (k : ConsoleKind) : consoleKindOf o = some k ↔ consoleKindCode k = o.toNat := by
  unfold consoleKindOf
  generalize o.toNat = n
  constructor
  · intro found
    split at found <;> cases found <;> rfl
  · rintro rfl
    cases k <;> rfl

theorem consoleKind_of_range {n : Nat} (low : 1 ≤ n) (high : n ≤ 4) : ∃ k, consoleKindCode k = n := by
  interval_cases n
  · exact ⟨.dutyClaim, rfl⟩
  · exact ⟨.accept, rfl⟩
  · exact ⟨.release, rfl⟩
  · exact ⟨.query, rfl⟩

theorem consoleKindCode_range (k : ConsoleKind) : 1 ≤ consoleKindCode k ∧ consoleKindCode k ≤ 4 := by cases k <;> decide

/-- A message is well formed when its kind, its console and its check octet are. -/
theorem consoleMessage_cases (c : Console) (a b x y : Octet) (e : Nat) :
    let wellFormed := (1 ≤ a.toNat ∧ a.toNat ≤ 4) ∧ b.toNat = c.val + 1 ∧ y = a + b + x
    (¬ wellFormed → consoleMessage c a b x y e = none) ∧
      (wellFormed → ∃ m : ConsoleMsg, consoleMessage c a b x y e = some m ∧ consoleKindCode m.kind = a.toNat ∧ m.console = c ∧
        m.tag = x ∧ m.arrival = e) := by
  intro wellFormed
  unfold consoleMessage
  rw [checkOctet_three]
  refine ⟨fun bad => ?_, fun ⟨⟨low, high⟩, own, check⟩ => ?_⟩
  · split
    · rfl
    · next k found =>
      have code := (consoleKindOf_iff a k).mp found
      exact if_neg fun ⟨own, check⟩ => bad ⟨code ▸ consoleKindCode_range k, own, check⟩
  · obtain ⟨k, code⟩ := consoleKind_of_range low high
    rw [(consoleKindOf_iff a k).mpr code]
    exact ⟨_, if_pos ⟨own, check⟩, code, rfl, rfl, rfl⟩

/-! ### The grant (R143) -/

/-- A console asks for a grant: its flag is low-active (R186). -/
theorem requestedBy_iff (u : Uplink) (c : Console) : requestedBy u c = true ↔ u.requests.toNat.testBit c.val = false := by
  simp [requestedBy]

theorem find_of_first {p : Console → Bool} {c : Console} (yes : p c = true) (first : ∀ d, d < c → p d = false) :
    allConsoles.find? p = some c := by
  have place : ∀ i (inside : i < allConsoles.length), (allConsoles[i] : Console).val = i := by decide
  have bound : c.val < allConsoles.length := c.isLt
  rw [List.find?_eq_some_iff_getElem]
  refine ⟨yes, c.val, bound, Fin.ext (place _ bound), fun j below => ?_⟩
  have lower : allConsoles[j] < c := Fin.lt_def.mpr (by rw [place j (below.trans bound)]; exact below)
  simpa using first _ lower

theorem mem_allConsoles (c : Console) : c ∈ allConsoles := by revert c; decide

/-- The grant that a look decides with the levels `levels`, and the levels that it leaves. -/
def Decided (u : Uplink) (n : Nat) (levels : Vector Level 4) (h : Handover) : Prop :=
  let asks := fun c : Console => u.requests.toNat.testBit c.val = false
  ((∀ c, ¬ asks c) → h.grant = none ∧ h.levels = levels) ∧
  (∀ c, asks c → levels[c] = .normal → (∀ d, d < c → asks d → levels[d] = .lowered) →
    h.grant = some { console := c, frame := n, half := none } ∧ h.levels = levels) ∧
  (∀ c, asks c → (∀ d, asks d → levels[d] = .lowered) → (∀ d, d < c → ¬ asks d) →
    h.grant = some { console := c, frame := n, half := none } ∧ ∀ d : Console, h.levels[d] = .normal)

theorem grantable_iff (u : Uplink) (levels : Vector Level 4) (c : Console) :
    grantable u levels c = true ↔ u.requests.toNat.testBit c.val = false ∧ levels[c] = .normal := by
  unfold grantable
  rw [Bool.and_eq_true, requestedBy_iff, beq_iff_eq]

theorem grantable_of_not {levels : Vector Level 4} {c : Console}
    (other : u.requests.toNat.testBit c.val = false → levels[c] = .lowered) : grantable u levels c = false := by
  rw [← Bool.not_eq_true, grantable_iff]
  rintro ⟨asks, normal⟩
  exact nomatch (other asks).symm.trans normal

theorem levelsForGrant_of_grantable {levels : Vector Level 4} {c : Console} (may : grantable u levels c = true) :
    levelsForGrant u levels = levels := by
  have any : allConsoles.any (grantable u levels) = true := List.any_eq_true.mpr ⟨c, mem_allConsoles c, may⟩
  simp [levelsForGrant, any]

theorem levelsForGrant_of_none {levels : Vector Level 4} (silent : ∀ c : Console, ¬ u.requests.toNat.testBit c.val = false) :
    levelsForGrant u levels = levels := by
  have any : allConsoles.any (requestedBy u) = false :=
    List.any_eq_false.mpr fun c _ => (requestedBy_iff u c).not.mpr (silent c)
  simp [levelsForGrant, any]

theorem levelsForGrant_of_lowered {levels : Vector Level 4} {c : Console} (asks : u.requests.toNat.testBit c.val = false)
    (lowered : ∀ d : Console, u.requests.toNat.testBit d.val = false → levels[d] = .lowered) :
    levelsForGrant u levels = Vector.replicate 4 .normal := by
  have any : allConsoles.any (requestedBy u) = true := List.any_eq_true.mpr ⟨c, mem_allConsoles c, (requestedBy_iff u c).mpr asks⟩
  have none : allConsoles.any (grantable u levels) = false :=
    List.any_eq_false.mpr fun d _ => by rw [grantable_of_not (lowered d)]; decide
  simp [levelsForGrant, any, none]

/-- With no grant in progress one is decided, and the arrived message stays. -/
theorem decideGrant_decided (free : h.grant = none) (n : Nat) (u : Uplink) :
    Decided u n h.levels (h.decideGrant u n) ∧ (h.decideGrant u n).arrived = h.arrived := by
  have result : h.decideGrant u n =
      { h with levels := levelsForGrant u h.levels,
               grant := (allConsoles.find? (grantable u (levelsForGrant u h.levels))).map fun c =>
                 { console := c, frame := n, half := none } } := by
    simp [Handover.decideGrant, free]
  rw [result]
  refine ⟨⟨fun silent => ?_, fun c asks normal first => ?_, fun c asks lowered first => ?_⟩, rfl⟩
  · rw [levelsForGrant_of_none silent]
    have none : allConsoles.find? (grantable u h.levels) = Option.none :=
      List.find?_eq_none.mpr fun d _ => by rw [grantable_of_not fun asks => absurd asks (silent d)]; decide
    simp [none]
  · have may := (grantable_iff u h.levels c).mpr ⟨asks, normal⟩
    rw [levelsForGrant_of_grantable may]
    have found : allConsoles.find? (grantable u h.levels) = some c := find_of_first may fun d below => grantable_of_not (first d below)
    simp [found]
  · rw [levelsForGrant_of_lowered asks lowered]
    have normal : ∀ d : Console, (Vector.replicate 4 Level.normal)[d] = .normal := fun d => by simp
    have found : allConsoles.find? (grantable u (Vector.replicate 4 .normal)) = some c :=
      find_of_first ((grantable_iff ..).mpr ⟨asks, normal c⟩) fun d below => grantable_of_not fun other => absurd other (first d below)
    simp [found]

theorem decideGrant_of_granted {g : Grant} (granted : h.grant = some g) (n : Nat) (u : Uplink) : h.decideGrant u n = h := by
  simp [Handover.decideGrant, granted]

/-! ### The slot at a look (R144) -/

/-- What a look at tick `e` makes of the grant and the levels of `h`, and the message that it completes. -/
structure SlotLook (u : Uplink) (e : Nat) (h k : Handover) (m : Option ConsoleMsg) : Prop where
  idle : h.grant = none → Decided u (e / 16) h.levels k ∧ m = none
  first : ∀ g, h.grant = some g → g.half = none →
    (e / 16 < g.frame + 2 → k.grant = h.grant ∧ k.levels = h.levels ∧ m = none) ∧
    (g.frame + 2 ≤ e / 16 → k.grant = some { g with half := some (u.console0, u.console1) } ∧ k.levels = h.levels ∧ m = none)
  second : ∀ g a b, h.grant = some g → g.half = some (a, b) →
    (e / 16 < g.frame + 3 → k.grant = h.grant ∧ k.levels = h.levels ∧ m = none) ∧
    (g.frame + 3 ≤ e / 16 → Decided u (e / 16) (h.levels.set g.console.val .lowered g.console.isLt) k ∧
      m = consoleMessage g.console a b u.console0 u.console1 e)

theorem Decided.of_same {k x : Handover} {levels : Vector Level 4} (d : Decided u n levels k) (grant : x.grant = k.grant)
    (same : x.levels = k.levels) : Decided u n levels x := by
  unfold Decided
  rw [grant, same]
  exact d

theorem SlotLook.of_same {k x : Handover} {o : Option ConsoleMsg} (l : SlotLook u e h k o) (grant : x.grant = k.grant)
    (same : x.levels = k.levels) : SlotLook u e h x o where
  idle free := ⟨(l.idle free).1.of_same grant same, (l.idle free).2⟩
  first g granted half := by rw [grant, same]; exact l.first g granted half
  second g a b granted half := by
    obtain ⟨early, due⟩ := l.second g a b granted half
    rw [grant, same]
    exact ⟨early, fun late => ⟨(due late).1.of_same grant same, (due late).2⟩⟩

/-- The slot's items before it are what the look depends on. -/
theorem SlotLook.from_same {k x : Handover} {o : Option ConsoleMsg} (l : SlotLook u e x k o) (grant : x.grant = h.grant)
    (same : x.levels = h.levels) : SlotLook u e h k o := by
  obtain ⟨idle, first, second⟩ := l
  rw [grant, same] at idle
  rw [grant, same] at first
  rw [grant, same] at second
  exact ⟨idle, first, second⟩

theorem decideGrant_items (u : Uplink) (n : Nat) (h : Handover) :
    h.decideGrant u n = { h with grant := (h.decideGrant u n).grant, levels := (h.decideGrant u n).levels } := by
  unfold Handover.decideGrant
  split <;> rfl

theorem takeHalf_items (u : Uplink) (e n : Nat) (h : Handover) :
    (h.takeHalf u e n).1 = { h with grant := (h.takeHalf u e n).1.grant, levels := (h.takeHalf u e n).1.levels } := by
  unfold Handover.takeHalf
  split
  · rfl
  · split
    · split <;> rfl
    · split <;> rfl

/-- A look changes of the handover the grant and the levels. -/
theorem look_items (u : Uplink) (e : Nat) (h : Handover) :
    (h.look u e).1 = { h with grant := (h.look u e).1.grant, levels := (h.look u e).1.levels } := by
  show (h.takeHalf u e (frameNumber e)).1.decideGrant u (frameNumber e) = { h with grant := ((h.takeHalf u e (frameNumber e)).1.decideGrant u (frameNumber e)).grant, levels := ((h.takeHalf u e (frameNumber e)).1.decideGrant u (frameNumber e)).levels }
  rw [decideGrant_items, takeHalf_items]

theorem look_slot (u : Uplink) (e : Nat) (h : Handover) : SlotLook u e h (h.look u e).1 (h.look u e).2 := by
  have taken : h.look u e = ((h.takeHalf u e (e / 16)).1.decideGrant u (e / 16), (h.takeHalf u e (e / 16)).2) := rfl
  rw [taken]
  refine ⟨fun free => ?_, fun g granted half => ?_, fun g a b granted half => ?_⟩
  · have still : h.takeHalf u e (e / 16) = (h, none) := by simp [Handover.takeHalf, free]
    rw [still]
    exact ⟨(decideGrant_decided free ..).1, rfl⟩
  · refine ⟨fun early => ?_, fun due => ?_⟩
    · have still : h.takeHalf u e (e / 16) = (h, none) := by simp [Handover.takeHalf, granted, half]; omega
      rw [still, decideGrant_of_granted granted]
      exact ⟨rfl, rfl, rfl⟩
    · have one : h.takeHalf u e (e / 16) = ({ h with grant := some { g with half := some (u.console0, u.console1) } }, none) := by
        simp [Handover.takeHalf, granted, half, due]
      rw [one, decideGrant_of_granted rfl]
      exact ⟨rfl, rfl, rfl⟩
  · refine ⟨fun early => ?_, fun due => ?_⟩
    · have still : h.takeHalf u e (e / 16) = (h, none) := by simp [Handover.takeHalf, granted, half]; omega
      rw [still, decideGrant_of_granted granted]
      exact ⟨rfl, rfl, rfl⟩
    · have two : h.takeHalf u e (e / 16) = (h.endGrant g.console, consoleMessage g.console a b u.console0 u.console1 e) := by
        simp [Handover.takeHalf, granted, half, due]
      rw [two]
      exact ⟨(decideGrant_decided (h := h.endGrant g.console) rfl ..).1, rfl⟩

end Sys2Proof.Machine
end

/-! PROOF. The look as a whole: its parts in either order, and the statement about its judgements (R59). -/

section
namespace Sys2Proof.Machine

variable {s t v : State} {u : Uplink} {o : LookOrder}

/-! ### When it is taken -/

theorem lookDue_iff (s : State) : s.lookDue = true ↔ s.lookNow := by
  unfold State.lookDue State.lookNow
  cases s.ubi.lastLook <;> simp [ticksPerFrame]

/-- The tick of the look noted. -/
def State.noted (s : State) : State := s.onUbi fun x => { x with lastLook := some s.tb.e }

theorem look_of_due (due : s.lookNow) (u : Uplink) (o : LookOrder) :
    s.look u o = if o.consoleFirst then (s.noted.consoleFirst u).channelPart u o.openingFirst
      else (s.noted.channelPart u o.openingFirst).consolePart u :=
  if_pos ((lookDue_iff s).mpr due)

theorem look_of_not_due (early : ¬ s.lookNow) (u : Uplink) (o : LookOrder) : s.look u o = s :=
  if_neg fun due => early ((lookDue_iff s).mp due)

/-! ### The parts -/

theorem channelPart_cm (u : Uplink) (first : Bool) (s : State) : (s.channelPart u first).cm = (s.allLooks u.status).1.cm :=
  ((takeHandOns_within ..).and (writeStore_within .up u.status _)).out .cm (by decide)

theorem channelPart_up (room : s.up.frames.length < s.ml.params.storeDepth) (u : Uplink) (first : Bool) :
    (s.channelPart u first).up = { s.up with frames := s.up.frames ++ [u.status] } := by
  obtain ⟨x, is⟩ : ∃ x, x = (s.allLooks u.status).1.takeHandOns first (s.allLooks u.status).2 := ⟨_, rfl⟩
  have before : Within [.cm, .eq, .sh, .ct, .hc, .tu] s x := by
    rw [is]
    exact ((allLooks_within ..).and (takeHandOns_within ..)).mono (by decide)
  have up : x.up = s.up := before.out .up (by decide)
  have ml : x.ml = s.ml := before.out .ml (by decide)
  have written : s.channelPart u first = x.writeStore .up u.status := by rw [is]; rfl
  have fits : (x.store .up).frames.length < x.ml.params.storeDepth := by
    rw [ml]
    show x.up.frames.length < _
    rw [up]
    exact room
  rw [written, writeStore_of_room _ fits, ← up]
  rfl

theorem channelPart_within (u : Uplink) (first : Bool) (s : State) : Within [.cm, .eq, .sh, .ct, .hc, .tu, .up] s (s.channelPart u first) :=
  ((allLooks_within u.status s).and ((takeHandOns_within ..).and (writeStore_within ..))).mono (by decide)

/-- The state that the channels are judged in: the look is noted, and the console slot comes before them or not. -/
def State.judgedIn (u : Uplink) (o : LookOrder) (s : State) : State := if o.consoleFirst then s.noted.consoleFirst u else s.noted

theorem judgedIn_within (u : Uplink) (o : LookOrder) (s : State) : Within [.ubi, .hc, .eq, .sh, .tu] s (s.judgedIn u o) := by
  have noted : Within [.ubi] s s.noted := onUbi_within ..
  unfold State.judgedIn
  split
  · exact (noted.and (consoleFirst_within ..)).mono (by decide)
  · exact noted.mono (by decide)

/-- Every block but the handover is what the channel part leaves. -/
theorem look_channelPart (due : s.lookNow) (u : Uplink) (o : LookOrder) :
    Within [.hc] ((s.judgedIn u o).channelPart u o.openingFirst) (s.look u o) := by
  rw [look_of_due due]
  unfold State.judgedIn
  split
  · exact .refl ..
  · exact onHc_within ..

/-! ### The console slot in either order -/

/-- The message that the slot completes at the look. -/
def State.heardAt (u : Uplink) (s : State) : Option ConsoleMsg := (s.hc.look u s.tb.e).2

theorem look_slot_of_last (due : s.lookNow) (last : o.consoleFirst = false) (u : Uplink) :
    ∃ m, SlotLook u s.tb.e s.hc (s.look u o).hc m ∧ (s.look u o).hc.arrived = m.or s.hc.arrived := by
  obtain ⟨c, is⟩ : ∃ c, c = s.noted.channelPart u o.openingFirst := ⟨_, rfl⟩
  have same : SameSlot s c := by
    rw [is]
    exact (SameSlot.of_hc (s := s) (t := s.noted) rfl).trans (sameSlot_channelPart ..)
  have e : c.tb.e = s.tb.e := by rw [is]; exact congrArg Timebase.e ((channelPart_within ..).out .tb (by decide))
  have result : s.look u o = c.consolePart u := by rw [look_of_due due, last, is]; rfl
  have hc : (s.look u o).hc = { (c.hc.look u s.tb.e).1 with arrived := (c.hc.look u s.tb.e).2.or (c.hc.look u s.tb.e).1.arrived } := by
    rw [result, ← e]; rfl
  refine ⟨(c.hc.look u s.tb.e).2, ?_, ?_⟩
  · rw [hc]
    exact ((look_slot u s.tb.e c.hc).from_same same.grant same.levels).of_same rfl rfl
  · rw [hc, look_items, ← same.arrived]

theorem look_slot_of_first (due : s.lookNow) (first : o.consoleFirst = true) (u : Uplink) :
    SlotLook u s.tb.e s.hc (s.look u o).hc (s.heardAt u) ∧ (s.look u o).hc.arrived = s.hc.arrived := by
  obtain ⟨k, isK⟩ : ∃ k, k = s.noted.onHc fun _ => (s.hc.look u s.tb.e).1 := ⟨_, rfl⟩
  have taken : SameSlot k (s.noted.consoleFirst u) := by
    have eq : s.noted.consoleFirst u = match s.heardAt u with | some m => k.takeMessage m | none => k := by rw [isK]; rfl
    rw [eq]
    split
    · exact sameSlot_takeMessage ..
    · exact .refl k
  have result : s.look u o = (s.noted.consoleFirst u).channelPart u o.openingFirst := by rw [look_of_due due, first]; rfl
  have same : SameSlot k (s.look u o) := by rw [result]; exact taken.trans (sameSlot_channelPart ..)
  have hc : k.hc = (s.hc.look u s.tb.e).1 := by rw [isK]; rfl
  refine ⟨(look_slot u s.tb.e s.hc).of_same (by rw [same.grant, hc]) (by rw [same.levels, hc]), ?_⟩
  rw [same.arrived, hc, look_items]

/-- The state that a console message which comes before the channels is acted on in, as its own command acts on it. -/
theorem heard_command {m : ConsoleMsg} (due : s.lookNow) (first : o.consoleFirst = true) (message : s.heardAt u = some m)
    (quiet : s.hc.arrived = none) :
    ∃ w h, h = { s.hc with grant := (s.look u o).hc.grant, levels := (s.look u o).hc.levels, arrived := some m } ∧
      exec m.kind.command { s with ubi := (s.look u o).ubi, hc := h } = .next w ∧ s.look u o = w.channelPart u o.openingFirst := by
  obtain ⟨k, isK⟩ : ∃ k, k = (s.hc.look u s.tb.e).1 := ⟨_, rfl⟩
  have acted : s.noted.consoleFirst u = (s.noted.onHc fun _ => k).takeMessage m := by
    have eq : s.noted.consoleFirst u = match s.heardAt u with
      | some m => (s.noted.onHc fun _ => k).takeMessage m
      | none => s.noted.onHc fun _ => k := by rw [isK]; rfl
    rw [eq, message]
  have result : s.look u o = (s.noted.consoleFirst u).channelPart u o.openingFirst := by rw [look_of_due due, first]; rfl
  have ubi : (s.look u o).ubi = s.noted.ubi := by
    rw [result]
    exact ((channelPart_within ..).out .ubi (by decide)).trans ((consoleFirst_within ..).out .ubi (by decide))
  have same : SameSlot (s.noted.onHc fun _ => k) (s.look u o) := by
    rw [result, acted]
    exact (sameSlot_takeMessage ..).trans (sameSlot_channelPart ..)
  have items : k = { s.hc with grant := k.grant, levels := k.levels } := by rw [isK]; exact look_items ..
  have hc : k = { s.hc with grant := (s.look u o).hc.grant, levels := (s.look u o).hc.levels, arrived := Option.none } := by
    rw [same.grant, same.levels, ← quiet]
    exact items
  refine ⟨_, _, rfl, exec_of_after ((after_command ..).trans (if_pos rfl)), ?_⟩
  have state : (({ s with ubi := (s.look u o).ubi, hc := { s.hc with grant := (s.look u o).hc.grant, levels := (s.look u o).hc.levels, arrived := some m } } : State).onHc fun h =>
      { h with arrived := none }) = s.noted.onHc fun _ => k := by
    rw [hc, ubi]
    rfl
  rw [state, ← acted, ← result]

/-- The slot after the look in either order: the message that it completes is held after the channels, and acted on before them. -/
theorem look_slot_of_due (due : s.lookNow) (u : Uplink) (o : LookOrder) :
    ∃ m, SlotLook u s.tb.e s.hc (s.look u o).hc m ∧
      (s.look u o).hc.arrived = (if o.consoleFirst then s.hc.arrived else m.or s.hc.arrived) ∧
      (o.consoleFirst = true → s.heardAt u = m) := by
  cases order : o.consoleFirst with
  | true =>
    obtain ⟨slot, arrived⟩ := look_slot_of_first due order u
    exact ⟨_, slot, arrived, fun _ => rfl⟩
  | false =>
    obtain ⟨m, slot, arrived⟩ := look_slot_of_last due order u
    exact ⟨m, slot, arrived, nofun⟩

/-- Settles O38: the channels are judged after or before the console slot, and neither reaches the other's items. -/
theorem lookJudgesEveryChannel : Obligations.LookJudgesEveryChannel := by
  refine fun s u o => ⟨fun early => congrArg Host.Outcome.next (look_of_not_due early u o), fun due => ?_⟩
  have reached : Within [.ubi, .cm, .up, .ct, .hc, .eq, .sh, .tu] s (s.look u o) := after_within (.look u o) s
  have within : Within [.ubi, .cm, .eq, .sh, .tu, .ct, .hc, .up] s (s.look u o) := reached.mono (by decide)
  have channels := look_channelPart due u o
  have before := judgedIn_within u o s
  have tb : (s.judgedIn u o).tb = s.tb := before.out .tb (by decide)
  have cm : (s.judgedIn u o).cm = s.cm := before.out .cm (by decide)
  have up : (s.judgedIn u o).up = s.up := before.out .up (by decide)
  have ml : (s.judgedIn u o).ml = s.ml := before.out .ml (by decide)
  obtain ⟨m, ⟨idle, first, second⟩, arrived, heard⟩ := look_slot_of_due due u o
  have silent : m = none → (s.look u o).hc.arrived = s.hc.arrived := fun none => by
    rw [arrived, none]
    split <;> rfl
  refine ⟨s.look u o, rfl, ?_, fun room => ?_, within, ⟨fun free => ?_, fun g granted half => ?_, fun g a b granted half => ?_⟩,
    fun ch => ?_⟩
  · have ubi : (s.judgedIn u o).ubi = s.noted.ubi := by
      unfold State.judgedIn
      split
      · exact (consoleFirst_within ..).out .ubi (by decide)
      · rfl
    exact (channels.out .ubi (by decide)).trans (((channelPart_within ..).out .ubi (by decide)).trans ubi)
  · rw [channels.out .up (by decide), channelPart_up (by rw [up, ml]; exact room), up]
  · exact ⟨(idle free).1, silent (idle free).2⟩
  · obtain ⟨early, taken⟩ := first g granted half
    refine ⟨fun soon => ?_, fun late => ?_⟩
    · obtain ⟨grant, levels, none⟩ := early soon
      exact ⟨grant, levels, silent none⟩
    · obtain ⟨grant, levels, none⟩ := taken late
      exact ⟨grant, levels, silent none⟩
  · obtain ⟨early, taken⟩ := second g a b granted half
    obtain ⟨bad, good⟩ := consoleMessage_cases g.console a b u.console0 u.console1 s.tb.e
    refine ⟨fun soon => ?_, fun late => (taken late).1, fun late other => ?_, fun late formed => ?_⟩
    · obtain ⟨grant, levels, none⟩ := early soon
      exact ⟨grant, levels, silent none⟩
    · exact silent ((taken late).2.trans (bad other))
    · obtain ⟨x, message, kind, console, tag, arrival⟩ := good formed
      have completes : m = some x := (taken late).2.trans message
      refine ⟨x, kind, console, tag, arrival, fun last => ?_, fun order quiet => ?_⟩
      · rw [arrived, last, completes]
        rfl
      · exact heard_command due order ((heard order).trans completes) quiet
  · have judged := allLooks_judged u.status (s.judgedIn u o) ch
    rw [tb, cm, ← channelPart_cm u o.openingFirst, ← channels.out .cm (by decide)] at judged
    exact judged

end Sys2Proof.Machine
end

/-! PROOF. What a look hands on from the channels, and what the Tally Unit and the Cascade Tracker make of it (R75, R76, R107 to
R110, R121, R122). -/

section
namespace Sys2Proof.Machine

variable {s t : State} {u : Uplink} {ch : Chan} {k : Candidate}

/-! ### What one channel hands on (R75, R76) -/

/-- What the look of a channel hands on, by the channel's items and its octet. -/
def handOnOf (ch : Chan) (o : Octet) (x : Channel) : List HandOn :=
  if x.entry.monitored then
    if o = 0xFF#8 then if 1 ≤ x.runCount ∧ x.presence ≠ .absent then [.lost ch] else []
    else match x.candidate with
      | some k =>
        if codeOf o = k.code then
          [.change { channel := ch, old := x.valid, new := k.code, stamp := changeStamp x k, vals := k.vals }]
        else []
      | none => []
  else []

theorem channelLook_handOn (ch : Chan) (o : Octet) (s : State) : (s.channelLook ch o).2 = handOnOf ch o s.cm[ch] := by
  unfold handOnOf
  cases monitored : s.cm[ch].entry.monitored with
  | false => rw [channelLook_of_ignored monitored]; rfl
  | true =>
    rw [if_pos rfl]
    by_cases device : o = 0xFF#8
    · rw [channelLook_of_missing monitored device, if_pos device]
      split <;> rfl
    · rw [channelLook_of_coded monitored device, if_neg device]
      cases candidate : s.cm[ch].candidate with
      | none => dsimp only; split <;> rfl
      | some k =>
        dsimp only
        split
        · show [HandOn.change { channel := ch, old := (s.coded ch o).cm[ch].valid, new := k.code, stamp := changeStamp (s.coded ch o).cm[ch] k, vals := k.vals }] = _
          rw [(coded_self ch o s).1]
          rfl
        · rfl

theorem looks_handOns (status : Vector Octet 24) {l : List Chan} (distinct : l.Nodup) (p : State × List HandOn) :
    (l.foldl (fun (p : State × List HandOn) ch =>
      let q := p.1.channelLook ch status[ch]
      (q.1, p.2 ++ q.2)) p).2 = p.2 ++ l.flatMap fun ch => handOnOf ch status[ch] p.1.cm[ch] := by
  induction l generalizing p with
  | nil => simp
  | cons a l ih =>
    obtain ⟨absent, distinct⟩ := List.nodup_cons.mp distinct
    have later : ∀ ch ∈ l, (p.1.channelLook a status[a]).1.cm[ch] = p.1.cm[ch] := fun ch mem =>
      (channelLook_judged a status[a] p.1).2.others ch fun same => absent (same ▸ mem)
    rw [List.foldl_cons, ih distinct, List.flatMap_cons]
    dsimp only
    rw [channelLook_handOn, List.append_assoc]
    rw [List.flatMap_congr fun ch mem => by rw [later ch mem]]

/-- What a look hands on is what its channels hand on, lowest first. -/
theorem allLooks_handOns (status : Vector Octet 24) (s : State) :
    (s.allLooks status).2 = allChannels.flatMap fun ch => handOnOf ch status[ch] s.cm[ch] :=
  looks_handOns status allChannels_nodup (s, [])

/-- The change that a validated candidate hands on (R75). -/
def State.changeAt (s : State) (ch : Chan) (k : Candidate) : Change :=
  { channel := ch, old := s.cm[ch].valid, new := k.code, stamp := s.datedAt ch k, vals := k.vals }

theorem handOnOf_of_validates (validates : s.validatesAt u ch k) : handOnOf ch u.status[ch] s.cm[ch] = [.change (s.changeAt ch k)] := by
  obtain ⟨monitored, device, candidate, code⟩ := validates
  unfold handOnOf
  rw [if_pos monitored, if_neg device, candidate]
  exact if_pos code

theorem handOnOf_of_loses (loses : s.losesAt u ch) : handOnOf ch u.status[ch] s.cm[ch] = [.lost ch] := by
  obtain ⟨monitored, device, run, present⟩ := loses
  unfold handOnOf
  rw [if_pos monitored, if_pos device, if_pos ⟨run, present⟩]

theorem handOnOf_of_still (still : s.stillAt u ch) : handOnOf ch u.status[ch] s.cm[ch] = [] := by
  obtain ⟨validates, loses⟩ := still
  unfold handOnOf
  split
  · next monitored =>
    split
    · next device => exact if_neg fun ⟨run, present⟩ => loses ⟨monitored, device, run, present⟩
    · next device =>
      split
      · next k candidate => exact if_neg fun code => validates k ⟨monitored, device, candidate, code⟩
      · rfl
  · rfl

/-- A look validates a channel, or loses it, or does neither. -/
theorem look_cases (s : State) (u : Uplink) (ch : Chan) : (∃ k, s.validatesAt u ch k) ∨ s.losesAt u ch ∨ s.stillAt u ch := by
  by_cases validates : ∃ k, s.validatesAt u ch k
  · exact .inl validates
  · by_cases loses : s.losesAt u ch
    · exact .inr (.inl loses)
    · exact .inr (.inr ⟨fun k h => validates ⟨k, h⟩, loses⟩)

/-- The channel that something handed on comes from. -/
def HandOn.chan : HandOn → Chan
  | .change c => c.channel
  | .lost ch => ch

theorem handOnOf_chan {o : Octet} {x : Channel} {h : HandOn} (mem : h ∈ handOnOf ch o x) : h.chan = ch := by
  unfold handOnOf at mem
  split at mem
  · split at mem
    · split at mem
      · rw [List.mem_singleton.mp mem]; rfl
      · cases mem
    · split at mem
      · split at mem
        · rw [List.mem_singleton.mp mem]; rfl
        · cases mem
      · cases mem
  · cases mem

/-- What is handed on around one channel's part comes from other channels. -/
theorem handOns_split (s : State) (u : Uplink) (ch : Chan) :
    ∃ pre post, (s.allLooks u.status).2 = pre ++ handOnOf ch u.status[ch] s.cm[ch] ++ post ∧ (∀ h ∈ pre, h.chan ≠ ch) ∧ ∀ h ∈ post, h.chan ≠ ch := by
  obtain ⟨pre, post, split, -, before, after⟩ := allChannels_split ch
  have apart : ∀ l : List Chan, ch ∉ l → ∀ h ∈ l.flatMap fun d => handOnOf d u.status[d] s.cm[d], h.chan ≠ ch := fun l absent h mem same => by
    obtain ⟨d, among, own⟩ := List.mem_flatMap.mp mem
    exact absent (same ▸ handOnOf_chan own ▸ among)
  refine ⟨_, _, ?_, apart pre before, apart post after⟩
  rw [allLooks_handOns, split, List.flatMap_append, List.flatMap_cons, List.append_assoc]

/-! ### The units (R121 to R123) -/

/-- The items of a unit that its modes give and take. -/
structure SameUnit (x y : GenUnit) : Prop where
  mode : y.mode = x.mode
  entry : y.entry = x.entry
  history : y.history = x.history
  buckets : y.buckets = x.buckets
  enabled : y.enabled = x.enabled
  modeMap : y.modeMap = x.modeMap

theorem SameUnit.refl (x : GenUnit) : SameUnit x x := ⟨rfl, rfl, rfl, rfl, rfl, rfl⟩

theorem SameUnit.trans {x y z : GenUnit} (h : SameUnit x y) (g : SameUnit y z) : SameUnit x z :=
  ⟨g.mode.trans h.mode, g.entry.trans h.entry, g.history.trans h.history, g.buckets.trans h.buckets, g.enabled.trans h.enabled,
    g.modeMap.trans h.modeMap⟩

theorem SameUnit.of_sameTally {x y : GenUnit} (h : x.SameTally y) : SameUnit x y := by
  unfold GenUnit.SameTally at h
  rw [h]
  exact ⟨rfl, rfl, rfl, rfl, rfl, rfl⟩

theorem sameUnit_modifyAt {tu : Vector GenUnit 8} {f : GenUnit → GenUnit} (keeps : ∀ x, SameUnit x (f x)) (i v : UnitNo) :
    SameUnit tu[v] (modifyAt tu i f)[v] := by
  by_cases same : i = v
  · subst same
    rw [modifyAt_self]
    exact keeps _
  · rw [modifyAt_other _ _ _ _ same]
    exact .refl _

theorem sameUnit_cascadeOpened (n v : UnitNo) (s : State) : SameUnit s.tu[v] (s.cascadeOpened n).tu[v] := by
  unfold State.cascadeOpened
  rw [failAttempt_tu]
  refine sameUnit_modifyAt (fun x => ?_) n v
  rw [failOpen_eq]
  exact ⟨rfl, rfl, rfl, rfl, rfl, rfl⟩

theorem sameUnit_countTrip (g : Group) (load : Bool) (v : UnitNo) (s : State) : SameUnit s.tu[v] (s.countTrip g load).tu[v] := by
  unfold State.countTrip
  split
  · exact sameUnit_modifyAt (f := GenUnit.countTrip load) (fun x => ⟨rfl, rfl, rfl, rfl, rfl, rfl⟩) _ v
  · exact .refl _

/-- Openings and joinings leave the modes of the units. -/
theorem sameUnit_incidentKept (x : GenUnit) (v : UnitNo) : IncidentKept fun t => SameUnit x t.tu[v] where
  offer r _ g := by rw [State.offer_tu]; exact g
  slots _ g := g
  evalIncident g := g.trans (.of_sameTally (evalIncident_sameTallies _ v))
  cascadeOpened n g := g.trans (sameUnit_cascadeOpened n v _)
  countTrip a b g := g.trans (sameUnit_countTrip a b v _)
  attributeCascade a b c d g := by rw [(attributeCascade_within a b c d _).out .tu (by decide)]; exact g

/-- A unit that moves to a mode at a stamp, or stays in it (R122). -/
structure Moved (x y : GenUnit) (m : UnitMode) (stamp : Nat) : Prop where
  mode : y.mode = m
  stays : m = x.mode → y.entry = x.entry ∧ y.history = x.history ∧ y.buckets = x.buckets
  moves : m ≠ x.mode → y.entry = stamp ∧ y.history = ((m, stamp) :: x.history).take 4 ∧
    ∀ i : Fin 8, y.buckets[i] = x.buckets[i] + if i = modeIdx x.mode then stamp - x.entry else 0

theorem Moved.after {x y z : GenUnit} {m : UnitMode} {st : Nat} (h : Moved x y m st) (g : SameUnit y z) : Moved x z m st where
  mode := g.mode.trans h.mode
  stays same := by rw [g.entry, g.history, g.buckets]; exact h.stays same
  moves other := by rw [g.entry, g.history, g.buckets]; exact h.moves other

theorem Moved.before {x y z : GenUnit} {m : UnitMode} {st : Nat} (h : Moved y z m st) (g : SameUnit x y) : Moved x z m st where
  mode := h.mode
  stays same := by rw [← g.entry, ← g.history, ← g.buckets]; exact h.stays (same.trans g.mode.symm)
  moves other := by
    rw [← g.entry, ← g.history, ← g.buckets, ← g.mode]
    exact h.moves fun same => other (same.trans g.mode)

theorem sourceChange_moved (v : UnitNo) (stamp : Nat) (vals : StationVals) (s : State) :
    Moved s.tu[v] (s.sourceChange v stamp vals).tu[v] (derivedMode s v) (max stamp s.tu[v].entry) := by
  by_cases same : derivedMode s v = s.tu[v].mode
  · rw [sourceChange_of_same same]
    exact ⟨same.symm, fun _ => ⟨rfl, rfl, rfl⟩, fun other => absurd same other⟩
  · rw [(sourceChange_unit same stamp vals).1]
    obtain ⟨mode, entry, history, buckets, -⟩ := change_items (derivedMode s v) (max stamp s.tu[v].entry) s.tu[v]
    refine ⟨mode, fun stays => absurd stays same, fun _ => ⟨entry, history, fun i => ?_⟩⟩
    rw [buckets]
    refine (modifyAt_get ..).trans ?_
    split <;> rfl

theorem eventChange_moved (v : UnitNo) (m : UnitMode) (s : State) : Moved s.tu[v] (s.eventChange v m).tu[v] m s.tb.e := by
  by_cases same : m = s.tu[v].mode
  · rw [same, eventChange_of_same]
    exact ⟨rfl, fun _ => ⟨rfl, rfl, rfl⟩, fun other => absurd rfl other⟩
  · rw [(eventChange_unit same).1, failOpen_eq, enter_eq]
    refine ⟨rfl, fun stays => absurd stays same, fun _ => ⟨rfl, rfl, fun i => ?_⟩⟩
    refine (modifyAt_get ..).trans ?_
    split <;> rfl

/-! ### What is handed to the Tally Unit (R121) -/

/-- All that a look hands on goes to the Tally Unit. -/
def State.tallied (l : List HandOn) (s : State) : State := l.foldl (fun t h => t.handToTally h) s

theorem tallied_within (l : List HandOn) (s : State) : Within [.tu, .eq, .sh] s (s.tallied l) :=
  foldl_keeps (P := fun t => Within [.tu, .eq, .sh] s t) (fun _ _ h => h.trans (handToTally_within ..)) l (.refl ..)

theorem tallied_append (l k : List HandOn) (s : State) : s.tallied (l ++ k) = (s.tallied l).tallied k := List.foldl_append ..

/-- What comes from another channel than a unit's mode source leaves the unit. -/
theorem handToTally_other {h : HandOn} {v : UnitNo} (other : modeSource s.cm v ≠ some h.chan) : (s.handToTally h).tu[v] = s.tu[v] := by
  have apart : ∀ w, sourceUnit s.cm h.chan = some w → v ≠ w := fun w source same =>
    other ((sourceUnit_iff ..).mp (same ▸ source))
  cases h with
  | change c =>
    unfold State.handToTally
    dsimp only
    split
    · next w source =>
      by_cases same : derivedMode s w = s.tu[w].mode
      · rw [sourceChange_of_same same]
      · exact (sourceChange_unit same ..).2 v (apart w source)
    · rfl
  | lost ch =>
    unfold State.handToTally
    dsimp only
    split
    · next w source => exact eventChange_others (apart w source) ..
    · rfl

theorem tallied_others {l : List HandOn} {v : UnitNo} (others : ∀ h ∈ l, modeSource s.cm v ≠ some h.chan) :
    (s.tallied l).tu[v] = s.tu[v] := by
  refine (foldl_keeps_mem (P := fun t => t.cm = s.cm ∧ t.tu[v] = s.tu[v]) (fun t h mem g => ?_) ⟨rfl, rfl⟩).2
  obtain ⟨cm, tu⟩ := g
  exact ⟨((handToTally_within h t).out .cm (by decide)).trans cm, (handToTally_other (by rw [cm]; exact others h mem)).trans tu⟩

/-- Of all that is handed on, a unit takes what its mode source hands on. -/
theorem tallied_of_split {l pre post : List HandOn} {h : HandOn} {v : UnitNo} {m : UnitMode} {st : Nat} (source : modeSource s.cm v = some ch)
    (split : l = pre ++ [h] ++ post) (before : ∀ x ∈ pre, x.chan ≠ ch) (after : ∀ x ∈ post, x.chan ≠ ch)
    (moves : ∀ t : State, t.cm = s.cm → t.tb = s.tb → t.tu[v] = s.tu[v] → Moved s.tu[v] (t.handToTally h).tu[v] m st) :
    Moved s.tu[v] (s.tallied l).tu[v] m st := by
  have apart : ∀ k : List HandOn, (∀ x ∈ k, x.chan ≠ ch) → ∀ x ∈ k, modeSource s.cm v ≠ some x.chan := fun k other x mem same =>
    other x mem (Option.some.inj (same.symm.trans source))
  have first := tallied_within pre s
  have moved := moves (s.tallied pre) (first.out .cm (by decide)) (first.out .tb (by decide)) (tallied_others (apart pre before))
  have cm : ((s.tallied pre).handToTally h).cm = s.cm :=
    ((handToTally_within ..).out .cm (by decide)).trans (first.out .cm (by decide))
  have rest : (s.tallied l).tu[v] = ((s.tallied pre).handToTally h).tu[v] := by
    rw [split, tallied_append, tallied_append]
    exact tallied_others (s := (s.tallied pre).handToTally h) (by rw [cm]; exact apart post after)
  rw [rest]
  exact moved

/-! ### The table after the looks -/

theorem modeSource_of_entries {cm cm' : Vector Channel 24} (entries : ∀ ch : Chan, cm'[ch].entry = cm[ch].entry) (v : UnitNo) :
    modeSource cm' v = modeSource cm v := by
  unfold modeSource
  simp only [entries]

theorem shadowed_of_entries {cm cm' : Vector Channel 24} (entries : ∀ ch : Chan, cm'[ch].entry = cm[ch].entry) (ch : Chan) :
    shadowed cm' ch = shadowed cm ch := by
  unfold shadowed sourceUnit
  simp only [entries, modeSource_of_entries entries]

theorem allLooks_entries (status : Vector Octet 24) (s : State) (ch : Chan) : (s.allLooks status).1.cm[ch].entry = s.cm[ch].entry :=
  (allLooks_judged status s ch).1

theorem allLooks_validated (validates : s.validatesAt u ch k) :
    (s.allLooks u.status).1.cm[ch].presence = .present ∧ (s.allLooks u.status).1.cm[ch].valid = some k.code := by
  obtain ⟨monitored, device, candidate, code⟩ := validates
  obtain ⟨-, -, -, coded, -⟩ := allLooks_judged u.status s ch
  obtain ⟨-, -, validated, -⟩ := coded monitored device
  obtain ⟨valid, -, present, -⟩ := validated k candidate code.symm
  exact ⟨present, valid.trans (congrArg some code)⟩

theorem allLooks_lost (loses : s.losesAt u ch) : (s.allLooks u.status).1.cm[ch].presence = .absent := by
  obtain ⟨monitored, device, run, present⟩ := loses
  obtain ⟨-, -, -, -, missing⟩ := allLooks_judged u.status s ch
  obtain ⟨-, -, -, lost, -⟩ := missing monitored device
  exact (lost run present).1

theorem derivedMode_of_validated {v : UnitNo} (cm : t.cm = (s.allLooks u.status).1.cm) (source : modeSource s.cm v = some ch)
    (validates : s.validatesAt u ch k) : derivedMode t v = if t.tu[v].enabled then t.tu[v].modeMap[k.code] else .unknown := by
  obtain ⟨presence, valid⟩ := allLooks_validated validates
  unfold derivedMode modeUnder
  rw [cm, modeSource_of_entries (allLooks_entries u.status s), source]
  dsimp only
  rw [presence, valid]

theorem derivedMode_of_lost {v : UnitNo} (cm : t.cm = (s.allLooks u.status).1.cm) (source : modeSource s.cm v = some ch)
    (loses : s.losesAt u ch) : derivedMode t v = .unknown := by
  unfold derivedMode modeUnder
  rw [cm, modeSource_of_entries (allLooks_entries u.status s), source]
  dsimp only
  rw [allLooks_lost loses]
  split <;> rfl

/-- What the looks in `s` hand to the Tally Unit in a state with their channel table, of one unit. -/
theorem tallied_unit (v : UnitNo) (cm : t.cm = (s.allLooks u.status).1.cm) (tb : t.tb = s.tb) :
    let w := t.tallied (s.allLooks u.status).2
    (∀ ch k, modeSource s.cm v = some ch → s.validatesAt u ch k →
      Moved t.tu[v] w.tu[v] (if t.tu[v].enabled then t.tu[v].modeMap[k.code] else .unknown) (max (s.datedAt ch k) t.tu[v].entry)) ∧
    (∀ ch, modeSource s.cm v = some ch → s.losesAt u ch → Moved t.tu[v] w.tu[v] .unknown s.tb.e) ∧
    ((∀ ch ∈ modeSource s.cm v, s.stillAt u ch) → w.tu[v] = t.tu[v]) := by
  have sources : modeSource t.cm v = modeSource s.cm v := by rw [cm]; exact modeSource_of_entries (allLooks_entries u.status s) v
  intro w
  refine ⟨fun ch k source validates => ?_, fun ch source loses => ?_, fun still => ?_⟩
  · obtain ⟨pre, post, split, before, after⟩ := handOns_split s u ch
    rw [handOnOf_of_validates validates] at split
    refine tallied_of_split (sources.trans source) split before after fun x xcm _ xtu => ?_
    have own : sourceUnit x.cm ch = some v := (sourceUnit_iff ..).mpr (by rw [xcm]; exact sources.trans source)
    have handed : x.handToTally (.change (s.changeAt ch k)) = x.sourceChange v (s.datedAt ch k) k.vals := by
      unfold State.handToTally State.changeAt
      dsimp only
      rw [own]
    have moved := sourceChange_moved v (s.datedAt ch k) k.vals x
    rw [derivedMode_of_validated (xcm.trans cm) source validates, xtu] at moved
    rw [handed]
    exact moved
  · obtain ⟨pre, post, split, before, after⟩ := handOns_split s u ch
    rw [handOnOf_of_loses loses] at split
    refine tallied_of_split (sources.trans source) split before after fun x xcm xtb xtu => ?_
    have own : sourceUnit x.cm ch = some v := (sourceUnit_iff ..).mpr (by rw [xcm]; exact sources.trans source)
    have handed : x.handToTally (.lost ch) = x.eventChange v .unknown := by
      unfold State.handToTally State.rederive
      dsimp only
      rw [own]
      dsimp only
      rw [derivedMode_of_lost (xcm.trans cm) source loses]
    have moved := eventChange_moved v .unknown x
    rw [xtu, xtb, tb] at moved
    rw [handed]
    exact moved
  · refine tallied_others fun h mem => ?_
    rw [sources]
    intro source
    obtain ⟨pre, post, split, before, after⟩ := handOns_split s u h.chan
    rw [handOnOf_of_still (still h.chan source), List.append_nil] at split
    rw [split] at mem
    rcases List.mem_append.mp mem with early | late
    · exact before h early rfl
    · exact after h late rfl

/-- A unit after the channels of a look, whose openings come before or after the mode changes. -/
theorem channelPart_unit (u : Uplink) (first : Bool) (s : State) (v : UnitNo) :
    let w := s.channelPart u first
    (∀ ch k, modeSource s.cm v = some ch → s.validatesAt u ch k →
      Moved s.tu[v] w.tu[v] (if s.tu[v].enabled then s.tu[v].modeMap[k.code] else .unknown) (max (s.datedAt ch k) s.tu[v].entry)) ∧
    (∀ ch, modeSource s.cm v = some ch → s.losesAt u ch → Moved s.tu[v] w.tu[v] .unknown s.tb.e) ∧
    ((∀ ch ∈ modeSource s.cm v, s.stillAt u ch) → SameUnit s.tu[v] w.tu[v]) := by
  obtain ⟨x, is⟩ : ∃ x, x = (s.allLooks u.status).1 := ⟨_, rfl⟩
  obtain ⟨l, handed⟩ : ∃ l, l = (s.allLooks u.status).2 := ⟨_, rfl⟩
  have looks : Within [.cm, .eq, .sh] s x := by rw [is]; exact allLooks_within ..
  have tu : x.tu = s.tu := looks.out .tu (by decide)
  have tb : x.tb = s.tb := looks.out .tb (by decide)
  have trips : ∀ y : State, SameUnit y.tu[v] (y.takeAllTrips (tripsOf x.cm l)).tu[v] := fun y =>
    (sameUnit_incidentKept y.tu[v] v).takeAllTrips _ (.refl _)
  intro w
  have written : w.tu = (if first then (x.takeAllTrips (tripsOf x.cm l)).tallied l else (x.tallied l).takeAllTrips (tripsOf x.cm l)).tu := by
    have result : w = State.writeStore .up u.status
        (if first then (x.takeAllTrips (tripsOf x.cm l)).tallied l else (x.tallied l).takeAllTrips (tripsOf x.cm l)) := by
      rw [is, handed]; rfl
    rw [result]
    exact (writeStore_within ..).out .tu (by decide)
  rw [written, ← tu]
  cases first with
  | true =>
    rw [if_pos rfl]
    have within := takeAllTrips_within (tripsOf x.cm l) x
    have same := trips x
    obtain ⟨validated, lost, still⟩ := tallied_unit (s := s) (t := x.takeAllTrips (tripsOf x.cm l)) (u := u) v
      ((within.out .cm (by decide)).trans (by rw [is])) ((within.out .tb (by decide)).trans tb)
    rw [← handed] at validated lost still
    refine ⟨fun ch k source validates => ?_, fun ch source loses => (lost ch source loses).before same, fun quiet => ?_⟩
    · have moved := (validated ch k source validates).before same
      rwa [same.enabled, same.modeMap, same.entry] at moved
    · rw [still quiet]
      exact same
  | false =>
    rw [if_neg nofun]
    have same := trips (x.tallied l)
    obtain ⟨validated, lost, still⟩ := tallied_unit (s := s) (t := x) (u := u) v (by rw [is]) tb
    rw [← handed] at validated lost still
    refine ⟨fun ch k source validates => (validated ch k source validates).after same, fun ch source loses =>
      (lost ch source loses).after same, fun quiet => ?_⟩
    rw [← still quiet]
    exact same

end Sys2Proof.Machine
end

/-! PROOF. The trips of a look: which changes they are, and the cascades of the groups after them (R107 to R110). -/

section
namespace Sys2Proof.Machine

variable {s t : State} {u : Uplink} {ch : Chan} {k : Candidate} {g : Group}

/-! ### The trips (R107) -/

theorem isTrip_iff (tripSet : BitVec 16) (old : Option Code) (new : Code) :
    isTrip tripSet old new = true ↔ ∃ c, old = some c ∧ tripSet.getLsbD c.val = false ∧ tripSet.getLsbD new.val = true := by
  unfold isTrip
  cases old <;> simp

/-- The changes that a look hands on are those of the channels that it validates. -/
theorem change_handed_iff (s : State) (u : Uplink) (c : Change) :
    .change c ∈ (s.allLooks u.status).2 ↔ ∃ ch k, s.validatesAt u ch k ∧ c = s.changeAt ch k := by
  rw [allLooks_handOns, List.mem_flatMap]
  constructor
  · rintro ⟨ch, -, mem⟩
    rcases look_cases s u ch with ⟨k, validates⟩ | loses | still
    · rw [handOnOf_of_validates validates, List.mem_singleton] at mem
      exact ⟨ch, k, validates, HandOn.change.inj mem⟩
    · rw [handOnOf_of_loses loses, List.mem_singleton] at mem
      cases mem
    · rw [handOnOf_of_still still] at mem
      cases mem
  · rintro ⟨ch, k, validates, rfl⟩
    exact ⟨ch, mem_allChannels ch, by rw [handOnOf_of_validates validates]; exact List.mem_singleton.mpr rfl⟩

/-- The trips of a look in a group. -/
def State.groupTrips (u : Uplink) (g : Group) (s : State) : List Change :=
  (tripsOf (s.allLooks u.status).1.cm (s.allLooks u.status).2).filter fun c =>
    (s.allLooks u.status).1.cm[c.channel].entry.group == g

theorem mem_tripsOf {cm : Vector Channel 24} {l : List HandOn} {c : Change} :
    c ∈ tripsOf cm l ↔ .change c ∈ l ∧ cm[c.channel].entry.role = .trip ∧ isTrip cm[c.channel].entry.tripSet c.old c.new = true := by
  unfold tripsOf
  rw [List.mem_filterMap]
  constructor
  · rintro ⟨h, mem, found⟩
    cases h with
    | change d =>
      dsimp only at found
      split at found
      · next trip => cases found; exact ⟨mem, trip⟩
      · cases found
    | lost ch => cases found
  · rintro ⟨mem, trip⟩
    exact ⟨_, mem, if_pos trip⟩

theorem mem_groupTrips (c : Change) :
    c ∈ s.groupTrips u g ↔ ∃ ch k, s.cm[ch].entry.group = g ∧ s.tripsAt u ch k ∧ c = s.changeAt ch k := by
  unfold State.groupTrips
  rw [List.mem_filter, mem_tripsOf, change_handed_iff, allLooks_entries, beq_iff_eq, isTrip_iff]
  constructor
  · rintro ⟨⟨⟨ch, k, validates, rfl⟩, role, trip⟩, group⟩
    exact ⟨ch, k, group, ⟨validates, role, trip⟩, rfl⟩
  · rintro ⟨ch, k, group, ⟨validates, role, trip⟩, rfl⟩
    exact ⟨⟨⟨ch, k, validates, rfl⟩, role, trip⟩, group⟩

/-! ### The groups (R108, R109) -/

theorem allGroups_split (g : Group) : ∃ pre post, allGroups = pre ++ g :: post ∧ g ∉ pre ∧ g ∉ post := by
  have mem : g ∈ allGroups := by revert g; decide
  have distinct : allGroups.Nodup := by decide
  obtain ⟨pre, post, split⟩ := List.append_of_mem mem
  obtain ⟨-, later, apart⟩ := List.nodup_append.mp (split ▸ distinct)
  exact ⟨pre, post, split, fun mem => apart g mem g (List.mem_cons_self ..) rfl, (List.nodup_cons.mp later).1⟩

theorem takeTrips_of_nil (g : Group) (s : State) : s.takeTrips g [] = s := rfl

/-- The trips of one group leave the other slots, and an incident that is active. -/
theorem takeTrips_others (g : Group) (l : List Change) (s : State) :
    (∀ other, other ≠ g → (s.takeTrips g l).ct.slots[other] = s.ct.slots[other]) ∧
      (s.ct.incident = true → (s.takeTrips g l).ct.incident = true) := by
  cases l with
  | nil => exact ⟨fun _ _ => rfl, id⟩
  | cons a l =>
    have some_ : a :: l ≠ [] := List.cons_ne_nil a l
    cases opened : s.ct.slots[g] with
    | none =>
      rw [takeTrips_of_free some_ opened]
      exact ⟨fun other apart => put_other apart .., fun _ => rfl⟩
    | some c =>
      rw [takeTrips_of_open some_ opened]
      exact ⟨fun other apart => put_other apart .., id⟩

/-- The trips `own` of each group of a list taken in turn. -/
def State.tripped (own : Group → List Change) (l : List Group) (s : State) : State := l.foldl (fun t g => t.takeTrips g (own g)) s

theorem tripped_others {own : Group → List Change} {l : List Group} (absent : g ∉ l) (s : State) :
    (s.tripped own l).ct.slots[g] = s.ct.slots[g] ∧ (s.tripped own l).ml = s.ml ∧
      (s.ct.incident = true → (s.tripped own l).ct.incident = true) := by
  refine foldl_keeps_mem (P := fun t => t.ct.slots[g] = s.ct.slots[g] ∧ t.ml = s.ml ∧ (s.ct.incident = true → t.ct.incident = true))
    (fun t d mem ⟨slot, ml, incident⟩ => ?_) ⟨rfl, rfl, id⟩
  obtain ⟨others, kept⟩ := takeTrips_others d (own d) t
  exact ⟨(others g fun same => absent (same ▸ mem)).trans slot, ((takeTrips_within ..).out .ml (by decide)).trans ml,
    fun active => kept (incident active)⟩

/-- A group's slot after the trips of all groups: what the group's own trips make of it. -/
theorem takeAllTrips_slot (g : Group) (trips : List Change) (s : State) :
    let own := trips.filter fun c => s.cm[c.channel].entry.group == g
    ∃ t : State, t.ct.slots[g] = s.ct.slots[g] ∧ t.ml = s.ml ∧ (s.takeAllTrips trips).ct.slots[g] = (t.takeTrips g own).ct.slots[g] ∧
      ((t.takeTrips g own).ct.incident = true → (s.takeAllTrips trips).ct.incident = true) := by
  intro mine
  obtain ⟨pre, post, split, before, after⟩ := allGroups_split g
  obtain ⟨own, isOwn⟩ : ∃ own : Group → List Change, own = fun d => trips.filter fun c => s.cm[c.channel].entry.group == d := ⟨_, rfl⟩
  have all : s.takeAllTrips trips = s.tripped own allGroups := by rw [isOwn]; rfl
  have result : s.takeAllTrips trips = ((s.tripped own pre).takeTrips g (own g)).tripped own post := by
    rw [all, split]
    exact List.foldl_append ..
  have same : own g = mine := by rw [isOwn]
  obtain ⟨slot, ml, -⟩ := tripped_others (own := own) before s
  obtain ⟨rest, -, kept⟩ := tripped_others (own := own) after ((s.tripped own pre).takeTrips g (own g))
  rw [result]
  rw [same] at rest kept ⊢
  exact ⟨s.tripped own pre, slot, ml, rest, kept⟩

/-- What the trips `trips`, each a channel with its stamp, make of a group's slot (R108, R109, R115). -/
structure Tripped (trips : Chan → Nat → Prop) (window : Nat) (old new : Option Cascade) (incident : Bool) : Prop where
  quiet : (∀ ch st, ¬ trips ch st) → new = old
  opens : (∃ ch st, trips ch st) → old = none → ∃ c, new = some c ∧ incident = true ∧
    (∀ ch st, trips ch st ↔ ∃ m ∈ c.members, m.channel = ch ∧ m.stamp = st) ∧
    (∃ m ∈ c.members, c.close = m.stamp + window) ∧ ∀ m ∈ c.members, c.close ≤ m.stamp + window
  joins : ∀ c, (∃ ch st, trips ch st) → old = some c → ∃ d, new = some d ∧ d.close = c.close ∧ c.members <+: d.members ∧
    (∀ ch, (∃ m ∈ d.members, m.channel = ch) ↔ (∃ m ∈ c.members, m.channel = ch) ∨ ∃ st, trips ch st) ∧
    ∀ m ∈ d.members, m ∈ c.members ∨ trips m.channel m.stamp

theorem takeTrips_tripped (g : Group) {l : List Change} {trips : Chan → Nat → Prop}
    (are : ∀ ch st, trips ch st ↔ ∃ c ∈ l, c.channel = ch ∧ c.stamp = st) (s : State) :
    Tripped trips (64 * s.ml.params.cascadeWindow + 320) s.ct.slots[g] (s.takeTrips g l).ct.slots[g] (s.takeTrips g l).ct.incident := by
  have some_ : (∃ ch st, trips ch st) → l ≠ [] := fun ⟨ch, st, trip⟩ none => by
    obtain ⟨c, mem, -⟩ := (are ch st).mp trip
    rw [none] at mem
    cases mem
  have member : ∀ m ∈ membersOf l, trips m.channel m.stamp := fun m mem => by
    obtain ⟨x, among, channel, stamp⟩ := mem_membersOf mem
    exact (are ..).mpr ⟨x, among, channel.symm, stamp.symm⟩
  have joined : ∀ ch st, trips ch st → ∃ m ∈ membersOf l, m.channel = ch ∧ m.stamp = st := fun ch st trip => by
    obtain ⟨c, mem, rfl, rfl⟩ := (are ch st).mp trip
    exact member_of_trip mem
  refine ⟨fun none => ?_, fun any free => ?_, fun c any opened => ?_⟩
  · have nil : l = [] := List.eq_nil_iff_forall_not_mem.mpr fun c mem => none _ _ ((are ..).mpr ⟨c, mem, rfl, rfl⟩)
    rw [nil, takeTrips_of_nil]
  · rw [takeTrips_of_free (some_ any) free]
    obtain ⟨⟨x, among, earliest⟩, least⟩ := earliestStamp_least (some_ any)
    obtain ⟨m, mem, -, stamp⟩ := member_of_trip among
    refine ⟨_, put_same g _ s.ct, rfl, fun ch st => ⟨joined ch st, fun ⟨m, mem, channel, stamp⟩ => channel ▸ stamp ▸ member m mem⟩,
      ⟨m, mem, ?_⟩, fun m mem => ?_⟩
    · show earliestStamp l + 64 * _ + 320 = _
      omega
    · obtain ⟨x, among, -, stamp⟩ := mem_membersOf mem
      have below := least x among
      show earliestStamp l + 64 * _ + 320 ≤ _
      omega
  · rw [takeTrips_of_open (some_ any) opened]
    obtain ⟨pre, all, only, -⟩ := foldl_joinMember (membersOf l) c.members
    refine ⟨_, put_same g _ s.ct, rfl, pre, fun ch => ⟨fun ⟨m, mem, channel⟩ => ?_, fun either => ?_⟩, fun m mem =>
      (only m mem).imp_right (member m)⟩
    · exact (only m mem).imp (fun old => ⟨m, old, channel⟩) fun new => ⟨m.stamp, channel ▸ member m new⟩
    · rcases either with ⟨m, mem, channel⟩ | ⟨st, trip⟩
      · exact ⟨m, pre.subset mem, channel⟩
      · obtain ⟨x, among, channel, -⟩ := joined ch st trip
        obtain ⟨m, mem, same⟩ := all x among
        exact ⟨m, mem, same.trans channel⟩

theorem Tripped.mono {trips : Chan → Nat → Prop} {window : Nat} {old new : Option Cascade} {a b : Bool}
    (h : Tripped trips window old new a) (later : a = true → b = true) : Tripped trips window old new b where
  quiet := h.quiet
  opens any free := by
    obtain ⟨c, opened, active, members, close⟩ := h.opens any free
    exact ⟨c, opened, later active, members, close⟩
  joins := h.joins

/-- A trip of a look in a group, with the stamp of its change. -/
def State.tripIn (s : State) (u : Uplink) (g : Group) (ch : Chan) (st : Nat) : Prop :=
  s.cm[ch].entry.group = g ∧ ∃ k, s.tripsAt u ch k ∧ st = s.datedAt ch k

theorem tripIn_iff (ch : Chan) (st : Nat) : s.tripIn u g ch st ↔ ∃ c ∈ s.groupTrips u g, c.channel = ch ∧ c.stamp = st := by
  constructor
  · rintro ⟨group, k, trips, stamp⟩
    exact ⟨s.changeAt ch k, (mem_groupTrips _).mpr ⟨ch, k, group, trips, rfl⟩, rfl, stamp.symm⟩
  · rintro ⟨c, mem, channel, stamp⟩
    obtain ⟨d, k, group, trips, rfl⟩ := (mem_groupTrips c).mp mem
    obtain rfl : d = ch := channel
    exact ⟨group, k, trips, stamp.symm⟩

theorem groupTrips_eq (u : Uplink) (g : Group) (s : State) {x : State} {l : List HandOn} (looks : s.allLooks u.status = (x, l)) :
    s.groupTrips u g = (tripsOf x.cm l).filter fun c => x.cm[c.channel].entry.group == g := by
  unfold State.groupTrips
  rw [looks]

/-- A group's slot after the trips of a look, taken in a state with its channel table. -/
theorem takeAllTrips_tripped (g : Group) {x : State} {l : List HandOn} (looks : s.allLooks u.status = (x, l)) (cm : t.cm = x.cm)
    (ct : t.ct = s.ct) (ml : t.ml = s.ml) :
    Tripped (s.tripIn u g) (64 * s.ml.params.cascadeWindow + 320) s.ct.slots[g] (t.takeAllTrips (tripsOf x.cm l)).ct.slots[g]
      (t.takeAllTrips (tripsOf x.cm l)).ct.incident := by
  obtain ⟨y, slot, same, result, active⟩ := takeAllTrips_slot g (tripsOf x.cm l) t
  rw [cm, ← groupTrips_eq u g s looks] at result active
  have tripped := takeTrips_tripped g (l := s.groupTrips u g) tripIn_iff y
  rw [slot, same, ct, ml] at tripped
  rw [result]
  exact tripped.mono active

/-- A group's slot after the channels of a look. -/
theorem channelPart_tripped (u : Uplink) (first : Bool) (s : State) (g : Group) :
    let w := s.channelPart u first
    Tripped (s.tripIn u g) (64 * s.ml.params.cascadeWindow + 320) s.ct.slots[g] w.ct.slots[g] w.ct.incident := by
  obtain ⟨⟨x, l⟩, looks⟩ : ∃ z, s.allLooks u.status = z := ⟨_, rfl⟩
  have within : Within [.cm, .eq, .sh] s (s.allLooks u.status).1 := allLooks_within ..
  rw [looks] at within
  have ct : x.ct = s.ct := within.out .ct (by decide)
  have ml : x.ml = s.ml := within.out .ml (by decide)
  intro w
  have written : w.ct = (if first then (x.takeAllTrips (tripsOf x.cm l)).tallied l else (x.tallied l).takeAllTrips (tripsOf x.cm l)).ct := by
    have result : w = State.writeStore .up u.status
        ((s.allLooks u.status).1.takeHandOns first (s.allLooks u.status).2) := rfl
    rw [result, looks]
    exact (writeStore_within ..).out .ct (by decide)
  rw [written]
  cases first with
  | true =>
    have last : ((x.takeAllTrips (tripsOf x.cm l)).tallied l).ct = (x.takeAllTrips (tripsOf x.cm l)).ct :=
      (tallied_within ..).out .ct (by decide)
    rw [if_pos rfl, last]
    exact takeAllTrips_tripped g looks rfl ct ml
  | false =>
    have between := tallied_within l x
    rw [if_neg Bool.false_ne_true]
    exact takeAllTrips_tripped g looks (between.out .cm (by decide)) ((between.out .ct (by decide)).trans ct)
      ((between.out .ml (by decide)).trans ml)

end Sys2Proof.Machine
end

/-! PROOF. The dating of a change and its record, chatter and its end, and the statement about both (R67, R73 to R81). -/

section
namespace Sys2Proof.Machine

variable {s t : State} {u : Uplink} {ch : Chan} {k : Candidate} {cls : RecClass}

/-! ### Classes and kinds (R67) -/

theorem changeClass_eq (cm : Vector Channel 24) (ch : Chan) :
    changeClass cm ch = if cm[ch].entry.role = .alarm ∨ cm[ch].entry.role = .trip then .a else .b := by
  unfold changeClass
  cases cm[ch].entry.role <;> rfl

theorem changeKind_eq (cm : Vector Channel 24) (ch : Chan) :
    changeKind cm ch = if cm[ch].entry.role = .mode ∧ shadowed cm ch = false then .mode else .state := by
  unfold changeKind
  by_cases role : cm[ch].entry.role = .mode <;> simp [role, -Fin.getElem_fin]

theorem presenceClass_eq (cm : Vector Channel 24) (ch : Chan) :
    presenceClass cm ch =
      if cm[ch].entry.role = .alarm ∨ cm[ch].entry.role = .trip ∨ (cm[ch].entry.role = .mode ∧ shadowed cm ch = false) then .a else .b := by
  unfold presenceClass
  cases cm[ch].entry.role <;> simp
  cases shadowed cm ch <;> rfl

theorem changeClass_of_entries {cm cm' : Vector Channel 24} (entries : ∀ ch : Chan, cm'[ch].entry = cm[ch].entry) (ch : Chan) :
    changeClass cm' ch = changeClass cm ch := by
  rw [changeClass_eq, changeClass_eq, entries]

theorem changeKind_of_entries {cm cm' : Vector Channel 24} (entries : ∀ ch : Chan, cm'[ch].entry = cm[ch].entry) (ch : Chan) :
    changeKind cm' ch = changeKind cm ch := by
  rw [changeKind_eq, changeKind_eq, entries, shadowed_of_entries entries]

theorem presenceClass_of_entries {cm cm' : Vector Channel 24} (entries : ∀ ch : Chan, cm'[ch].entry = cm[ch].entry) (ch : Chan) :
    presenceClass cm' ch = presenceClass cm ch := by
  rw [presenceClass_eq, presenceClass_eq, entries, shadowed_of_entries entries]

/-- A change of one channel that keeps its entry keeps all entries. -/
theorem entries_of_alone (own : t.cm[ch].entry = s.cm[ch].entry) (alone : Alone ch s t) (d : Chan) : t.cm[d].entry = s.cm[d].entry := by
  by_cases same : d = ch
  · rw [same, own]
  · rw [alone.others d same]

/-! ### The records of a channel (R73) -/

theorem admitsNow_of_same (store : t.cm[ch].store = s.cm[ch].store) (eq : t.eq = s.eq) : t.admitsNow ch cls ↔ s.admitsNow ch cls := by
  unfold State.admitsNow
  rw [store, eq]

/-- A record dated at or after the floor, offered where the channel's store and the EQ are those of `s`, and what follows it. -/
theorem recorded_admitted {v w : State} (admits : s.admitsNow ch cls) (store : v.cm[ch].store = s.cm[ch].store) (eq : v.eq = s.eq)
    {stamp : Nat} (floor : v.cm[ch].floor ≤ stamp) (kind : RecKind) (i : Bool) (old new : Option Code) (aux : Nat) (vals : StationVals)
    (later : Appended (v.channelRecord ch kind cls i old new aux stamp vals) w) :
    s.admittedNext w { mkRecord kind cls ch.val (codeOrNone old) (codeOrNone new) aux (stampOf vals stamp) with initial := i } := by
  have admitted := channelRecord_admitted ((admitsNow_of_same store eq).mpr admits) kind i old new aux stamp vals
  rw [max_eq_left floor] at admitted
  exact (admitted.append later).of_eq eq

/-! ### A change of a PRESENT channel (R79, R80) -/

theorem recordChange_of_chatter {c : Chatter} (chatter : s.cm[ch].chatter = some c) (x : Change) :
    s.recordChange ch x = s.onChannel ch fun y =>
      { y with suppressed := satAdd top16 y.suppressed 1,
               chatter := some { c with deadline := x.stamp + s.ml.params.chatterTicks, lastStamp := x.stamp, lastVals := x.vals } } := by
  unfold State.recordChange
  dsimp only
  rw [chatter]

theorem recordChange_of_entering (still : s.cm[ch].chatter = none) {x : Change}
    (enters : entersChatter s.cm[ch] s.ml.params.chatterTicks x.stamp = true) :
    s.recordChange ch x =
      (s.channelRecord ch .chatterOn (changeClass s.cm ch) false x.old (some x.new) 0 x.stamp x.vals).onChannel ch fun y =>
        { y with suppressed := 0,
                 chatter := some { codeAtEntry := x.new, deadline := x.stamp + s.ml.params.chatterTicks, lastStamp := x.stamp,
                                   lastVals := x.vals } } := by
  unfold State.recordChange
  dsimp only
  rw [still]
  exact if_pos enters

theorem recordChange_of_calm (still : s.cm[ch].chatter = none) {x : Change}
    (calm : entersChatter s.cm[ch] s.ml.params.chatterTicks x.stamp = false) :
    s.recordChange ch x =
      (s.channelRecord ch (changeKind s.cm ch) (changeClass s.cm ch) false x.old (some x.new) 0 x.stamp x.vals).onChannel ch fun y =>
        { y with recent := appendRecent y.entry.chatterLimit y.recent x.stamp } := by
  unfold State.recordChange
  dsimp only
  rw [still]
  exact if_neg (by rw [calm]; decide)

theorem entersChatter_of_limit {x : Channel} {window stamp first : Nat} {l : List Nat} (recent : x.recent = first :: l)
    (limit : x.entry.chatterLimit ≤ l.length + 2) (inside : stamp - first ≤ window) : entersChatter x window stamp = true := by
  simp only [entersChatter, recent, List.length_cons, Bool.and_eq_true, decide_eq_true_eq]
  omega

theorem entersChatter_of_calm {x : Channel} {window stamp : Nat}
    (calm : x.recent = [] ∨ x.recent.length + 1 < x.entry.chatterLimit ∨ ∃ first ∈ x.recent.head?, window < stamp - first) :
    entersChatter x window stamp = false := by
  unfold entersChatter
  cases recent : x.recent with
  | nil => rfl
  | cons first l =>
    dsimp only
    simp only [recent, List.length_cons, List.head?_cons, Option.mem_def, Option.some.injEq, exists_eq_left', reduceCtorEq,
      false_or] at calm
    simp only [List.length_cons, Bool.and_eq_false_iff, decide_eq_false_iff_not]
    omega

/-! ### A validated change (R72, R73, R77, R78) -/

/-- The channel with its new code, before its record. -/
def State.valued (ch : Chan) (k : Candidate) (s : State) : State :=
  s.onChannel ch fun y => { y with valid := some k.code, candidate := none, presence := .present }

theorem valued_self (ch : Chan) (k : Candidate) (s : State) :
    (s.valued ch k).cm[ch] = { s.cm[ch] with valid := some k.code, candidate := none, presence := .present } ∧
      (∀ d : Chan, (s.valued ch k).cm[d].entry = s.cm[d].entry) := by
  have own : (s.valued ch k).cm[ch] = { s.cm[ch] with valid := some k.code, candidate := none, presence := .present } := onChannel_self ..
  exact ⟨own, entries_of_alone (by rw [own]) (onChannel_alone ..)⟩

theorem validate_of_unknown (unknown : s.cm[ch].presence = .unknown) (k : Candidate) :
    (s.validate ch k).1 =
      (s.valued ch k).channelRecord ch (changeKind s.cm ch) (changeClass s.cm ch) true none (some k.code) 0 (s.datedAt ch k) k.vals := by
  unfold State.validate
  dsimp only
  rw [unknown]
  rfl

theorem validate_of_absent (absent : s.cm[ch].presence = .absent) (k : Candidate) :
    (s.validate ch k).1 =
      (s.valued ch k).channelRecord ch .channelFound (presenceClass s.cm ch) false none (some k.code) 0 (s.datedAt ch k) k.vals := by
  unfold State.validate
  dsimp only
  rw [absent]
  rfl

theorem validate_of_present (present : s.cm[ch].presence = .present) (k : Candidate) :
    (s.validate ch k).1 = (s.valued ch k).recordChange ch (s.changeAt ch k) := by
  unfold State.validate
  dsimp only
  rw [present]
  rfl

theorem validate_handOn (s : State) (ch : Chan) (k : Candidate) : (s.validate ch k).2 = [.change (s.changeAt ch k)] := rfl

theorem datedAt_floor (s : State) (ch : Chan) (k : Candidate) : s.cm[ch].floor ≤ s.datedAt ch k := le_max_right ..

/-- A change of a channel in CHATTER is counted and moves the quiet deadline. -/
theorem validate_in_chatter (present : s.cm[ch].presence = .present) {c : Chatter} (chatter : s.cm[ch].chatter = some c) :
    let t := (s.validate ch k).1
    t.eq = s.eq ∧ t.cm[ch].suppressed = min (s.cm[ch].suppressed + 1) 65535 ∧ t.cm[ch].floor = s.cm[ch].floor ∧
      t.cm[ch].chatter = some { c with deadline := s.datedAt ch k + s.ml.params.chatterWindow * 64000, lastStamp := s.datedAt ch k, lastVals := k.vals } := by
  have own := (valued_self ch k s).1
  intro t
  have result : t = _ :=
    (validate_of_present present k).trans (recordChange_of_chatter (s := s.valued ch k) (c := c) (by rw [own]; exact chatter) _)
  have cm : t.cm[ch] = _ := (congrArg (fun x : State => x.cm[ch]) result).trans (onChannel_self ..)
  rw [own] at cm
  rw [cm]
  exact ⟨(congrArg State.eq result :), rfl, rfl, rfl⟩

/-- The change that reaches the limit within the window enters CHATTER. -/
theorem validate_enters_chatter (present : s.cm[ch].presence = .present) (still : s.cm[ch].chatter = none)
    (enters : entersChatter s.cm[ch] s.ml.params.chatterTicks (s.datedAt ch k) = true) :
    let t := (s.validate ch k).1
    (s.admitsNow ch (changeClass s.cm ch) → s.admittedNext t (mkRecord .chatterOn (changeClass s.cm ch) ch.val (codeOrNone s.cm[ch].valid)
      k.code.val 0 (stampOf k.vals (s.datedAt ch k)))) ∧
      t.cm[ch].floor = s.datedAt ch k ∧ t.cm[ch].suppressed = 0 ∧
      t.cm[ch].chatter = some { codeAtEntry := k.code, deadline := s.datedAt ch k + s.ml.params.chatterWindow * 64000, lastStamp := s.datedAt ch k, lastVals := k.vals } := by
  obtain ⟨own, entries⟩ := valued_self ch k s
  obtain ⟨w, isW⟩ : ∃ w, w = s.valued ch k := ⟨_, rfl⟩
  have eq : w.eq = s.eq := by rw [isW]; rfl
  have params : w.ml = s.ml := by rw [isW]; rfl
  rw [← isW] at own entries
  have result := validate_of_present present k
  rw [← isW, recordChange_of_entering (s := w) (by rw [own]; exact still) (by rw [own, params]; exact enters)] at result
  rw [changeClass_of_entries entries] at result
  intro t
  have cm : t.cm[ch] = _ := (congrArg (fun x : State => x.cm[ch]) result).trans (onChannel_self ..)
  have floor := (channelRecord_self ch .chatterOn (changeClass s.cm ch) false s.cm[ch].valid (some k.code) 0 (s.datedAt ch k) k.vals w).1
  refine ⟨fun admits => ?_, ?_, ?_, ?_⟩
  · exact recorded_admitted admits (by rw [own]) eq (by rw [own]; exact datedAt_floor s ch k) .chatterOn false s.cm[ch].valid (some k.code) 0 k.vals
      (.of_eq (congrArg State.eq result :))
  · rw [cm]
    exact (congrArg Channel.floor floor).trans (by rw [own]; exact max_eq_left (datedAt_floor s ch k))
  · rw [cm]
  · rw [cm, params]
    rfl

/-- Any other change of a PRESENT channel makes its record and is remembered. -/
theorem validate_of_calm (present : s.cm[ch].presence = .present) (still : s.cm[ch].chatter = none)
    (calm : entersChatter s.cm[ch] s.ml.params.chatterTicks (s.datedAt ch k) = false) :
    let t := (s.validate ch k).1
    (s.admitsNow ch (changeClass s.cm ch) → s.admittedNext t (mkRecord (changeKind s.cm ch) (changeClass s.cm ch) ch.val
      (codeOrNone s.cm[ch].valid) k.code.val 0 (stampOf k.vals (s.datedAt ch k)))) ∧
      t.cm[ch].floor = s.datedAt ch k ∧ t.cm[ch].chatter = none ∧ t.cm[ch].recent.getLast? = some (s.datedAt ch k) := by
  obtain ⟨own, entries⟩ := valued_self ch k s
  obtain ⟨w, isW⟩ : ∃ w, w = s.valued ch k := ⟨_, rfl⟩
  have eq : w.eq = s.eq := by rw [isW]; rfl
  have params : w.ml = s.ml := by rw [isW]; rfl
  rw [← isW] at own entries
  have result := validate_of_present present k
  rw [← isW, recordChange_of_calm (s := w) (by rw [own]; exact still) (by rw [own, params]; exact calm)] at result
  rw [changeClass_of_entries entries, changeKind_of_entries entries] at result
  intro t
  have cm : t.cm[ch] = _ := (congrArg (fun x : State => x.cm[ch]) result).trans (onChannel_self ..)
  have record := (channelRecord_self ch (changeKind s.cm ch) (changeClass s.cm ch) false s.cm[ch].valid (some k.code) 0 (s.datedAt ch k) k.vals w).1
  refine ⟨fun admits => ?_, ?_, ?_, ?_⟩
  · exact recorded_admitted admits (by rw [own]) eq (by rw [own]; exact datedAt_floor s ch k) (changeKind s.cm ch) false s.cm[ch].valid (some k.code) 0 k.vals
      (.of_eq (congrArg State.eq result :))
  · rw [cm]
    exact (congrArg Channel.floor record).trans (by rw [own]; exact max_eq_left (datedAt_floor s ch k))
  · rw [cm]
    exact (congrArg Channel.chatter record).trans (by rw [own]; exact still)
  · rw [cm]
    exact List.getLast?_concat ..

/-- What a validation in `s` leaves in `t`: the floor, and the record by the channel's presence (R73, R77, R78, R80). -/
structure Dated (ch : Chan) (k : Candidate) (s t : State) : Prop where
  floor : t.cm[ch].floor =
    if s.cm[ch].chatter.isSome = true ∧ s.cm[ch].presence = .present then s.cm[ch].floor else s.datedAt ch k
  unknown : s.cm[ch].presence = .unknown → t.cm[ch].recent = s.cm[ch].recent ∧ (s.admitsNow ch (changeClass s.cm ch) →
    s.admittedNext t { mkRecord (changeKind s.cm ch) (changeClass s.cm ch) ch.val 255 k.code.val 0 (stampOf k.vals (s.datedAt ch k)) with
      initial := true })
  absent : s.cm[ch].presence = .absent → t.cm[ch].recent = s.cm[ch].recent ∧ (s.admitsNow ch (presenceClass s.cm ch) →
    s.admittedNext t (mkRecord .channelFound (presenceClass s.cm ch) ch.val 255 k.code.val 0 (stampOf k.vals (s.datedAt ch k))))
  present : s.cm[ch].presence = .present → s.cm[ch].chatter = none → t.cm[ch].chatter = none →
    s.admitsNow ch (changeClass s.cm ch) → s.admittedNext t (mkRecord (changeKind s.cm ch) (changeClass s.cm ch) ch.val
      (codeOrNone s.cm[ch].valid) k.code.val 0 (stampOf k.vals (s.datedAt ch k)))

/-- A record of a channel whose presence changes, with the floor and the recent changes that it leaves. -/
theorem valued_record (ch : Chan) (k : Candidate) (s : State) (kind : RecKind) (i : Bool) :
    let t := (s.valued ch k).channelRecord ch kind cls i none (some k.code) 0 (s.datedAt ch k) k.vals
    t.cm[ch].floor = s.datedAt ch k ∧ t.cm[ch].recent = s.cm[ch].recent ∧ (s.admitsNow ch cls →
      s.admittedNext t { mkRecord kind cls ch.val 255 k.code.val 0 (stampOf k.vals (s.datedAt ch k)) with initial := i }) := by
  obtain ⟨own, -⟩ := valued_self ch k s
  intro t
  have self := (channelRecord_self ch kind cls i none (some k.code) 0 (s.datedAt ch k) k.vals (s.valued ch k)).1
  refine ⟨?_, ?_, fun admits => ?_⟩
  · exact (congrArg Channel.floor self).trans (by rw [own]; exact max_eq_left (datedAt_floor s ch k))
  · exact (congrArg Channel.recent self).trans (by rw [own])
  · exact recorded_admitted (v := s.valued ch k) admits (by rw [own]) rfl (by rw [own]; exact datedAt_floor s ch k) kind i none (some k.code) 0 k.vals (.refl _)

theorem validate_dated (ch : Chan) (k : Candidate) (s : State) : Dated ch k s (s.validate ch k).1 := by
  cases presence : s.cm[ch].presence with
  | unknown =>
    obtain ⟨floor, recent, record⟩ := valued_record (cls := changeClass s.cm ch) ch k s (changeKind s.cm ch) true
    rw [← validate_of_unknown presence] at floor recent record
    exact ⟨floor.trans (if_neg fun h => Presence.noConfusion (presence.symm.trans h.2)).symm, fun _ => ⟨recent, record⟩,
      fun other => (nomatch presence.symm.trans other), fun other => (nomatch presence.symm.trans other)⟩
  | absent =>
    obtain ⟨floor, recent, record⟩ := valued_record (cls := presenceClass s.cm ch) ch k s .channelFound false
    rw [← validate_of_absent presence] at floor recent record
    exact ⟨floor.trans (if_neg fun h => Presence.noConfusion (presence.symm.trans h.2)).symm, fun other => (nomatch presence.symm.trans other),
      fun _ => ⟨recent, record⟩, fun other => (nomatch presence.symm.trans other)⟩
  | present =>
    refine ⟨?_, fun other => (nomatch presence.symm.trans other), fun other => (nomatch presence.symm.trans other), fun _ still calm admits => ?_⟩
    · cases chatter : s.cm[ch].chatter with
      | some c =>
        obtain ⟨-, -, floor, -⟩ := validate_in_chatter (k := k) presence chatter
        exact floor.trans (if_pos ⟨rfl, presence⟩).symm
      | none =>
        refine Eq.trans ?_ (if_neg fun h => nomatch h.1).symm
        cases enters : entersChatter s.cm[ch] s.ml.params.chatterTicks (s.datedAt ch k) with
        | true => exact (validate_enters_chatter presence chatter enters).2.1
        | false => exact (validate_of_calm presence chatter enters).2.1
    · cases enters : entersChatter s.cm[ch] s.ml.params.chatterTicks (s.datedAt ch k) with
      | true =>
        obtain ⟨-, -, -, chatter⟩ := validate_enters_chatter presence still enters
        exact nomatch calm.symm.trans chatter
      | false => exact (validate_of_calm presence still enters).1 admits

/-- What a look leaves before the validation is the channel's part of these. -/
theorem Dated.from_same {v : State} (d : Dated ch k v t) (entries : ∀ c : Chan, v.cm[c].entry = s.cm[c].entry) (eq : v.eq = s.eq)
    (presence : v.cm[ch].presence = s.cm[ch].presence) (chatter : v.cm[ch].chatter = s.cm[ch].chatter)
    (floor : v.cm[ch].floor = s.cm[ch].floor) (recent : v.cm[ch].recent = s.cm[ch].recent) (valid : v.cm[ch].valid = s.cm[ch].valid)
    (store : v.cm[ch].store = s.cm[ch].store) : Dated ch k s t := by
  have dated : v.datedAt ch k = s.datedAt ch k := by unfold State.datedAt; rw [entries, floor]
  have admits : ∀ c, v.admitsNow ch c ↔ s.admitsNow ch c := fun c => admitsNow_of_same store eq
  have next : ∀ r, v.admittedNext t r → s.admittedNext t r := fun r h => h.of_eq eq
  obtain ⟨f, un, ab, pr⟩ := d
  rw [dated, presence, chatter, floor] at f
  rw [dated, presence, recent, admits, changeClass_of_entries entries, changeKind_of_entries entries] at un
  rw [dated, presence, recent, admits, presenceClass_of_entries entries] at ab
  rw [dated, presence, chatter, valid, admits, changeClass_of_entries entries, changeKind_of_entries entries] at pr
  exact ⟨f, fun h => (un h).imp id fun g admits => next _ (g admits), fun h => (ab h).imp id fun g admits => next _ (g admits),
    fun a b c admits => next _ (pr a b c admits)⟩

theorem Dated.later {w : State} (d : Dated ch k s t) (own : w.cm[ch] = t.cm[ch]) (after : Appended t w) : Dated ch k s w where
  floor := by rw [own]; exact d.floor
  unknown h := ⟨by rw [own]; exact (d.unknown h).1, fun admits => ((d.unknown h).2 admits).append after⟩
  absent h := ⟨by rw [own]; exact (d.absent h).1, fun admits => ((d.absent h).2 admits).append after⟩
  present a b c admits := (d.present a b (by rw [← own]; exact c) admits).append after

/-! ### The end of chatter and a loss (R76, R81) -/

theorem endChatter_admitted (admits : s.admitsNow ch (changeClass s.cm ch)) (c : Chatter) (new : Option Code) :
    s.admittedNext (s.endChatter ch c new) (mkRecord .chatterOff (changeClass s.cm ch) ch.val c.codeAtEntry.val (codeOrNone new)
      s.cm[ch].suppressed (stampOf c.lastVals (max c.lastStamp s.cm[ch].floor))) :=
  channelRecord_admitted admits .chatterOff false (some c.codeAtEntry) new s.cm[ch].suppressed c.lastStamp c.lastVals

/-- What a loss in `s`, of a run that began at `r`, leaves in `t` (R76, R81). -/
structure Lost (ch : Chan) (r : RunStart) (s t : State) : Prop where
  still : s.cm[ch].chatter = none → s.admitsNow ch (presenceClass s.cm ch) →
    s.admittedNext t (mkRecord .channelLost (presenceClass s.cm ch) ch.val (codeOrNone s.cm[ch].valid) 255 0
      (stampOf r.vals (max (r.frame - s.cm[ch].entry.latency) s.cm[ch].floor)))
  chattering : ∀ c, s.cm[ch].chatter = some c →
    t.cm[ch].chatter = none ∧ t.cm[ch].suppressed = 0 ∧ t.cm[ch].recent = [] ∧ (s.admitsNow ch (changeClass s.cm ch) →
      s.admittedNext t (mkRecord .chatterOff (changeClass s.cm ch) ch.val c.codeAtEntry.val (codeOrNone s.cm[ch].valid)
        s.cm[ch].suppressed (stampOf c.lastVals (max c.lastStamp s.cm[ch].floor))))

theorem loseChannel_lost (ch : Chan) (r : RunStart) (s : State) : Lost ch r s (s.loseChannel ch r).1 := by
  obtain ⟨v, isV⟩ : ∃ v, v = (s.chatterEnded ch s.cm[ch].valid).onChannel ch fun x => { x with valid := none, presence := .absent } := ⟨_, rfl⟩
  have own : v.cm[ch] = { (s.chatterEnded ch s.cm[ch].valid).cm[ch] with valid := none, presence := .absent } := by rw [isV]; exact onChannel_self ..
  have eq : v.eq = (s.chatterEnded ch s.cm[ch].valid).eq := by rw [isV]; rfl
  have self := (channelRecord_self ch .channelLost (presenceClass s.cm ch) false s.cm[ch].valid none 0
    (r.frame - s.cm[ch].entry.latency) r.vals v).1
  rw [loseChannel_eq, ← isV]
  refine ⟨fun none admits => ?_, fun c chatter => ?_⟩
  · have same : s.chatterEnded ch s.cm[ch].valid = s := by unfold State.chatterEnded; rw [none]
    rw [same] at own eq
    have admitted := channelRecord_admitted (s := v) ((admitsNow_of_same (by rw [own]) eq).mpr admits) .channelLost false
      s.cm[ch].valid Option.none 0 (r.frame - s.cm[ch].entry.latency) r.vals
    rw [own] at admitted
    exact admitted.of_eq eq
  · have same : s.chatterEnded ch s.cm[ch].valid = s.endChatter ch c s.cm[ch].valid := by unfold State.chatterEnded; rw [chatter]
    rw [same] at own eq
    rw [(endChatter_self ..).1] at own
    rw [own] at self
    refine ⟨by rw [self], by rw [self], by rw [self], fun admits => ?_⟩
    exact (endChatter_admitted admits c s.cm[ch].valid).append ((Appended.of_eq eq).trans (channelRecord_appended ..))

theorem Lost.from_same {v : State} {r : RunStart} (l : Lost ch r v t) (entries : ∀ c : Chan, v.cm[c].entry = s.cm[c].entry) (eq : v.eq = s.eq)
    (chatter : v.cm[ch].chatter = s.cm[ch].chatter) (floor : v.cm[ch].floor = s.cm[ch].floor) (valid : v.cm[ch].valid = s.cm[ch].valid)
    (suppressed : v.cm[ch].suppressed = s.cm[ch].suppressed) (store : v.cm[ch].store = s.cm[ch].store) : Lost ch r s t := by
  have admits : ∀ c, v.admitsNow ch c ↔ s.admitsNow ch c := fun c => admitsNow_of_same store eq
  obtain ⟨st, ct⟩ := l
  rw [chatter, floor, valid, entries, admits, presenceClass_of_entries entries] at st
  rw [chatter, floor, valid, suppressed, admits, changeClass_of_entries entries] at ct
  refine ⟨fun none open_ => (st none open_).of_eq eq, fun c some_ => ?_⟩
  obtain ⟨none, zero, nil, record⟩ := ct c some_
  exact ⟨none, zero, nil, fun open_ => (record open_).of_eq eq⟩

theorem Lost.later {w : State} {r : RunStart} (l : Lost ch r s t) (own : w.cm[ch] = t.cm[ch]) (after : Appended t w) : Lost ch r s w where
  still none admits := (l.still none admits).append after
  chattering c some_ := by
    obtain ⟨none, zero, nil, record⟩ := l.chattering c some_
    rw [own]
    exact ⟨none, zero, nil, fun admits => (record admits).append after⟩

/-! ### What follows appends -/

theorem endChatter_appended (ch : Chan) (c : Chatter) (new : Option Code) (s : State) : Appended s (s.endChatter ch c new) :=
  (channelRecord_appended ..).trans (.of_eq rfl)

theorem recordChange_appended (ch : Chan) (c : Change) (s : State) : Appended s (s.recordChange ch c) := by
  unfold State.recordChange
  dsimp only
  split
  · exact .of_eq rfl
  · split
    · exact (channelRecord_appended ..).trans (.of_eq rfl)
    · exact (channelRecord_appended ..).trans (.of_eq rfl)

theorem validate_appended (ch : Chan) (k : Candidate) (s : State) : Appended s (s.validate ch k).1 := by
  have start : Appended s (s.valued ch k) := .of_eq rfl
  cases presence : s.cm[ch].presence with
  | unknown => rw [validate_of_unknown presence]; exact start.trans (channelRecord_appended ..)
  | absent => rw [validate_of_absent presence]; exact start.trans (channelRecord_appended ..)
  | present => rw [validate_of_present presence]; exact start.trans (recordChange_appended ..)

theorem chatterEnded_appended (ch : Chan) (new : Option Code) (s : State) : Appended s (s.chatterEnded ch new) := by
  unfold State.chatterEnded
  split
  · exact endChatter_appended ..
  · exact .refl s

theorem loseChannel_appended (ch : Chan) (r : RunStart) (s : State) : Appended s (s.loseChannel ch r).1 := by
  have absent := onChannel_within ch (fun x => { x with valid := none, presence := .absent }) (s.chatterEnded ch s.cm[ch].valid)
  rw [loseChannel_eq]
  exact ((chatterEnded_appended ..).trans (.of_within absent (by decide))).trans (channelRecord_appended ..)

theorem channelLook_appended (ch : Chan) (o : Octet) (s : State) : Appended s (s.channelLook ch o).1 := by
  cases monitored : s.cm[ch].entry.monitored with
  | false => rw [channelLook_of_ignored monitored]; exact .of_eq rfl
  | true =>
    by_cases device : o = 0xFF#8
    · have start : Appended s (s.missing ch o (s.runOf ch)) := .of_eq rfl
      rw [channelLook_of_missing monitored device]
      split
      · exact start.trans (loseChannel_appended ..)
      · exact start
    · have start : Appended s (s.coded ch o) := .of_eq rfl
      rw [channelLook_of_coded monitored device]
      split
      · split
        · exact start
        · exact .of_eq rfl
      · split
        · exact start.trans (validate_appended ..)
        · exact .of_eq rfl

theorem looked_appended (status : Vector Octet 24) (l : List Chan) (s : State) : Appended s (s.looked status l) :=
  foldl_keeps (P := Appended s) (fun _ _ h => h.trans (channelLook_appended ..)) l (.refl s)

theorem settleAttempt_appended (v : UnitNo) (old new : UnitMode) (st : Nat) (vals : StationVals) (s : State) :
    Appended s (s.settleAttempt v old new st vals) := by
  unfold State.settleAttempt
  split
  · split
    · exact .of_eq rfl
    · split
      · exact failAttempt_appended ..
      · split
        · exact failAttempt_appended ..
        · exact .refl s
  · split
    · dsimp only
      split <;> exact .of_eq rfl
    · exact .refl s

theorem handToTally_appended (h : HandOn) (s : State) : Appended s (s.handToTally h) := by
  unfold State.handToTally
  split
  · split
    · unfold State.sourceChange
      dsimp only
      split
      · exact .refl s
      · exact .trans (.of_within (onUnit_within ..) (by decide)) (settleAttempt_appended ..)
    · exact .refl s
  · split
    · exact eventChange_appended ..
    · exact .refl s

theorem appended_incidentKept (s : State) : IncidentKept (Appended s) where
  offer r _ g := g.trans (State.offer_appended ..)
  slots _ g := g.trans (.of_eq rfl)
  evalIncident g := g.trans (evalIncident_appended _)
  cascadeOpened _ g := g.trans (failAttempt_appended ..)
  countTrip a b g := g.trans (.of_within (countTrip_within a b _) (by decide))
  attributeCascade a b c d g := g.trans (.of_within (attributeCascade_within a b c d _) (by decide))

end Sys2Proof.Machine
end

/-! PROOF. The records of a look's lowest change or loss, the end of chatter, and the statement about both (R59, R73 to R81). -/

section
namespace Sys2Proof.Machine

variable {s t : State} {u : Uplink} {ch : Chan} {k : Candidate}

/-! ### What follows the channels of a look appends -/

theorem channelPart_appended (u : Uplink) (first : Bool) (s : State) : Appended (s.allLooks u.status).1 (s.channelPart u first) :=
  ((appended_incidentKept _).takeHandOns first (s.allLooks u.status).2 (fun _ h _ g => g.trans (handToTally_appended h _)) (.refl _)).trans
    (writeStore_appended ..)

/-! ### Channels that a look neither validates nor loses -/

theorem channelLook_still (still : s.stillAt u ch) : Within [.cm] s (s.channelLook ch u.status[ch]).1 := by
  obtain ⟨validates, loses⟩ := still
  have taken : Within [.cm] s (s.coded ch u.status[ch]) := (onChannel_within ..).trans (onChannel_within ..)
  cases monitored : s.cm[ch].entry.monitored with
  | false =>
    rw [channelLook_of_ignored monitored]
    exact onChannel_within ..
  | true =>
    by_cases device : u.status[ch] = 0xFF#8
    · rw [channelLook_of_missing monitored device, if_neg fun ⟨run, present⟩ => loses ⟨monitored, device, run, present⟩]
      exact (onChannel_within ..).trans (onChannel_within ..)
    · rw [channelLook_of_coded monitored device]
      cases candidate : s.cm[ch].candidate with
      | none =>
        dsimp only
        split
        · exact taken
        · exact taken.trans (onChannel_within ..)
      | some k =>
        dsimp only
        rw [if_neg fun code => validates k ⟨monitored, device, candidate, code⟩]
        exact taken.trans (onChannel_within ..)

theorem stillAt_of_same (own : t.cm[ch] = s.cm[ch]) (still : s.stillAt u ch) : t.stillAt u ch := by
  unfold State.stillAt State.validatesAt State.losesAt at *
  rw [own]
  exact still

/-- The looks of channels that stay still reach the channel table alone. -/
theorem looked_still {l : List Chan} (distinct : l.Nodup) (still : ∀ d ∈ l, s.stillAt u d) : Within [.cm] s (s.looked u.status l) := by
  induction l generalizing s with
  | nil => exact .refl ..
  | cons a l ih =>
    obtain ⟨absent, distinct⟩ := List.nodup_cons.mp distinct
    obtain ⟨first, rest⟩ := List.forall_mem_cons.mp still
    rw [looked_cons]
    refine (channelLook_still first).trans (ih distinct fun d mem => stillAt_of_same ?_ (rest d mem))
    exact (channelLook_judged a u.status[a] s).2.others d fun same => absent (same ▸ mem)

theorem looked_entries (status : Vector Octet 24) (l : List Chan) (s : State) (d : Chan) : (s.looked status l).cm[d].entry = s.cm[d].entry :=
  foldl_keeps (P := fun t => t.cm[d].entry = s.cm[d].entry)
    (fun _ a same => (entries_of_alone (channelLook_judged a status[a] _).1.1 (channelLook_judged a status[a] _).2 d).trans same) l rfl

/-- The look of the lowest channel that changes: the state it is taken in, and what the whole look keeps of it. -/
theorem lowest_look (ch : Chan) (still : ∀ d, d < ch → s.stillAt u d) :
    ∃ p : State, p.cm[ch] = s.cm[ch] ∧ (∀ d : Chan, p.cm[d].entry = s.cm[d].entry) ∧ p.eq = s.eq ∧ p.tb = s.tb ∧
      ∀ first, (s.channelPart u first).cm[ch] = (p.channelLook ch u.status[ch]).1.cm[ch] ∧
        Appended (p.channelLook ch u.status[ch]).1 (s.channelPart u first) := by
  obtain ⟨pre, post, split, lower, before, after⟩ := allChannels_split ch
  have distinct : pre.Nodup := (List.nodup_append.mp (split ▸ allChannels_nodup)).1
  have quiet : Within [.cm] s (s.looked u.status pre) := looked_still distinct fun d mem => still d (lower d mem)
  have all : (s.allLooks u.status).1 = ((s.looked u.status pre).channelLook ch u.status[ch]).1.looked u.status post := by
    rw [allLooks_looked, split, looked_append, looked_cons]
  refine ⟨s.looked u.status pre, looked_others before s, looked_entries u.status pre s, quiet.out .eq (by decide), quiet.out .tb (by decide),
    fun first => ⟨?_, ?_⟩⟩
  · rw [channelPart_cm, all]
    exact looked_others after _
  · have rest := looked_appended u.status post ((s.looked u.status pre).channelLook ch u.status[ch]).1
    rw [← all] at rest
    exact rest.trans (channelPart_appended ..)

/-! ### The lowest change or loss of a look -/

/-- The lowest channel that a look changes, when it is validated. -/
theorem channelPart_dated (first : Bool) (still : ∀ d, d < ch → s.stillAt u d) (validates : s.validatesAt u ch k) :
    Dated ch k s (s.channelPart u first) := by
  obtain ⟨p, own, entries, eq, -, result⟩ := lowest_look ch still
  obtain ⟨monitored, device, candidate, code⟩ := validates
  obtain ⟨taken, alone⟩ := coded_self ch u.status[ch] p
  have look : p.channelLook ch u.status[ch] = (p.coded ch u.status[ch]).validate ch k := by
    rw [channelLook_of_coded (by rw [own]; exact monitored) device, own, candidate]
    exact if_pos code
  obtain ⟨cm, after⟩ := result first
  rw [look] at cm after
  rw [own] at taken
  refine Dated.later (.from_same (validate_dated ch k _) (fun c => (entries_of_alone ?_ alone c).trans (entries c)) eq ?_ ?_ ?_ ?_ ?_ ?_) cm after
  · rw [taken, own]
  all_goals rw [taken]

/-- The lowest channel that a look changes, when it is lost. -/
theorem channelPart_lost {r : RunStart} (first : Bool) (still : ∀ d, d < ch → s.stillAt u d) (loses : s.losesAt u ch)
    (run : s.cm[ch].runStart = some r) : Lost ch r s (s.channelPart u first) := by
  obtain ⟨p, own, entries, eq, -, result⟩ := lowest_look ch still
  obtain ⟨monitored, device, count, present⟩ := loses
  have start : p.runOf ch = r := by
    unfold State.runOf
    rw [own, if_neg (by omega), run]
    rfl
  obtain ⟨taken, alone⟩ := missing_self ch u.status[ch] r p
  have look : p.channelLook ch u.status[ch] = (p.missing ch u.status[ch] r).loseChannel ch r := by
    rw [channelLook_of_missing (by rw [own]; exact monitored) device, own, if_pos ⟨count, present⟩, start]
  obtain ⟨cm, after⟩ := result first
  rw [look] at cm after
  rw [own] at taken
  refine Lost.later (.from_same (loseChannel_lost ch r _) (fun c => (entries_of_alone ?_ alone c).trans (entries c)) eq ?_ ?_ ?_ ?_ ?_) cm after
  · rw [taken, own]
  all_goals rw [taken]

/-! ### The look's units -/

/-- A unit's tally is judged as it was before the look, whether a console message comes before the channels or not. -/
theorem judgedIn_sameUnit (u : Uplink) (o : LookOrder) (s : State) (v : UnitNo) : SameUnit s.tu[v] (s.judgedIn u o).tu[v] := by
  unfold State.judgedIn
  split
  · unfold State.consoleFirst
    dsimp only
    split
    · exact .of_sameTally ((sameTallies_handoverKept s).takeMessage (s := s.noted.onHc _) _ (.of_tu rfl) v)
    · exact .refl _
  · exact .refl _

/-! ### The quiet deadline (R81) -/

theorem quietDeadline_of_calm (calm : s.cm[ch].chatter = none) : s.quietDeadline ch = s := by
  unfold State.quietDeadline
  rw [calm]

theorem quietDeadline_of_chatter {c : Chatter} (chatter : s.cm[ch].chatter = some c) :
    s.quietDeadline ch = if c.deadline ≤ s.tb.e then s.endChatter ch c s.cm[ch].valid else s := by
  unfold State.quietDeadline
  rw [chatter]

/-- A record that enters the EQ at once leaves the pending store empty. -/
theorem channelRecord_store {cls : RecClass} (admits : s.admitsNow ch cls) (kind : RecKind) (i : Bool) (old new : Option Code)
    (aux stamp : Nat) (v : StationVals) : (s.channelRecord ch kind cls i old new aux stamp v).cm[ch].store = s.cm[ch].store := by
  have room := admits.2.1
  unfold State.channelRecord
  dsimp only
  rcases offerChannel_cases ch
    { mkRecord kind cls ch.val (codeOrNone old) (codeOrNone new) aux (stampOf v (max stamp s.cm[ch].floor)) with initial := i }
    (s.onChannel ch fun x => { x with floor := max stamp s.cm[ch].floor }) with ⟨-, -, -, enters⟩ | ⟨held, -⟩
  · rw [enters]
    exact (congrArg Channel.store (onChannel_self ch (fun x => { x with floor := max stamp s.cm[ch].floor }) s) :)
  · refine absurd ⟨?_, room, (otherClassHeld_of_admitsNow admits :)⟩ held
    rw [onChannel_self]
    exact admits.1

theorem endChatter_of_admits (admits : s.admitsNow ch (changeClass s.cm ch)) (c : Chatter) (new : Option Code) :
    (s.endChatter ch c new).cm[ch] =
      { s.cm[ch] with floor := max c.lastStamp s.cm[ch].floor, chatter := none, suppressed := 0, recent := [] } := by
  have ended : (s.endChatter ch c new).cm[ch].store = _ := (congrArg Channel.store (onChannel_self ..)).trans
    (channelRecord_store admits .chatterOff false (some c.codeAtEntry) new s.cm[ch].suppressed c.lastStamp c.lastVals)
  rw [(endChatter_self ch c new s).1, ended]

/-! ### The statement -/

/-- The look's part of O39. -/
theorem look_dates (due : s.lookNow) (u : Uplink) (o : LookOrder) (last : o.consoleFirst = false) (still : ∀ d, d < ch → s.stillAt u d) :
    (∀ k, s.validatesAt u ch k → Dated ch k s (s.look u o)) ∧
      ∀ r, s.losesAt u ch → s.cm[ch].runStart = some r → Lost ch r s (s.look u o) := by
  have judged : s.judgedIn u o = s.noted := by unfold State.judgedIn; rw [last]; rfl
  have channels := look_channelPart due u o
  rw [judged] at channels
  have own : (s.look u o).cm[ch] = (s.noted.channelPart u o.openingFirst).cm[ch] := by rw [channels.out .cm (by decide)]
  have after : Appended (s.noted.channelPart u o.openingFirst) (s.look u o) := .of_within channels (by decide)
  refine ⟨fun k validates => ?_, fun r loses run => ?_⟩
  · have dated : Dated ch k s.noted _ := channelPart_dated o.openingFirst still validates
    exact (Dated.from_same (s := s) dated (fun _ => rfl) rfl rfl rfl rfl rfl rfl rfl).later own after
  · have lost : Lost ch r s.noted _ := channelPart_lost o.openingFirst still loses run
    exact (Lost.from_same (s := s) lost (fun _ => rfl) rfl rfl rfl rfl rfl rfl).later own after

/-- A unit after a look. -/
theorem look_unit (due : s.lookNow) (u : Uplink) (o : LookOrder) (v : UnitNo) :
    let w := s.look u o
    (∀ ch k, modeSource s.cm v = some ch → s.validatesAt u ch k →
      Moved s.tu[v] w.tu[v] (if s.tu[v].enabled then s.tu[v].modeMap[k.code] else .unknown) (max (s.datedAt ch k) s.tu[v].entry)) ∧
    (∀ ch, modeSource s.cm v = some ch → s.losesAt u ch → Moved s.tu[v] w.tu[v] .unknown s.tb.e) ∧
    ((∀ ch ∈ modeSource s.cm v, s.stillAt u ch) → SameUnit s.tu[v] w.tu[v]) := by
  obtain ⟨j, isJ⟩ : ∃ j, j = s.judgedIn u o := ⟨_, rfl⟩
  have before := judgedIn_within u o s
  have same := judgedIn_sameUnit u o s v
  have tu := (look_channelPart due u o).out .tu (by decide)
  rw [← isJ] at before same tu
  have cm : j.cm = s.cm := before.out .cm (by decide)
  have tb : j.tb = s.tb := before.out .tb (by decide)
  have result := channelPart_unit u o.openingFirst j v
  dsimp only at result ⊢
  unfold State.validatesAt State.losesAt State.stillAt State.datedAt at *
  unfold State.validatesAt State.losesAt at *
  rw [cm, tb, ← tu] at result
  obtain ⟨validated, lost, quiet⟩ := result
  refine ⟨fun ch k source validates => ?_, fun ch source loses => (lost ch source loses).before same, fun still => same.trans (quiet still)⟩
  have moved := (validated ch k source validates).before same
  rwa [same.enabled, same.modeMap, same.entry] at moved

/-- A group's slot after a look. -/
theorem look_tripped (due : s.lookNow) (u : Uplink) (o : LookOrder) (g : Group) :
    Tripped (s.tripIn u g) (64 * s.ml.params.cascadeWindow + 320) s.ct.slots[g] (s.look u o).ct.slots[g] (s.look u o).ct.incident := by
  obtain ⟨j, isJ⟩ : ∃ j, j = s.judgedIn u o := ⟨_, rfl⟩
  have before := judgedIn_within u o s
  have ct := (look_channelPart due u o).out .ct (by decide)
  rw [← isJ] at before ct
  have cm : j.cm = s.cm := before.out .cm (by decide)
  have trips : j.tripIn u g = s.tripIn u g := by
    unfold State.tripIn State.tripsAt State.validatesAt State.datedAt
    rw [cm]
  have result := channelPart_tripped u o.openingFirst j g
  dsimp only at result
  rw [trips, before.out .ml (by decide), before.out .ct (by decide)] at result
  rw [ct]
  exact result

/-- A channel's look rule in the words of the statement. -/
theorem Dated.stated (d : Dated ch k s t) :
    let x := s.cm[ch]
    let source := x.entry.role = .mode ∧ shadowed s.cm ch = false
    let changes := if x.entry.role = .alarm ∨ x.entry.role = .trip then RecClass.a else .b
    let presence := if x.entry.role = .alarm ∨ x.entry.role = .trip ∨ source then RecClass.a else .b
    let st := stampOf k.vals (s.datedAt ch k)
    t.cm[ch].floor = (if x.chatter.isSome ∧ x.presence = .present then x.floor else s.datedAt ch k) ∧
    (x.presence = .unknown → t.cm[ch].recent = x.recent ∧ (s.admitsNow ch changes →
      s.admittedNext t { mkRecord (if source then .mode else .state) changes ch.val 255 k.code.val 0 st with initial := true })) ∧
    (x.presence = .absent → t.cm[ch].recent = x.recent ∧ (s.admitsNow ch presence →
      s.admittedNext t (mkRecord .channelFound presence ch.val 255 k.code.val 0 st))) ∧
    (x.presence = .present → x.chatter = none → t.cm[ch].chatter = none → s.admitsNow ch changes →
      s.admittedNext t (mkRecord (if source then .mode else .state) changes ch.val (codeOrNone x.valid) k.code.val 0 st)) := by
  obtain ⟨floor, unknown, absent, present⟩ := d
  rw [changeClass_eq, changeKind_eq] at unknown present
  rw [presenceClass_eq] at absent
  exact ⟨floor, unknown, absent, present⟩

theorem Lost.stated {r : RunStart} (l : Lost ch r s t) :
    let x := s.cm[ch]
    let source := x.entry.role = .mode ∧ shadowed s.cm ch = false
    let changes := if x.entry.role = .alarm ∨ x.entry.role = .trip then RecClass.a else .b
    let presence := if x.entry.role = .alarm ∨ x.entry.role = .trip ∨ source then RecClass.a else .b
    (x.chatter = none → s.admitsNow ch presence → s.admittedNext t (mkRecord .channelLost presence ch.val (codeOrNone x.valid) 255 0
      (stampOf r.vals (max (r.frame - x.entry.latency) x.floor)))) ∧
    (∀ c, x.chatter = some c → t.cm[ch].chatter = none ∧ t.cm[ch].suppressed = 0 ∧ t.cm[ch].recent = [] ∧ (s.admitsNow ch changes →
      s.admittedNext t (mkRecord .chatterOff changes ch.val c.codeAtEntry.val (codeOrNone x.valid) x.suppressed
        (stampOf c.lastVals (max c.lastStamp x.floor))))) := by
  obtain ⟨still, chattering⟩ := l
  rw [presenceClass_eq] at still
  rw [changeClass_eq] at chattering
  exact ⟨still, chattering⟩

/-- Settles O39: the lowest channel that a look changes finds the EQ as it was, and what follows its record only appends. -/
theorem changesDatedAndChatterBounded : Obligations.ChangesDatedAndChatterBounded := by
  refine ⟨fun s u o due => ⟨s.look u o, rfl, fun ch last still => ?_, fun v => ?_, fun g => ?_⟩, fun s ch k => ?_, fun s ch => ?_⟩
  · obtain ⟨dated, lost⟩ := look_dates due u o last still
    exact ⟨fun k validates => (dated k validates).stated, fun r loses run => (lost r loses run).stated⟩
  · obtain ⟨validated, lost, quiet⟩ := look_unit due u o v
    refine ⟨fun ch k source validates => ?_, fun ch source loses => ?_, fun still => ?_⟩
    · obtain ⟨mode, stays, moves⟩ := validated ch k source validates
      exact ⟨mode, stays, moves⟩
    · obtain ⟨mode, stays, moves⟩ := lost ch source loses
      exact ⟨mode, stays, moves⟩
    · obtain ⟨mode, entry, history, buckets, -, -⟩ := quiet still
      exact ⟨mode, entry, history, buckets⟩
  · obtain ⟨quiet, opens, joins⟩ := look_tripped due u o g
    exact ⟨quiet, opens, joins⟩
  · intro x stamp t y cls record present
    obtain ⟨items, alone⟩ := validate_recorded ch k s
    unfold Channel.Recorded at items
    have class_ : changeClass s.cm ch = cls := changeClass_eq ..
    refine ⟨validate_handOn s ch k, (congrArg Channel.valid items :), (congrArg Channel.candidate items :),
      (congrArg Channel.presence items :), (validate_within ch k s).mono (by decide), alone.others, fun c chatter =>
      validate_in_chatter present chatter, fun first l still recent limit inside => ?_, fun still calm => ?_⟩
    · obtain ⟨admitted, rest⟩ := validate_enters_chatter (k := k) present still (entersChatter_of_limit recent limit inside)
      rw [class_] at admitted
      exact ⟨admitted, rest⟩
    · obtain ⟨admitted, rest⟩ := validate_of_calm (k := k) present still (entersChatter_of_calm calm)
      rw [class_, changeKind_eq] at admitted
      exact ⟨admitted, rest⟩
  · refine ⟨fun calm => congrArg Host.Outcome.next (quietDeadline_of_calm calm), fun c chatter => ?_⟩
    have ended := quietDeadline_of_chatter chatter
    refine ⟨fun early => congrArg Host.Outcome.next (ended.trans (if_neg (by omega))), fun due => ?_⟩
    rw [if_pos due] at ended
    obtain ⟨self, alone⟩ := endChatter_self ch c s.cm[ch].valid s
    intro stamp cls
    have class_ : changeClass s.cm ch = cls := changeClass_eq ..
    refine ⟨s.quietDeadline ch, rfl, ?_⟩
    have within := quietDeadline_within ch s
    rw [ended] at within ⊢
    rw [← class_]
    exact ⟨fun admits => ⟨endChatter_admitted admits c s.cm[ch].valid, endChatter_of_admits admits c s.cm[ch].valid⟩,
      (congrArg Channel.chatter self :), (congrArg Channel.valid self :), (congrArg Channel.floor self :), alone.others, within.mono (by decide)⟩

end Sys2Proof.Machine
end
